-- ==== Sys2Proof/Word.lean ====
section
/-!
DEFINITION. Word: the plain types of the machine's words and addresses (R114: little-endian 32-bit words; R40: 57-bit
virtual byte addresses; R457: 52-bit physical addresses, kept as natural numbers where they key memory).
-/

namespace Sys2Proof

/-- A 32-bit word: an instruction word, a scalar register, one element of a vector register. -/
abbrev Word := BitVec 32

/-- One byte of a memory. -/
abbrev Byte := BitVec 8

/-- A 64-bit value: a register pair, a mask register, a 64-bit CSR. -/
abbrev DWord := BitVec 64

/-- A set of lane ranks of one team: bit l stands for lane rank l (R40). -/
abbrev Mask := BitVec 64

end Sys2Proof
end

