-- ==== Sys2Proof/Machine/Bits.lean ====
section
/-!
DEFINITION. Machine/Bits: bit fields, byte order and the one sparse table used for memories and register files.
R114 (words are little-endian), R5 (bit ranges are written [hi:lo]).
-/

namespace Sys2Proof

/-- Bits [lo + n - 1 : lo] of a word. -/
def bits {w : Nat} (x : BitVec w) (lo n : Nat) : BitVec n := x.extractLsb' lo n

/-- Bits [lo + n - 1 : lo] of a word, as a number. -/
def bitsN {w : Nat} (x : BitVec w) (lo n : Nat) : Nat := x.toNat / 2 ^ lo % 2 ^ n

/-- Bit i of a word. -/
def bit {w : Nat} (x : BitVec w) (i : Nat) : Bool := x.getLsbD i

/-- A field of n bits, of value v, standing at bit lo of a word. -/
def put (w lo : Nat) {n : Nat} (v : BitVec n) : BitVec w := BitVec.ofNat w (v.toNat * 2 ^ lo)

/-- One bit standing at bit lo of a word. -/
def putB (w lo : Nat) (b : Bool) : BitVec w := if b then BitVec.ofNat w (2 ^ lo) else 0

/-- The two's-complement value of a bit pattern of n bits given as a number. -/
def sextN (n v : Nat) : Int := if v % 2 ^ n < 2 ^ (n - 1) then (v % 2 ^ n : Nat) else (v % 2 ^ n : Nat) - (2 ^ n : Nat)

/-- The bytes of a number, lowest first (R114). -/
def leBytes : Nat → Nat → List Byte
  | 0, _ => []
  | n + 1, v => BitVec.ofNat 8 v :: leBytes n (v / 256)

/-- The number that bytes spell, lowest first (R114). -/
def ofLeBytes : List Byte → Nat
  | [] => 0
  | b :: bs => b.toNat + 256 * ofLeBytes bs

/-! ## Sparse tables: pairs of a key and a value, keys strictly rising -/

/-- The value a table holds for a key. -/
def tabGet {α : Type} : List (Nat × α) → Nat → Option α
  | [], _ => none
  | (k, v) :: t, a => if a = k then some v else if a < k then none else tabGet t a

/-- The table with the value of one key written. -/
def tabSet {α : Type} : List (Nat × α) → Nat → α → List (Nat × α)
  | [], a, x => [(a, x)]
  | (k, v) :: t, a, x =>
    if a = k then (k, x) :: t else if a < k then (a, x) :: (k, v) :: t else (k, v) :: tabSet t a x

/-- The table without one key. -/
def tabDel {α : Type} : List (Nat × α) → Nat → List (Nat × α)
  | [], _ => []
  | (k, v) :: t, a => if a = k then t else if a < k then (k, v) :: t else (k, v) :: tabDel t a

/-- A table whose unlisted keys read as `d`: the read. -/
def defGet {α : Type} (d : α) (t : List (Nat × α)) (a : Nat) : α := (tabGet t a).getD d

/-- A table whose unlisted keys read as `d`: the write. Writing `d` removes the entry. -/
def defSet {α : Type} [DecidableEq α] (d : α) (t : List (Nat × α)) (a : Nat) (x : α) : List (Nat × α) :=
  if x = d then tabDel t a else tabSet t a x

/-- Keys strictly rising. -/
def tabWf {α : Type} : List (Nat × α) → Bool
  | [] => true
  | (_, _) :: [] => true
  | (k, _) :: (k', v') :: t => decide (k < k') && tabWf ((k', v') :: t)

/-- The canonical form of a table with a default: keys strictly rising and no entry equal to the default. -/
def defWf {α : Type} [DecidableEq α] (d : α) (t : List (Nat × α)) : Bool :=
  tabWf t && t.all (fun p => decide (p.2 ≠ d))

/-- Replace the i-th element of a list; a list too short is left as it is. -/
def setAt {α : Type} : List α → Nat → α → List α
  | [], _, _ => []
  | _ :: t, 0, x => x :: t
  | h :: t, n + 1, x => h :: setAt t n x

/-- A file of k registers with one replaced; a register that the list does not hold reads as d. -/
def putAt {α : Type} (k : Nat) (d : α) (l : List α) (n : Nat) (x : α) : List α :=
  (List.range k).map (fun i => if i = n then x else l.getD i d)

/-- Update the elements of a list with their index. -/
def mapIdxFrom {α β : Type} (f : Nat → α → β) : Nat → List α → List β
  | _, [] => []
  | i, h :: t => f i h :: mapIdxFrom f (i + 1) t

/-- Update the elements of a list with their index from 0. -/
def mapIx {α β : Type} (f : Nat → α → β) (l : List α) : List β := mapIdxFrom f 0 l

/-- Index of the first element that meets a test. -/
def indexOf {α : Type} (f : α → Bool) : List α → Option Nat
  | [] => none
  | x :: xs => if f x then some 0 else (indexOf f xs).map (· + 1)

/-- The lanes of a mask, in increasing lane rank. -/
def lanesOf (m : Mask) : List Nat := (List.range 64).filter (fun l => m.getLsbD l)

/-- The mask of the lanes below n for which f holds. -/
def maskOf (n : Nat) (f : Nat → Bool) : Mask :=
  (List.range n).foldl (fun m l => if f l then m ||| BitVec.ofNat 64 (2 ^ l) else m) 0

/-- A mask with one lane's bit written. -/
def maskPut (m : Mask) (l : Nat) (b : Bool) : Mask :=
  if b then m ||| BitVec.ofNat 64 (2 ^ l) else m &&& ~~~ (BitVec.ofNat 64 (2 ^ l))

/-- Number of lanes of a mask. -/
def popMask (m : Mask) : Nat := (lanesOf m).length

/-- The mask of all lanes of a team of width w (R41: bits w to 63 read zero). -/
def fullMask (w : Nat) : Mask := BitVec.ofNat 64 (2 ^ w - 1)

end Sys2Proof
end

