-- ==== Sys2Proof/Machine/Flags.lean ====
section
/-!
DEFINITION. Machine/Flags: the floating-point exceptions that an instruction signals (R194, R195), in the bit positions of
TEAM_TRAP_EN and TEAM_STICKY (R52).
-/

namespace Sys2Proof.Machine

/-- A set of FP exceptions: NV bit 1, DZ bit 2, OF bit 3, UF bit 4, NX bit 5 (R52). -/
abbrev Exc := BitVec 6

/-- Invalid operation. -/
def excNV : Exc := 2
/-- Division by zero. -/
def excDZ : Exc := 4
/-- Overflow. -/
def excOF : Exc := 8
/-- Underflow. -/
def excUF : Exc := 16
/-- Inexact. -/
def excNX : Exc := 32

/-- An exception signalled under a condition. -/
def Exc.when (b : Bool) (e : Exc) : Exc := if b then e else 0

end Sys2Proof.Machine
end

