-- ==== Sys2Proof/Machine/Float.lean ====
section
/-!
DEFINITION. Machine/Float: the scalar floating-point formats (R62, R63), exact values, the one rounding (R70 to R72) with
the exceptions it signals (R194), and the arithmetic and conversions of R196 to R200.
-/

namespace Sys2Proof.Machine

/-- A scalar floating-point format (R62). -/
structure Fmt where
  /-- Width of the element, of its mantissa, and its bias. -/
  width : Nat
  man : Nat
  bias : Nat
  /-- Infinity exists; E4M3 has none. -/
  inf : Bool
  deriving DecidableEq, Repr

def fmtF32 : Fmt := { width := 32, man := 23, bias := 127, inf := true }
def fmtF16 : Fmt := { width := 16, man := 10, bias := 15, inf := true }
def fmtBF16 : Fmt := { width := 16, man := 7, bias := 127, inf := true }
def fmtE4M3 : Fmt := { width := 8, man := 3, bias := 7, inf := false }
def fmtE5M2 : Fmt := { width := 8, man := 2, bias := 15, inf := true }

/-- The format of a float type code (R118); other codes read as f32. -/
def fmtOf : Nat → Fmt
  | 3 => fmtF16
  | 4 => fmtBF16
  | 5 => fmtE4M3
  | 6 => fmtE5M2
  | _ => fmtF32

/-- Sign bit of a format. -/
def Fmt.sign (f : Fmt) (neg : Bool) : Nat := if neg then 2 ^ (f.width - 1) else 0

/-- Largest exponent field. -/
def Fmt.top (f : Fmt) : Nat := 2 ^ (f.width - 1 - f.man) - 1

/-- Canonical NaN (R62, R63). -/
def Fmt.nan (f : Fmt) : Nat := if f.inf then f.top * 2 ^ f.man + 2 ^ (f.man - 1) else 0x7F

/-- Magnitude bits of infinity; where there is none, of the canonical NaN. -/
def Fmt.infBits (f : Fmt) : Nat := if f.inf then f.top * 2 ^ f.man else 0x7F

/-- Magnitude bits of the largest finite value. -/
def Fmt.maxBits (f : Fmt) : Nat := if f.inf then f.top * 2 ^ f.man - 1 else 0x7E

/-- A value of a format: NaN, signalling or quiet; an infinity; or ± m × 2^-149. -/
inductive FV where
  | nan (signalling : Bool)
  | inf (neg : Bool)
  | fin (neg : Bool) (m : Nat)
  deriving DecidableEq, Repr

/-- Decode an element (R62, R194). -/
def Fmt.decode (f : Fmt) (x : Nat) : FV :=
  let x := x % 2 ^ f.width
  let neg := decide (2 ^ (f.width - 1) ≤ x)
  let m := x % 2 ^ f.man
  let e := x / 2 ^ f.man % (f.top + 1)
  if f.inf ∧ e = f.top then
    if m = 0 then .inf neg else .nan (decide (m < 2 ^ (f.man - 1)))
  else if ¬ f.inf ∧ x % 2 ^ (f.width - 1) = 0x7F then .nan false
  else if e = 0 then .fin neg (m * 2 ^ (150 - f.bias - f.man))
  else .fin neg ((2 ^ f.man + m) * 2 ^ (149 + e - f.bias - f.man))

/-- Smallest normal of a format in units of 2^-149. -/
def Fmt.minNormal (f : Fmt) : Nat := 2 ^ (150 - f.bias)

/-- FI (R71): a subnormal source becomes a zero of its sign. -/
def FV.flushIn (f : Fmt) (fi : Bool) : FV → FV
  | .fin neg m => if fi ∧ m < f.minNormal then .fin neg 0 else .fin neg m
  | v => v

/-- A signed exact value in units of 2^-149. -/
def FV.int : FV → Int
  | .fin neg m => if neg then -(m : Int) else m
  | _ => 0

def FV.isNan : FV → Bool
  | .nan _ => true
  | _ => false

def FV.isSnan : FV → Bool
  | .nan s => s
  | _ => false

def FV.neg : FV → Bool
  | .nan _ => false
  | .inf n => n
  | .fin n _ => n

/-- The value with its sign changed; NaN stays. -/
def FV.negate : FV → FV
  | .inf n => .inf (!n)
  | .fin n m => .fin (!n) m
  | v => v

/-- How a result is written: format, rounding mode (1 rn, 2 rz, 3 ru, 4 rd, 5 ra), .sat and FO. -/
structure Rnd where
  f : Fmt
  mode : Nat
  sat : Bool
  fo : Bool
  deriving DecidableEq, Repr

/-- A result: its bits and what it signals. -/
structure FRes where
  bits : Nat
  exc : Exc
  deriving DecidableEq, Repr

/-- n / d rounded to an integer in a mode, for a magnitude of a sign (R70). -/
def roundDiv (mode : Nat) (neg : Bool) (n d : Nat) : Nat :=
  let q := n / d
  let r := n % d
  let up := match mode with
    | 2 => false
    | 3 => !neg && decide (r ≠ 0)
    | 4 => neg && decide (r ≠ 0)
    | 5 => decide (d ≤ 2 * r)
    | _ => decide (d < 2 * r) || (decide (2 * r = d) && decide (q % 2 = 1))
  if up then q + 1 else q

/-- n / d × 2^e as a quotient of naturals. -/
def scale2 (n d : Nat) (e : Int) : Nat × Nat :=
  if e ≥ 0 then (n * 2 ^ e.toNat, d) else (n, d * 2 ^ (-e).toNat)

/-- floor(log2(n / d × 2^e)) for n ≠ 0. -/
def log2Floor (n d : Nat) (e : Int) : Int :=
  let k : Int := (Nat.log2 n : Int) - (Nat.log2 d : Int)
  let (a, b) := scale2 n d (-k)
  if b ≤ a then k + e else k - 1 + e

/-- A positive exact result n / d × 2^e rounded once and written: R70, R71, R72 rows 3 and 5, with OF, UF and NX (R194). -/
def Rnd.round (o : Rnd) (neg : Bool) (n d : Nat) (e : Int) : FRes :=
  let f := o.f
  let lg := log2Floor n d e
  let emin : Int := 1 - (f.bias : Int)
  let wide : Int := lg - f.man
  let (n1, d1) := scale2 n d (e - wide)
  let u := roundDiv o.mode neg n1 d1
  -- the rounded value with an unbounded exponent: its exponent after a carry
  let ulg : Int := if u = 2 ^ (f.man + 1) then lg + 1 else lg
  let past : Bool :=
    if f.inf then decide ((f.bias : Int) < ulg)
    else decide (8 < ulg) || (decide (ulg = 8) && decide (14 < (if u = 2 ^ (f.man + 1) then 8 else u)))
  if past then
    let bits :=
      if o.sat then f.sign neg + f.maxBits
      else if !f.inf then f.nan
      else match o.mode with
        | 2 => f.sign neg + f.maxBits
        | 3 => if neg then f.sign neg + f.maxBits else f.infBits
        | 4 => if neg then f.sign neg + f.infBits else f.maxBits
        | _ => f.sign neg + f.infBits
    { bits := bits, exc := excOF ||| excNX }
  else
    let qe : Int := max wide (emin - f.man)
    let (n2, d2) := scale2 n d (e - qe)
    let r := roundDiv o.mode neg n2 d2
    let tiny := decide (ulg < emin)
    let sub := decide (r < 2 ^ f.man)
    let flush := o.fo && sub && decide (r ≠ 0)
    let exact := decide (r * d2 = n2) && !flush
    let mag := if flush then 0 else ((qe + f.man + f.bias).toNat * 2 ^ f.man + r) - 2 ^ f.man
    { bits := f.sign neg + mag, exc := Exc.when (!exact) excNX ||| Exc.when (tiny && !exact) excUF }

/-- A zero result. -/
def Rnd.zero (o : Rnd) (neg : Bool) : FRes := { bits := o.f.sign neg, exc := 0 }

/-- R72 row 1: the canonical NaN; NV for an invalid operation or a signalling NaN input. -/
def Rnd.invalid (o : Rnd) (nv : Bool) : FRes := { bits := o.f.nan, exc := Exc.when nv excNV }

/-- R72 row 2 and, with DZ in `exc`, row 4. -/
def Rnd.infinite (o : Rnd) (neg : Bool) (exc : Exc) : FRes :=
  if o.sat then { bits := o.f.sign neg + o.f.maxBits, exc := exc ||| excNX }
  else if !o.f.inf then { bits := o.f.nan, exc := exc ||| excNV }
  else { bits := o.f.sign neg + o.f.infBits, exc := exc }

/-- An exact sum of value x × 2^e, non-zero or zero of the sign that R196 gives an exact zero sum. -/
def Rnd.ofInt (o : Rnd) (x : Int) (e : Int) (zneg : Bool) : FRes :=
  if x = 0 then o.zero zneg else o.round (decide (x < 0)) x.natAbs 1 e

/-- Sign of an exact zero sum of two addends (R196). -/
def zeroSign (mode : Nat) (a b : Bool) : Bool := (a && b) || (decide (mode = 4) && (a || b))

/-- FADD (R196). -/
def Rnd.add (o : Rnd) (a b : FV) : FRes :=
  match a, b with
  | .nan s, b => o.invalid (s || b.isSnan)
  | _, .nan s => o.invalid s
  | .inf m, .inf n => if m = n then o.infinite m 0 else o.invalid true
  | .inf m, _ => o.infinite m 0
  | _, .inf n => o.infinite n 0
  | a, b => o.ofInt (a.int + b.int) (-149) (zeroSign o.mode a.neg b.neg)

/-- FMUL (R196). -/
def Rnd.mul (o : Rnd) (a b : FV) : FRes :=
  match a, b with
  | .nan s, b => o.invalid (s || b.isSnan)
  | _, .nan s => o.invalid s
  | .inf m, .fin n x => if x = 0 then o.invalid true else o.infinite (m != n) 0
  | .fin n x, .inf m => if x = 0 then o.invalid true else o.infinite (m != n) 0
  | .inf m, .inf n => o.infinite (m != n) 0
  | .fin m x, .fin n y => if x * y = 0 then o.zero (m != n) else o.round (m != n) (x * y) 1 (-298)

/-- The product of two values, when it is neither NaN nor invalid: an infinity or an exact value in units of 2^-298. -/
def mulExact (a b : FV) : Option (FV) :=
  match a, b with
  | .nan _, _ => none
  | _, .nan _ => none
  | .inf m, .fin n x => if x = 0 then none else some (.inf (m != n))
  | .fin n x, .inf m => if x = 0 then none else some (.inf (m != n))
  | .inf m, .inf n => some (.inf (m != n))
  | .fin m x, .fin n y => some (.fin (m != n) (x * y))

/-- 0 × ∞ (R72 row 1). -/
def mulInvalid (a b : FV) : Bool :=
  match a, b with
  | .inf _, .fin _ x => decide (x = 0)
  | .fin _ x, .inf _ => decide (x = 0)
  | _, _ => false

/-- FFMA (R196): 0 × ∞ is NV even with a quiet NaN addend. -/
def Rnd.fma (o : Rnd) (a b c : FV) : FRes :=
  if mulInvalid a b then o.invalid true
  else if a.isNan || b.isNan || c.isNan then o.invalid (a.isSnan || b.isSnan || c.isSnan)
  else match mulExact a b, c with
    | some (.inf m), .inf n => if m = n then o.infinite m 0 else o.invalid true
    | some (.inf m), _ => o.infinite m 0
    | _, .inf n => o.infinite n 0
    | some p, c => o.ofInt (p.int + c.int * 2 ^ 149) (-298) (zeroSign o.mode p.neg c.neg)
    | none, _ => o.invalid true

/-- FSCALE (R196): a × 2^k. -/
def Rnd.scale (o : Rnd) (a : FV) (k : Int) : FRes :=
  match a with
  | .nan s => o.invalid s
  | .inf m => o.infinite m 0
  | .fin m x => if x = 0 then o.zero m else o.round m x 1 (max (-2000) (min 2000 k) - 149)

/-- a is below b in the order of FMIN and FMAX: −0 below +0 (R196). -/
def FV.below : FV → FV → Bool
  | .inf true, .inf true => false
  | .inf true, _ => true
  | .inf false, _ => false
  | _, .inf n => !n
  | .fin m x, .fin n y => decide ((FV.fin m x).int < (FV.fin n y).int) || (decide (x = 0 ∧ y = 0) && m && !n)
  | _, _ => false

/-- Encode a value that the format holds, with FO; no rounding takes place. -/
def Rnd.exact (o : Rnd) (v : FV) : FRes :=
  match v with
  | .nan _ => { bits := o.f.nan, exc := 0 }
  | .inf m => { bits := o.f.sign m + o.f.infBits, exc := 0 }
  | .fin m x => if x = 0 ∨ (o.fo ∧ x < o.f.minNormal) then o.zero m else { bits := (o.round m x 1 (-149)).bits, exc := 0 }

/-- FMIN, FMAX (R196); NV for a signalling NaN only (R194). -/
def Rnd.minmax (o : Rnd) (big : Bool) (a b : FV) : FRes :=
  let v := if a.isNan then b else if b.isNan then a
    else if big then (if a.below b then b else a) else (if b.below a then b else a)
  let r := o.exact v
  { r with exc := Exc.when (a.isSnan || b.isSnan) excNV }

/-- FCVT of a value (R199). -/
def Rnd.convert (o : Rnd) (a : FV) : FRes :=
  match a with
  | .nan s => o.invalid s
  | .inf m => o.infinite m 0
  | .fin m x => if x = 0 then o.zero m else o.round m x 1 (-149)

/-- I2F of an exact integer (R199). -/
def Rnd.ofInteger (o : Rnd) (x : Int) : FRes := if x = 0 then o.zero false else o.round (decide (x < 0)) x.natAbs 1 0

/-- FRND (R197): a zero result keeps the sign. -/
def Rnd.integral (o : Rnd) (a : FV) : FRes :=
  match a with
  | .nan s => o.invalid s
  | .inf m => { bits := o.f.sign m + o.f.infBits, exc := 0 }
  | .fin m x =>
    let r := roundDiv o.mode m x (2 ^ 149)
    if r = 0 then o.zero m else { bits := (o.round m r 1 0).bits, exc := 0 }

/-- Bytes of an element of a type (R210). -/
def esize (t : Nat) : Nat :=
  if t = 5 ∨ t = 6 ∨ t = 9 ∨ t = 10 then 1 else if t = 3 ∨ t = 4 ∨ t = 7 ∨ t = 8 then 2 else 4

/-- Integer types: width and signedness of a type code (R64, R118). -/
def intType : Nat → Option (Nat × Bool)
  | 0 => some (32, true)
  | 1 => some (32, false)
  | 7 => some (16, true)
  | 8 => some (16, false)
  | 9 => some (8, true)
  | 10 => some (8, false)
  | _ => none

/-- Minimum and maximum of an integer type. -/
def intRange (w : Nat) (signed : Bool) : Int × Int :=
  if signed then (-(2 ^ (w - 1) : Int), (2 ^ (w - 1) : Int) - 1) else (0, (2 ^ w : Int) - 1)

/-- ext_t (R182): the exact integer that the low bits of a word encode. -/
def extInt (t : Nat) (x : Nat) : Int :=
  match intType t with
  | some (w, true) => sextN w x
  | some (w, false) => (x % 2 ^ w : Nat)
  | none => sextN 32 x

/-- The 32-bit element of an integer of a type: extended by its own sign (R64). -/
def ofInt32 (x : Int) : Word := BitVec.ofInt 32 x

/-- store_t (R182). -/
def storeInt (t : Nat) (sat : Bool) (r : Int) : Word :=
  match intType t with
  | some (w, sg) =>
    if sat then ofInt32 (max (intRange w sg).1 (min (intRange w sg).2 r))
    else ofInt32 (extInt t (r % (2 ^ w : Int)).toNat)
  | none => ofInt32 r

/-- F2I (R199, R73): the clamped integer, with NV and NX (R194): an infinity and a value outside the type are written as another value. -/
def toInteger (t mode : Nat) (a : FV) : Word × Exc :=
  let (lo, hi) := match intType t with | some (w, sg) => intRange w sg | none => (0, 0)
  match a with
  | .nan _ => (0, excNV)
  | .inf m => (ofInt32 (if m then lo else hi), excNV ||| excNX)
  | .fin m x =>
    let q := roundDiv mode m x (2 ^ 149)
    let r : Int := if m then -(q : Int) else q
    if r < lo then (ofInt32 lo, excNV ||| excNX)
    else if hi < r then (ofInt32 hi, excNV ||| excNX)
    else (ofInt32 r, Exc.when (decide (q * 2 ^ 149 ≠ x)) excNX)

/-- FCLASS (R200). -/
def classify (f : Fmt) (a : FV) : Word :=
  match a with
  | .nan s => if s then 0x100 else 0x200
  | .inf m => if m then 1 else 0x80
  | .fin m x =>
    if x = 0 then (if m then 8 else 0x10)
    else if x < f.minNormal then (if m then 4 else 0x20)
    else (if m then 2 else 0x40)

/-- 1/a (R202, R203). -/
def Rnd.recip (o : Rnd) (a : FV) : FRes :=
  match a with
  | .nan s => o.invalid s
  | .inf m => o.zero m
  | .fin m x => if x = 0 then o.infinite m excDZ else o.round m 1 x 149

/-- Integer square root by Newton's steps from above. -/
def isqrtLoop (n : Nat) : Nat → Nat → Nat
  | 0, x => x
  | fuel + 1, x => let y := (x + n / x) / 2; if y < x then isqrtLoop n fuel y else x

/-- floor(√n). -/
def isqrt (n : Nat) : Nat := if n = 0 then 0 else isqrtLoop n (Nat.log2 n + 8) (2 ^ (Nat.log2 n / 2 + 1))

/-- A positive √(n/d) × 2^e rounded once: 2^100 or more times finer than any format, with a sticky last bit. -/
def Rnd.root (o : Rnd) (n d : Nat) (e : Int) : FRes :=
  let k := 160 + Nat.log2 d
  let s := n * 2 ^ (2 * k) / d
  let r := isqrt s
  let sticky := if r * r = s ∧ s * d = n * 2 ^ (2 * k) then 0 else 1
  o.round false (2 * r + sticky) 1 (e - k - 1)

/-- √a (R202, R203). -/
def Rnd.sqrt (o : Rnd) (a : FV) : FRes :=
  match a with
  | .nan s => o.invalid s
  | .inf m => if m then o.invalid true else o.infinite false 0
  | .fin m x => if x = 0 then o.zero m else if m then o.invalid true else o.root (2 * x) 1 (-75)

/-- 1/√a (R202, R203). -/
def Rnd.rsqrt (o : Rnd) (a : FV) : FRes :=
  match a with
  | .nan s => o.invalid s
  | .inf m => if m then o.invalid true else o.zero false
  | .fin m x => if x = 0 then o.infinite m excDZ else if m then o.invalid true else o.root 1 (2 * x) 75

/-! ## Exact sums of products (R79, R190) -/

/-- What an exact sum of addends is: row 1 of R72, an infinity, or an integer in units of 2^-298 and whether every addend is −0. -/
structure Sum where
  bad : Bool
  pinf : Bool
  ninf : Bool
  val : Int
  negz : Bool
  deriving DecidableEq, Repr

/-- The empty sum. -/
def Sum.zero : Sum := { bad := false, pinf := false, ninf := false, val := 0, negz := true }

/-- The sum with one more addend, in units of 2^-298; none is NaN or 0 × ∞. -/
def Sum.plus (s : Sum) (p : Option FV) : Sum :=
  match p with
  | none => { s with bad := true }
  | some (.nan _) => { s with bad := true }
  | some (.inf true) => { s with ninf := true, negz := false }
  | some (.inf false) => { s with pinf := true, negz := false }
  | some (.fin m x) =>
    { s with val := s.val + (FV.fin m x).int, negz := s.negz && m && decide (x = 0) }

/-- A sum rounded once (R190). DESIGN CHOICE (log entry 23): infinities of both signs beside a quiet NaN signal no NV. -/
def Rnd.ofSum (o : Rnd) (s : Sum) (nv : Bool) : FRes :=
  if s.bad then o.invalid nv
  else if s.pinf && s.ninf then o.invalid true
  else if s.pinf then o.infinite false 0
  else if s.ninf then o.infinite true 0
  else o.ofInt s.val (-298) (s.negz || decide (o.mode = 4))

/-- A value in units of 2^-298. -/
def FV.wide : FV → FV
  | .fin m x => .fin m (x * 2 ^ 149)
  | v => v

/-- DOT4 on FP8 bytes and an f32 addend (R190). -/
def Rnd.dot4 (o : Rnd) (ps : List (FV × FV)) (c : FV) : FRes :=
  let s := ps.foldl (fun s p => s.plus (mulExact p.1 p.2)) Sum.zero
  let nv := ps.any (fun p => mulInvalid p.1 p.2 || p.1.isSnan || p.2.isSnan) || c.isSnan
  o.ofSum (s.plus (some c.wide)) nv

end Sys2Proof.Machine
end

