-- ==== Sys2Proof/Machine/Blocks.lean ====
section
/-!
DEFINITION. Machine/Blocks: the block formats (R65 to R69), the quantiser (R74 to R76), and the update of memory by an exact
sum (R81). A decoded element stands in units of 2^-160, which every block element is a multiple of.
-/

namespace Sys2Proof.Machine

/-- A value in units of 2^-149 as one in units of 2^-160. -/
def FV.deep : FV → FV
  | .fin m x => .fin m (x * 2 ^ 11)
  | v => v

/-- A value in units of 2^-160 converted (R69, R199). -/
def Rnd.convertDeep (o : Rnd) (a : FV) : FRes :=
  match a with
  | .nan s => o.invalid s
  | .inf m => o.infinite m 0
  | .fin m x => if x = 0 then o.zero m else o.round m x 1 (-160)

/-- An element value in units of 2^-149 under a scale byte (R65), in units of 2^-160. -/
def scaled (v : FV) (s : Nat) : FV :=
  if s = 0xFF then .nan false
  else match v with
    | .fin m x => if 116 ≤ s then .fin m (x * 2 ^ (s - 116)) else .fin m (x / 2 ^ (116 - s))
    | v => v

/-- Kinds of block: elements E4M3 or E5M2 under a scale, I4X, C4. -/
inductive Blk where
  | mx8 (e5 : Bool)
  | i4x
  | c4
  deriving DecidableEq, Repr

/-- Bytes of a block's elements (R66 to R68); the scale byte follows. -/
def Blk.elemBytes : Blk → Nat
  | .mx8 _ => 32
  | _ => 16

/-- int4 of R67. -/
def int4 (q : Nat) : Int := if q = 8 then 0 else if q < 8 then q else (q : Int) - 16

/-- A small integer as a value in units of 2^-149. -/
def FV.ofInt (x : Int) : FV := .fin (decide (x < 0)) (x.natAbs * 2 ^ 149)

/-- Nibble j of a block's bytes. -/
def nibble (bs : List Byte) (j : Nat) : Nat :=
  let b := (bs.getD (j / 2) 0).toNat
  if j % 2 = 0 then b % 16 else b / 16

/-- The element of an I4X block before its scale (R67). -/
def i4xElem (bs : List Byte) (j : Nat) : FV :=
  let g := j / 4 * 4
  let q := fun k => nibble bs (g + k)
  let out := fmtE4M3.decode (q 3 * 16 + q 2)
  let k := j % 4
  if q 0 = 8 then (if k = 0 then out else if k = 1 then .ofInt (int4 (q 1)) else .ofInt 0)
  else if q 1 = 8 then (if k = 1 then out else if k = 0 then .ofInt (int4 (q 0)) else .ofInt 0)
  else .ofInt (int4 (q k))

/-- Element j of a block with its scale (R65 to R69), in units of 2^-160. -/
def Blk.decode (k : Blk) (bs : List Byte) (scale : Nat) (codebook : List (BitVec 16)) (j : Nat) : FV :=
  match k with
  | .mx8 e5 => scaled ((if e5 then fmtE5M2 else fmtE4M3).decode (bs.getD j 0).toNat) scale
  | .i4x => scaled (i4xElem bs j) scale
  | .c4 =>
    -- f16 elements reach 2^-24 × 2^-127, finer than 2^-149 only once the scale is applied
    if scale = 0xFF then .nan false
    else match fmtF16.decode (codebook.getD (nibble bs j) 0).toNat with
      | .fin m x => .fin m (x * 2 ^ scale / 2 ^ 116)
      | v => v

/-! ## The quantiser -/

/-- A code and whether its element exceeds. -/
abbrev QCode := Nat × Bool

/-- Index of the first least key of a list. -/
def argMin : List (Nat × Int) → Option Nat
  | [] => none
  | (c, k) :: t =>
    match argMin t with
    | none => some c
    | some c' => match (t.find? (fun p => decide (p.1 = c'))) with
      | some (_, k') => if k' < k then some c' else some c
      | none => some c

/-- v × 2^(127−e) in units of 2^-149: the normalised value of R74 times 2^127. -/
def normed (v : FV) (e : Int) : Int := v.int * 2 ^ (127 - e).toNat

/-- The constant k × 2^127 in units of 2^-149. -/
def normK (k : Int) : Int := k * 2 ^ 276

/-- mx8 element (R75). -/
def mxCode (f : Fmt) (e : Int) (v : FV) : QCode :=
  match v with
  | .fin m x =>
    if x = 0 then (f.sign m, false)
    else
      let r := ({ f := f, mode := 1, sat := true, fo := false } : Rnd).round m x 1 (-149 - e)
      (r.bits, decide (r.exc &&& excOF ≠ 0))
  | _ => (0, false)

/-- Finite codebook entries with their indices. -/
def finiteEntries (cb : List (BitVec 16)) : List (Nat × FV) :=
  (mapIx (fun i w => (i, fmtF16.decode w.toNat)) cb).filter (fun p => match p.2 with | .fin .. => true | _ => false)

/-- C4 element (R75). -/
def c4Code (cb : List (BitVec 16)) (e : Int) (v : FV) : QCode :=
  let u := normed v e
  let es := finiteEntries cb
  let val := fun (p : Nat × FV) => p.2.int * 2 ^ 127
  let code := (argMin (es.map (fun p => (p.1, ((u - val p).natAbs : Int))))).getD 0
  (code, !(es.any (fun p => decide (u ≤ val p))) || !(es.any (fun p => decide (val p ≤ u))))

/-- I4X code of an element within ±7; ties to the lower nibble value (R75). -/
def i4Near (u : Int) : Nat :=
  (argMin (((List.range 16).filter (fun q => decide (q ≠ 8))).map (fun q => (q, ((u - normK (int4 q)).natAbs : Int))))).getD 0

/-- An I4X element beyond ±7 is a candidate for the outlier (R75). -/
def i4Cand (u : Int) : Bool := decide (normK 7 < u) || decide (u < normK (-7))

/-- Code of an element that is no placed outlier, saturated when it exceeds (R75, R76). -/
def i4Plain (u : Int) : QCode := if i4Cand u then (if u < 0 then 9 else 7, true) else (i4Near u, false)

/-- The four codes of an I4X group (R76). -/
def i4Group (e : Int) (vs : List FV) : List QCode :=
  let v := fun k => vs.getD k (.fin false 0)
  let u := fun k => normed (v k) e
  let zero := fun k => !(i4Cand (u k)) && decide (i4Near (u k) = 0)
  let c0 := i4Cand (u 0)
  let c1 := i4Cand (u 1)
  let slot := if c0 && (!c1 || decide ((u 1).natAbs ≤ (u 0).natAbs)) then 0 else 1
  if (c0 || c1) && zero 2 && zero 3 then
    let b := (mxCode fmtE4M3 e (v slot)).1
    let other := i4Plain (u (1 - slot))
    (if slot = 0 then [(8, false), other] else [other, (8, false)]) ++ [(b % 16, false), (b / 16, false)]
  else [i4Plain (u 0), i4Plain (u 1), i4Plain (u 2), i4Plain (u 3)]

/-- All 32 codes at an exponent. -/
def Blk.codes (k : Blk) (cb : List (BitVec 16)) (e : Int) (vs : List FV) : List QCode :=
  match k with
  | .mx8 e5 => vs.map (mxCode (if e5 then fmtE5M2 else fmtE4M3) e)
  | .c4 => vs.map (c4Code cb e)
  | .i4x => (List.range 8).flatMap (fun g => i4Group e ((vs.drop (4 * g)).take 4))

/-- emax (R74). -/
def Blk.emax (k : Blk) (cb : List (BitVec 16)) : Int :=
  match k with
  | .mx8 e5 => if e5 then 15 else 8
  | .i4x => 2
  | .c4 =>
    let m := (finiteEntries cb).foldl (fun m p => max m p.2.int.natAbs) 0
    if m = 0 then 0 else (Nat.log2 m : Int) - 149

/-- Codes packed into a block's bytes, the scale byte last (R66 to R68). -/
def Blk.pack (k : Blk) (cs : List Nat) (scale : Nat) : List Byte :=
  (match k with
   | .mx8 _ => (List.range 32).map (fun j => BitVec.ofNat 8 (cs.getD j 0))
   | _ => (List.range 16).map (fun j => BitVec.ofNat 8 (cs.getD (2 * j) 0 + 16 * cs.getD (2 * j + 1) 0)))
  ++ [BitVec.ofNat 8 scale]

/-- The attempts of R74 from an exponent. -/
def Blk.attempt (k : Blk) (cb : List (BitVec 16)) (vs : List FV) : Nat → Int → List Byte
  | 0, e => k.pack ((k.codes cb e vs).map (fun c => c.1)) (e + 127).toNat
  | n + 1, e =>
    let cs := k.codes cb e vs
    if e = 127 ∨ ¬ cs.any (fun c => c.2) then k.pack (cs.map (fun c => c.1)) (e + 127).toNat
    else k.attempt cb vs n (e + 1)

/-- The quantiser (R74). -/
def Blk.quantise (k : Blk) (cb : List (BitVec 16)) (vs : List FV) : List Byte :=
  let noEntry := match k with | .c4 => decide (finiteEntries cb = []) | _ => false
  if noEntry || vs.any (fun v => match v with | .fin .. => false | _ => true) then k.pack (List.replicate 32 0) 0xFF
  else
    let amax := vs.foldl (fun m v => max m v.int.natAbs) 0
    let e : Int := if amax = 0 then 0 else (Nat.log2 amax : Int) - 149 - k.emax cb
    k.attempt cb vs 2 (max (-127) (min 127 e))

/-! ## An exact sum added to memory (R81) -/

/-- The new value of a location under R81: `n` contributions, the sticky bits and the sum in units of 2^-149. -/
def flushValue (f : Fmt) (old : Nat) (n : Nat) (nan pinf ninf : Bool) (sum : Int) : Nat :=
  let o : Rnd := { f := f, mode := 1, sat := false, fo := false }
  let v := f.decode old
  if 2 ^ 40 < n then f.nan
  else if nan || (pinf && ninf) || v.isNan then f.nan
  else if pinf || ninf then
    (match v with
     | .inf m => if m = ninf then f.sign ninf + f.infBits else f.nan
     | _ => f.sign ninf + f.infBits)
  else match v with
    | .inf _ => old
    | v => (o.ofInt (v.int + sum) (-149) (v.neg && decide (sum = 0))).bits

end Sys2Proof.Machine
end

