-- ==== Sys2Proof/Config.lean ====
section
/-!
DEFINITION. Config: what an implementation fixes and the values the spec leaves open. Every opaque constant is a free
value: nothing can be proved about what it answers.
-/

namespace Sys2Proof.Config

/-- A word the spec leaves open, a fresh one for every count. -/
opaque freeWord : Nat → Word

/-- Race-clock counts that pass in one step (R4, R282). -/
opaque clockStep : Nat → Nat

/-- Whether a load served in L1 finds its older copy of the line still there (R87). -/
opaque keepLine : Nat → Bool

/-- How many writes back, among those of a sector that are not mx-ready, a matrix instruction's read of the sector stands, modulo their number
and one (R97): team and order of the instruction, and the sector. -/
opaque mxOld : Nat → Nat → Nat → Nat → Nat → Nat

/-- Chunks that one 512-byte block takes when stored (R305, R306): the number is one of 1 to 8. -/
opaque chunkCount : List Byte → Nat

/-- The key digest in the ROM of die 0 (R391). -/
opaque keyDigest : List Byte

/-- A-values a latch filled from memory is written with in a frame, in the device's own encoding (R414). -/
opaque latchCode : List Word → Nat → Byte

/-- A-values that engine replay reads from such a store (R432). -/
opaque latchRead : List Byte → List Word

/-- Whether a destination byte of a copy that ended with FAULT is new (R257). -/
opaque copiedByte : Nat → Bool

/-- What the arena holds of an accepted primitive (R316): its encoding is not architectural. -/
opaque arenaCode : List Nat → Nat → Byte

/-- Whether a sample of a transcendental function whose enclosure did not separate rounds up (R202). -/
opaque roundUp : Nat → Bool

/-- A counter of the splits that counts time or traffic: die, record offset, and how far its unit has run (R453). -/
opaque splitsCounter : Nat → Nat → Nat → DWord

/-- The current limit of a die as a budget in W, which the spec gives in A at the core rail (R455, R456). -/
opaque dieLimit : Nat → Nat

/-- Budgets that the arbiter chooses for the dies, and the device power that it measures, in its n-th update (R455). -/
opaque arbiter : Nat → List Nat × Nat

/-- The form's power limit in W (R456); forms 0 AV9-D, 1 AV9-P, 2 AV9-M. -/
def formLimit : Nat → Nat
  | 0 => 380
  | 1 => 2800
  | _ => 3000

end Sys2Proof.Config
end

