-- ==== Sys2Proof/Syntax.lean ====
section
/-!
DEFINITION. Syntax: the instructions and the steps of the machine, one constructor for each row of the opcode table.
An instruction carries the raw fields of its words, every bit of them that its row does not fix (R114 to R121); a step
of another agent, which has no encoding, carries what it acts on (95_what_each_step_holds.md).
-/

namespace Sys2Proof

/-- The operand fields of a one-word register-form instruction (R114). -/
structure ShortOps where
  /-- W0[23:16]: destination operand field. -/
  d : BitVec 8
  /-- W0[15:8]: first source operand field. -/
  a : BitVec 8
  /-- W0[7:0]: second source operand field. -/
  b : BitVec 8
  deriving DecidableEq, Repr

/-- The operand fields of a two-word register-form instruction (R114, R115). -/
structure LongOps where
  /-- W0[23:16]. -/
  d : BitVec 8
  /-- W0[15:8]. -/
  a : BitVec 8
  /-- W0[7:0]. -/
  b : BitVec 8
  /-- W1[31:24]: third source operand field. -/
  c : BitVec 8
  /-- W1[23:19]: guard, 31 = always. -/
  g : BitVec 5
  /-- W1[18]: the guard is negated. -/
  gn : Bool
  /-- W1[17]: D is indirect. -/
  id : Bool
  /-- W1[16]: A is indirect. -/
  ia : Bool
  /-- W1[15]: B is indirect. -/
  ib : Bool
  /-- W1[14]: C is indirect. -/
  ic : Bool
  /-- W1[13]: flush subnormal inputs. -/
  fi : Bool
  /-- W1[12]: flush subnormal results. -/
  fo : Bool
  /-- W1[11:8]: type code. -/
  t : BitVec 4
  /-- W1[7:0]: extension of the OP. -/
  x : BitVec 8
  deriving DecidableEq, Repr

/-- The fields of format S but for its sub-op (R119). -/
structure SOps where
  sd : BitVec 5
  sa : BitVec 5
  sb : BitVec 5
  imm : BitVec 4
  deriving DecidableEq, Repr

/-- The fields of SLD and SST (R119, R173). -/
structure MemSOps where
  sd : BitVec 5
  sa : BitVec 5
  sb : BitVec 5
  scope : BitVec 3
  ord : Bool
  size : Bool
  imm : BitVec 4
  deriving DecidableEq, Repr

/-- Where an error of the protection codes stands (R447): the structure and its place. -/
inductive EccSite where
  /-- A 128-byte line of a core's L1. -/
  | l1 (core line : Nat)
  /-- The 64 bits at a scratchpad offset of a block. -/
  | scratch (core block off : Nat)
  /-- The 64 bits at a tile-memory offset of a block. -/
  | tile (core block off : Nat)
  /-- An element of a FIFO bank of a block. -/
  | fifo (core block bank pos : Nat)
  /-- An element of a vector register in the register cache. -/
  | vreg (core team reg lane : Nat)
  /-- A predicate of one lane in the register cache. -/
  | pred (core team reg lane : Nat)
  /-- A scalar register in the register cache. -/
  | sreg (core team reg : Nat)
  /-- A context-image header line or a thread record in the register cache. -/
  | header (core team : Nat)
  /-- A row of an accumulator tile of a block. -/
  | accum (core block tile row : Nat)
  /-- A line of the die cache. -/
  | dieCache (line : Nat)
  /-- A line of HBM4E memory. -/
  | hbm (line : Nat)
  /-- A line of the capacity tier. -/
  | capacity (line : Nat)
  deriving DecidableEq, Repr

/-- What a power state belongs to (R454). -/
inductive PowerUnit where
  | core (die core : Nat)
  | die (die : Nat)
  | device
  deriving DecidableEq, Repr

/-- The instructions and steps, one constructor for each row of spec/opcode_table.json. -/
inductive Instr where
  /-- NOP (R154). Short no-operation; changes no state. -/
  | nop (z : BitVec 24)
  /-- NOP_LONG (R154). Two-word no-operation whose second word must be zero. -/
  | nopLong (z : BitVec 24) (w1 : Word)
  /-- BRA (R150). Unconditional branch relative to the clause header with a 24-bit offset. -/
  | bra (off : BitVec 24)
  /-- BRA_LONG (R150). Unconditional branch with a 32-bit offset in W1. -/
  | braLong (z : BitVec 24) (w1 : Word)
  /-- BRC (R150). Per-lane branch on a predicate, optionally negated, with an 18-bit offset. -/
  | brc (p : BitVec 5) (neg : Bool) (off : BitVec 18)
  /-- BRC_LONG (R150). Predicate branch with a 32-bit offset in W1. -/
  | brcLong (p : BitVec 5) (neg : Bool) (z : BitVec 18) (w1 : Word)
  /-- BRS (R151). Branch of the whole team on a condition of a scalar register, 16-bit offset. -/
  | brs (sr : BitVec 5) (cc : BitVec 3) (off : BitVec 16)
  /-- BRS_LONG (R151). Scalar-condition branch with a 32-bit offset in W1. -/
  | brsLong (sr : BitVec 5) (cc : BitVec 3) (z : BitVec 16) (w1 : Word)
  /-- CALL (R150). Branch that writes the next clause address to v254:v255. -/
  | call (off : BitVec 24)
  /-- CALL_LONG (R150). CALL with a 32-bit offset in W1. -/
  | callLong (z : BitVec 24) (w1 : Word)
  /-- RET (R152). Return to the per-lane 64-bit target in a register pair. -/
  | ret (o : ShortOps)
  /-- RET_LONG (R152). Long form of RET with guard and indirection. -/
  | retLong (o : LongOps)
  /-- JMPI (R152). Indirect jump to a per-lane 64-bit target. -/
  | jmpi (o : ShortOps)
  /-- JMPI_LONG (R152). Long form of JMPI with guard and indirection. -/
  | jmpiLong (o : LongOps)
  /-- EXIT (R153). Executing lanes exit; their thread records are marked EXITED. -/
  | exit (o : ShortOps)
  /-- EXIT_LONG (R153). Guarded long form of EXIT. -/
  | exitLong (o : LongOps)
  /-- TRAP (R155). Raises software trap with a 16-bit code when any lane executes. -/
  | trap (o : ShortOps)
  /-- TRAP_LONG (R155). Guarded long form of TRAP. -/
  | trapLong (o : LongOps)
  /-- BRK (R155). Raises breakpoint with a 16-bit code when any lane executes. -/
  | brk (o : ShortOps)
  /-- BRK_LONG (R155). Guarded long form of BRK. -/
  | brkLong (o : LongOps)
  /-- YIELD (R154). Places the team behind other ready teams of its class for the next selection. -/
  | yield (o : ShortOps)
  /-- YIELD_LONG (R154). Guarded long form of YIELD. -/
  | yieldLong (o : LongOps)
  /-- JOIN (R156). ORs the executing lanes into a mask register. -/
  | join (o : ShortOps)
  /-- JOIN_LONG (R156). Guarded long form of JOIN. -/
  | joinLong (o : LongOps)
  /-- LEAVE (R156). Removes the executing lanes from a mask register and re-evaluates waits on it. -/
  | leave (o : ShortOps)
  /-- LEAVE_LONG (R156). Guarded long form of LEAVE. -/
  | leaveLong (o : LongOps)
  /-- WAITM (R157). Holds masked lanes until every named non-exited lane waits here, then releases them together. -/
  | waitm (o : ShortOps)
  /-- WAITM_LONG (R157). Guarded long form of WAITM. -/
  | waitmLong (o : LongOps)
  /-- MSET_G (R156). Sets a mask register to the executing lanes. -/
  | msetG (o : ShortOps)
  /-- MSET_G_LONG (R156). Guarded long form of MSET.g. -/
  | msetGLong (o : LongOps)
  /-- MSET_S (R156). Loads a mask register from a scalar pair. -/
  | msetS (o : LongOps)
  /-- MSET_Z (R156). Clears a mask register. -/
  | msetZ (o : LongOps)
  /-- MGET_S (R156). Copies a mask register into a scalar pair. -/
  | mgetS (o : ShortOps)
  /-- MGET_S_LONG (R156). Guarded long form of MGET.s. -/
  | mgetSLong (o : LongOps)
  /-- MGET_V (R156). Writes each executing lane's mask bit into a vector register. -/
  | mgetV (o : LongOps)
  /-- CENSUS (R159). Summarises a predicate over the executing lanes (every mode in short form). -/
  | census (o : ShortOps)
  /-- CENSUS_LONG (R159). Long form of CENSUS selecting every, some, same, mask, lead or odd with optional negation. -/
  | censusLong (o : LongOps)
  /-- MATCH (R160). Gives each executing lane the mask of lanes holding the same raw value. -/
  | matchV (o : ShortOps)
  /-- MATCH_LONG (R160). Guarded long form of MATCH. -/
  | matchVLong (o : LongOps)
  /-- PEEK (R161). Reads another lane's register within a span (at mode in short form). -/
  | peek (o : ShortOps)
  /-- PEEK_LONG (R161). Long form of PEEK with mode, immediate and span. -/
  | peekLong (o : LongOps)
  /-- LANE (R162). Writes a lane identifier (rank in short form). -/
  | lane (o : ShortOps)
  /-- LANE_LONG (R162). Long form of LANE with any selector. -/
  | laneLong (o : LongOps)
  /-- PSET (R163). Writes a predicate from a register (nz form in short). -/
  | pset (o : ShortOps)
  /-- PSET_LONG (R163). Long form of PSET with nz, constant, bit or mask forms. -/
  | psetLong (o : LongOps)
  /-- PLOP (R164). Predicate logic through an 8-bit truth table (table 0 in short form). -/
  | plop (o : ShortOps)
  /-- PLOP_LONG (R164). Long form of PLOP with third source and truth table. -/
  | plopLong (o : LongOps)
  /-- XSET (R176). Sets all fields of an index register from a vector register. -/
  | xset (o : ShortOps)
  /-- XSET_LONG (R176). Long form of XSET selecting a field and optional immediate. -/
  | xsetLong (o : LongOps)
  /-- XGET (R176). Reads an index register into a vector register. -/
  | xget (o : ShortOps)
  /-- XGET_LONG (R176). Long form of XGET selecting a field. -/
  | xgetLong (o : LongOps)
  /-- XADD (R176). Adds a register value to an index register's INDEX with wrap or mod 256. -/
  | xadd (o : ShortOps)
  /-- XADD_LONG (R176). Long form of XADD with guard or signed immediate. -/
  | xaddLong (o : LongOps)
  /-- SADD (R167). Scalar add of a register or 4-bit immediate. -/
  | sadd (o : SOps)
  /-- SADD_LONG (R167). Scalar add with a 32-bit immediate. -/
  | saddLong (o : SOps) (w1 : Word)
  /-- SSUB (R167). Scalar subtract. -/
  | ssub (o : SOps)
  /-- SSUB_LONG (R167). Scalar subtract with a 32-bit immediate. -/
  | ssubLong (o : SOps) (w1 : Word)
  /-- SMUL (R167). Scalar multiply, low 32 bits. -/
  | smul (o : SOps)
  /-- SMUL_LONG (R167). Scalar multiply with a 32-bit immediate. -/
  | smulLong (o : SOps) (w1 : Word)
  /-- SAND (R167). Scalar bitwise AND. -/
  | sand (o : SOps)
  /-- SAND_LONG (R167). Scalar AND with a 32-bit immediate. -/
  | sandLong (o : SOps) (w1 : Word)
  /-- SOR (R167). Scalar bitwise OR. -/
  | sor (o : SOps)
  /-- SOR_LONG (R167). Scalar OR with a 32-bit immediate. -/
  | sorLong (o : SOps) (w1 : Word)
  /-- SXOR (R167). Scalar bitwise XOR. -/
  | sxor (o : SOps)
  /-- SXOR_LONG (R167). Scalar XOR with a 32-bit immediate. -/
  | sxorLong (o : SOps) (w1 : Word)
  /-- SSHL (R167). Scalar shift left. -/
  | sshl (o : SOps)
  /-- SSHL_LONG (R167). Scalar shift left by a 32-bit immediate. -/
  | sshlLong (o : SOps) (w1 : Word)
  /-- SSHR (R167). Scalar logical shift right. -/
  | sshr (o : SOps)
  /-- SSHR_LONG (R167). Scalar logical shift right by a 32-bit immediate. -/
  | sshrLong (o : SOps) (w1 : Word)
  /-- SSAR (R167). Scalar arithmetic shift right. -/
  | ssar (o : SOps)
  /-- SSAR_LONG (R167). Scalar arithmetic shift right by a 32-bit immediate. -/
  | ssarLong (o : SOps) (w1 : Word)
  /-- SMIN (R167). Scalar signed minimum. -/
  | smin (o : SOps)
  /-- SMIN_LONG (R167). Scalar minimum with a 32-bit immediate. -/
  | sminLong (o : SOps) (w1 : Word)
  /-- SMAX (R167). Scalar signed maximum. -/
  | smax (o : SOps)
  /-- SMAX_LONG (R167). Scalar maximum with a 32-bit immediate. -/
  | smaxLong (o : SOps) (w1 : Word)
  /-- SMOV (R167). Scalar register move. -/
  | smov (o : SOps)
  /-- SCMP (R168). Scalar compare writing 1 or 0 under a signed or unsigned condition. -/
  | scmp (o : SOps)
  /-- SSEL (R168). Scalar select on a condition of the old destination value. -/
  | ssel (o : SOps)
  /-- SMOVI (R170). Writes a sign-extended 16-bit constant to a scalar register. -/
  | smovi (sd : BitVec 5) (z : BitVec 3) (imm : BitVec 16)
  /-- SMOVI_LONG (R170). Writes a 32-bit constant from W1 to a scalar register. -/
  | smoviLong (sd : BitVec 5) (z : BitVec 19) (w1 : Word)
  /-- SLD (R174). Scalar load of 32 or 64 bits by the team's lowest non-exited thread. -/
  | sld (o : MemSOps)
  /-- SLD_LONG (R174). Scalar load with a signed 32-bit offset. -/
  | sldLong (o : MemSOps) (w1 : Word)
  /-- SST (R174). Scalar store of 32 or 64 bits. -/
  | sst (o : MemSOps)
  /-- SST_LONG (R174). Scalar store with a signed 32-bit offset. -/
  | sstLong (o : MemSOps) (w1 : Word)
  /-- SSYS (R171). Reads a system value such as ids, extents or the race clock into a scalar register. -/
  | ssys (sd sa sb sel : BitVec 5) (z : BitVec 4)
  /-- PFX (R122). Prefix giving rounding override and saturation to the next instruction. -/
  | pfx (rnd : BitVec 3) (sat : Bool) (z : BitVec 20)
  /-- IADD (R184). Integer add with wrap or saturation. -/
  | iadd (o : ShortOps)
  /-- IADD_LONG (R183). Long IADD with type, immediate, carry-in and carry-out. -/
  | iaddLong (o : LongOps)
  /-- ISUB (R184). Integer subtract. -/
  | isub (o : ShortOps)
  /-- ISUB_LONG (R183). Long ISUB with type, immediate and borrow. -/
  | isubLong (o : LongOps)
  /-- IMUL (R184). Integer multiply, low bits. -/
  | imul (o : ShortOps)
  /-- IMUL_LONG (R184). Long form of IMUL. -/
  | imulLong (o : LongOps)
  /-- IMULH (R184). High 32 bits of a 64-bit product. -/
  | imulh (o : ShortOps)
  /-- IMULH_LONG (R184). Long form of IMULH. -/
  | imulhLong (o : LongOps)
  /-- IMAD (R184). Integer multiply-add. -/
  | imad (o : ShortOps)
  /-- IMAD_LONG (R184). Long form of IMAD with the addend register. -/
  | imadLong (o : LongOps)
  /-- IMIN (R184). Integer minimum. -/
  | imin (o : ShortOps)
  /-- IMIN_LONG (R184). Long form of IMIN. -/
  | iminLong (o : LongOps)
  /-- IMAX (R184). Integer maximum. -/
  | imax (o : ShortOps)
  /-- IMAX_LONG (R184). Long form of IMAX. -/
  | imaxLong (o : LongOps)
  /-- IABS (R184). Integer absolute value. -/
  | iabs (o : ShortOps)
  /-- IABS_LONG (R184). Long form of IABS. -/
  | iabsLong (o : LongOps)
  /-- AND (R185). Bitwise AND. -/
  | and (o : ShortOps)
  /-- AND_LONG (R185). Long form of AND. -/
  | andLong (o : LongOps)
  /-- OR (R185). Bitwise OR. -/
  | or (o : ShortOps)
  /-- OR_LONG (R185). Long form of OR. -/
  | orLong (o : LongOps)
  /-- XOR (R185). Bitwise XOR. -/
  | xor (o : ShortOps)
  /-- XOR_LONG (R185). Long form of XOR. -/
  | xorLong (o : LongOps)
  /-- SHL (R185). Shift left. -/
  | shl (o : ShortOps)
  /-- SHL_LONG (R185). Long form of SHL. -/
  | shlLong (o : LongOps)
  /-- SHR (R185). Logical shift right. -/
  | shr (o : ShortOps)
  /-- SHR_LONG (R185). Long form of SHR. -/
  | shrLong (o : LongOps)
  /-- SAR (R185). Arithmetic shift right. -/
  | sar (o : ShortOps)
  /-- SAR_LONG (R185). Long form of SAR. -/
  | sarLong (o : LongOps)
  /-- POPC (R185). Population count. -/
  | popc (o : ShortOps)
  /-- POPC_LONG (R185). Long form of POPC. -/
  | popcLong (o : LongOps)
  /-- CLZ (R185). Count leading zeros. -/
  | clz (o : ShortOps)
  /-- CLZ_LONG (R185). Long form of CLZ. -/
  | clzLong (o : LongOps)
  /-- BFE (R186). Bit-field extract with sign or zero extension. -/
  | bfe (o : ShortOps)
  /-- BFE_LONG (R186). Long BFE with type or immediate position and length. -/
  | bfeLong (o : LongOps)
  /-- BFI (R186). Bit-field insert. -/
  | bfi (o : ShortOps)
  /-- BFI_LONG (R186). Long form of BFI. -/
  | bfiLong (o : LongOps)
  /-- BMIX (R187). Byte permute with copy, zero, sign or ones fill. -/
  | bmix (o : ShortOps)
  /-- BMIX_LONG (R187). Long form of BMIX. -/
  | bmixLong (o : LongOps)
  /-- SEL (R188). Selects between two registers on predicate p0. -/
  | sel (o : ShortOps)
  /-- SEL_LONG (R188). SEL on any predicate. -/
  | selLong (o : LongOps)
  /-- MOV (R188). Copies a vector register with its poison. -/
  | mov (o : ShortOps)
  /-- MOV_LONG (R188). Guarded or indirect MOV. -/
  | movLong (o : LongOps)
  /-- MOV_S (R188). Broadcasts a scalar register into a vector register. -/
  | movS (o : LongOps)
  /-- MOVI (R188). Writes a sign-extended 16-bit constant to every lane of the group. -/
  | movi (d : BitVec 8) (imm : BitVec 16)
  /-- MOVI_LONG (R188). Writes a 32-bit constant from W1. -/
  | moviLong (d : BitVec 8) (z : BitVec 16) (w1 : Word)
  /-- CMP (R189). Compares and writes a predicate (eq on i32 in short form). -/
  | cmp (o : ShortOps)
  /-- CMP_LONG (R189). CMP with condition, type and immediate; float NaN may signal NV. -/
  | cmpLong (o : LongOps)
  /-- DOT4 (R190). Four-byte dot product plus addend in one step. -/
  | dot4 (o : ShortOps)
  /-- DOT4_LONG (R190). Long form of DOT4 with type and FP8 controls. -/
  | dot4Long (o : LongOps)
  /-- LEA (R191). 64-bit base plus scaled index. -/
  | lea (o : ShortOps)
  /-- LEA_LONG (R191). LEA with shift and unsigned index. -/
  | leaLong (o : LongOps)
  /-- IADD3 (R184). Three-operand add modulo 2^32. -/
  | iadd3 (o : ShortOps)
  /-- IADD3_LONG (R184). Long form of IADD3 with the third register. -/
  | iadd3Long (o : LongOps)
  /-- BREV (R185). Bit reverse. -/
  | brev (o : ShortOps)
  /-- BREV_LONG (R185). Long form of BREV. -/
  | brevLong (o : LongOps)
  /-- FADD (R196). Floating add rounded once. -/
  | fadd (o : ShortOps)
  /-- FADD_LONG (R196). Long FADD with type, rounding, saturation, FI and FO. -/
  | faddLong (o : LongOps)
  /-- FSUB (R196). Floating subtract. -/
  | fsub (o : ShortOps)
  /-- FSUB_LONG (R196). Long form of FSUB. -/
  | fsubLong (o : LongOps)
  /-- FMUL (R196). Floating multiply. -/
  | fmul (o : ShortOps)
  /-- FMUL_LONG (R196). Long form of FMUL. -/
  | fmulLong (o : LongOps)
  /-- FFMA (R196). Fused multiply-add rounded once. -/
  | ffma (o : ShortOps)
  /-- FFMA_LONG (R196). Long FFMA with addend register and controls. -/
  | ffmaLong (o : LongOps)
  /-- FMIN (R196). Floating minimum. -/
  | fmin (o : ShortOps)
  /-- FMIN_LONG (R196). Long form of FMIN. -/
  | fminLong (o : LongOps)
  /-- FMAX (R196). Floating maximum. -/
  | fmax (o : ShortOps)
  /-- FMAX_LONG (R196). Long form of FMAX. -/
  | fmaxLong (o : LongOps)
  /-- FCVT (R199). Float-to-float conversion (f32 to f16 in short form). -/
  | fcvt (o : ShortOps)
  /-- FCVT_LONG (R199). FCVT with source and destination types, rounding and saturation. -/
  | fcvtLong (o : LongOps)
  /-- I2F (R199). Integer-to-float conversion. -/
  | i2f (o : ShortOps)
  /-- I2F_LONG (R199). Long form of I2F. -/
  | i2fLong (o : LongOps)
  /-- F2I (R199). Float-to-integer conversion with saturation. -/
  | f2i (o : ShortOps)
  /-- F2I_LONG (R199). Long form of F2I. -/
  | f2iLong (o : LongOps)
  /-- PKADD (R198). Packed half-precision add. -/
  | pkadd (o : ShortOps)
  /-- PKADD_LONG (R198). Long PKADD with half selection. -/
  | pkaddLong (o : LongOps)
  /-- PKMUL (R198). Packed half-precision multiply. -/
  | pkmul (o : ShortOps)
  /-- PKMUL_LONG (R198). Long form of PKMUL. -/
  | pkmulLong (o : LongOps)
  /-- PKFMA (R198). Packed fused multiply-add. -/
  | pkfma (o : ShortOps)
  /-- PKFMA_LONG (R198). Long form of PKFMA. -/
  | pkfmaLong (o : LongOps)
  /-- FCLASS (R200). One-hot classification of a float. -/
  | fclass (o : ShortOps)
  /-- FCLASS_LONG (R200). Long form of FCLASS. -/
  | fclassLong (o : LongOps)
  /-- FSCALE (R196). Multiplies by 2 to an integer power. -/
  | fscale (o : ShortOps)
  /-- FSCALE_LONG (R196). Long form of FSCALE. -/
  | fscaleLong (o : LongOps)
  /-- FRND (R197). Rounds to an integral value. -/
  | frnd (o : ShortOps)
  /-- FRND_LONG (R197). Long FRND with rounding mode. -/
  | frndLong (o : LongOps)
  /-- QNT (R201). Quantises 32 registers into one block (i4x in short form). -/
  | qnt (o : ShortOps)
  /-- QNT_LONG (R201). QNT to i4x, c4 or mx8. -/
  | qntLong (o : LongOps)
  /-- FRCP (R202). Correctly rounded reciprocal. -/
  | frcp (o : ShortOps)
  /-- FRCP_LONG (R202). Long form of FRCP. -/
  | frcpLong (o : LongOps)
  /-- FRSQ (R202). Correctly rounded reciprocal square root. -/
  | frsq (o : ShortOps)
  /-- FRSQ_LONG (R202). Long form of FRSQ. -/
  | frsqLong (o : LongOps)
  /-- FSQRT (R202). Correctly rounded square root. -/
  | fsqrt (o : ShortOps)
  /-- FSQRT_LONG (R202). Long form of FSQRT. -/
  | fsqrtLong (o : LongOps)
  /-- FEXP2 (R202). Correctly rounded 2^a. -/
  | fexp2 (o : ShortOps)
  /-- FEXP2_LONG (R202). Long form of FEXP2. -/
  | fexp2Long (o : LongOps)
  /-- FLOG2 (R202). Correctly rounded log2. -/
  | flog2 (o : ShortOps)
  /-- FLOG2_LONG (R202). Long form of FLOG2. -/
  | flog2Long (o : LongOps)
  /-- FSIN (R202). Correctly rounded sin of 2πa. -/
  | fsin (o : ShortOps)
  /-- FSIN_LONG (R202). Long form of FSIN. -/
  | fsinLong (o : LongOps)
  /-- FCOS (R202). Correctly rounded cos of 2πa. -/
  | fcos (o : ShortOps)
  /-- FCOS_LONG (R202). Long form of FCOS. -/
  | fcosLong (o : LongOps)
  /-- FTANH (R202). Correctly rounded tanh. -/
  | ftanh (o : ShortOps)
  /-- FTANH_LONG (R202). Long form of FTANH. -/
  | ftanhLong (o : LongOps)
  /-- BOXT (R205). Tests a ray against four boxes and orders the hits. -/
  | boxt (o : ShortOps)
  /-- BOXT_LONG (R205). Guarded long form of BOXT. -/
  | boxtLong (o : LongOps)
  /-- TRIT (R206). Exact ray-triangle test. -/
  | trit (o : ShortOps)
  /-- TRIT_LONG (R206). Guarded long form of TRIT. -/
  | tritLong (o : LongOps)
  /-- SEGT (R207). Exact ray-ribbon test. -/
  | segt (o : ShortOps)
  /-- SEGT_LONG (R207). Guarded long form of SEGT. -/
  | segtLong (o : LongOps)
  /-- BIN (R274). Submits one primitive per lane to the LCE for binning. -/
  | bin (o : ShortOps)
  /-- BIN_LONG (R274). BIN with guard and flag selection. -/
  | binLong (o : LongOps)
  /-- TILEQ (R276). Queries tile or fragment information (tile in short form). -/
  | tileq (o : ShortOps)
  /-- TILEQ_LONG (R276). TILEQ with a selector. -/
  | tileqLong (o : LongOps)
  /-- LD (R214). Per-lane global load of a run of elements. -/
  | ld (o : ShortOps)
  /-- LD_LONG (R214). LD with immediate, scope, acquire, .fmt, .nf or constant space. -/
  | ldLong (o : LongOps)
  /-- ST (R214). Per-lane global store of a run of elements. -/
  | st (o : ShortOps)
  /-- ST_LONG (R214). ST with immediate, scope and release. -/
  | stLong (o : LongOps)
  /-- LDS (R217). Scratchpad load. -/
  | lds (o : ShortOps)
  /-- LDS_LONG (R217). Long LDS with immediate and ordering. -/
  | ldsLong (o : LongOps)
  /-- LDS_Q (R218). Pops elements from a FIFO bank to the executing lanes as one unit. -/
  | ldsQ (o : LongOps)
  /-- STS (R217). Scratchpad store. -/
  | sts (o : ShortOps)
  /-- STS_LONG (R217). Long STS with immediate and ordering. -/
  | stsLong (o : LongOps)
  /-- STS_Q (R218). Pushes the executing lanes' elements onto a FIFO bank as one unit. -/
  | stsQ (o : LongOps)
  /-- LDT (R219). Tile-memory load of a plane at a pixel. -/
  | ldt (o : ShortOps)
  /-- LDT_LONG (R220). LDT with plane, ordering and .ordered wait. -/
  | ldtLong (o : LongOps)
  /-- STT (R219). Tile-memory store of a plane at a pixel. -/
  | stt (o : ShortOps)
  /-- STT_LONG (R220). STT with plane, ordering and .ordered wait. -/
  | sttLong (o : LongOps)
  /-- ATOM_ADD (R221). Atomic add returning the old value. -/
  | atomAdd (o : ShortOps)
  /-- ATOM_ADD_LONG (R221). Long ATOM.add with data register, type, order and scope. -/
  | atomAddLong (o : LongOps)
  /-- ATOM_MIN (R221). Atomic minimum. -/
  | atomMin (o : ShortOps)
  /-- ATOM_MIN_LONG (R221). Long form of ATOM.min. -/
  | atomMinLong (o : LongOps)
  /-- ATOM_MAX (R221). Atomic maximum. -/
  | atomMax (o : ShortOps)
  /-- ATOM_MAX_LONG (R221). Long form of ATOM.max. -/
  | atomMaxLong (o : LongOps)
  /-- ATOM_AND (R221). Atomic AND. -/
  | atomAnd (o : ShortOps)
  /-- ATOM_AND_LONG (R221). Long form of ATOM.and. -/
  | atomAndLong (o : LongOps)
  /-- ATOM_OR (R221). Atomic OR. -/
  | atomOr (o : ShortOps)
  /-- ATOM_OR_LONG (R221). Long form of ATOM.or. -/
  | atomOrLong (o : LongOps)
  /-- ATOM_XOR (R221). Atomic XOR. -/
  | atomXor (o : ShortOps)
  /-- ATOM_XOR_LONG (R221). Long form of ATOM.xor. -/
  | atomXorLong (o : LongOps)
  /-- ATOM_EXCH (R221). Atomic exchange. -/
  | atomExch (o : ShortOps)
  /-- ATOM_EXCH_LONG (R221). Long form of ATOM.exch. -/
  | atomExchLong (o : LongOps)
  /-- ATOM_INC (R221). Atomic wrapping increment. -/
  | atomInc (o : ShortOps)
  /-- ATOM_INC_LONG (R221). Long form of ATOM.inc. -/
  | atomIncLong (o : LongOps)
  /-- RED_ADD (R224). Reduction add with no result. -/
  | redAdd (o : ShortOps)
  /-- RED_ADD_LONG (R224). Long form of RED.add. -/
  | redAddLong (o : LongOps)
  /-- RED_MIN (R224). Reduction minimum. -/
  | redMin (o : ShortOps)
  /-- RED_MIN_LONG (R224). Long form of RED.min. -/
  | redMinLong (o : LongOps)
  /-- RED_MAX (R224). Reduction maximum. -/
  | redMax (o : ShortOps)
  /-- RED_MAX_LONG (R224). Long form of RED.max. -/
  | redMaxLong (o : LongOps)
  /-- RED_AND (R224). Reduction AND. -/
  | redAnd (o : ShortOps)
  /-- RED_AND_LONG (R224). Long form of RED.and. -/
  | redAndLong (o : LongOps)
  /-- RED_OR (R224). Reduction OR. -/
  | redOr (o : ShortOps)
  /-- RED_OR_LONG (R224). Long form of RED.or. -/
  | redOrLong (o : LongOps)
  /-- RED_XOR (R224). Reduction XOR. -/
  | redXor (o : ShortOps)
  /-- RED_XOR_LONG (R224). Long form of RED.xor. -/
  | redXorLong (o : LongOps)
  /-- RED_DET (R80). Adds exact deterministic contributions to fixed-point accumulators. -/
  | redDet (o : LongOps)
  /-- CAS (R223). Compare-and-swap on raw bits returning the old value. -/
  | cas (o : ShortOps)
  /-- CAS_LONG (R223). Long CAS with compare/new pair, order and scope. -/
  | casLong (o : LongOps)
  /-- FENCE_MX (R91). Split-phase fence whose flag clears when earlier writes are mx-ready. -/
  | fenceMx (o : ShortOps)
  /-- FENCE_MX_LONG (R91). Long FENCE.mx with flag selection. -/
  | fenceMxLong (o : LongOps)
  /-- FENCE_ACQ (R91). Acquire fence at a scope, ordering through its wait point. -/
  | fenceAcq (o : LongOps)
  /-- FENCE_REL (R91). Release fence at a scope. -/
  | fenceRel (o : LongOps)
  /-- FENCE_AR (R91). Acquire-release fence at a scope. -/
  | fenceAr (o : LongOps)
  /-- BAR_SYNC (R228). Arrives at a barrier object and waits for its phase to complete. -/
  | barSync (o : ShortOps)
  /-- BAR_SYNC_LONG (R228). Long BAR.sync with .mx and flag selection. -/
  | barSyncLong (o : LongOps)
  /-- BAR_ARRIVE (R228). Arrives at a barrier object without waiting. -/
  | barArrive (o : LongOps)
  /-- BAR_WAIT (R228). Waits for the current phase of a barrier object. -/
  | barWait (o : LongOps)
  /-- CPS (R229). Copies global bytes per lane into scratchpad, counted on a barrier object. -/
  | cps (o : ShortOps)
  /-- CPS_LONG (R229). Long CPS naming a barrier and read scope. -/
  | cpsLong (o : LongOps)
  /-- PREF_L1 (R230). Prefetches lines into the core's L1. -/
  | prefL1 (o : ShortOps)
  /-- PREF_L1_LONG (R230). Long form of PREF.l1. -/
  | prefL1Long (o : LongOps)
  /-- PREF_DC (R230). Prefetches lines into the die cache. -/
  | prefDc (o : LongOps)
  /-- CCTL_WB (R231). Writes back dirty L1 lines of each lane's address. -/
  | cctlWb (o : ShortOps)
  /-- CCTL_WB_LONG (R231). Long form of CCTL.wb. -/
  | cctlWbLong (o : LongOps)
  /-- CCTL_INV (R231). Writes back and invalidates L1 lines. -/
  | cctlInv (o : LongOps)
  /-- CCTL_INVALL (R231). Writes back and invalidates every L1 line of the core. -/
  | cctlInvall (o : LongOps)
  /-- SIG_SET (R232). Atomically sets a signal and re-evaluates waiters. -/
  | sigSet (o : ShortOps)
  /-- SIG_SET_LONG (R232). Long SIG.set with data pair and .irq. -/
  | sigSetLong (o : LongOps)
  /-- SIG_ADD (R232). Atomically adds to a signal. -/
  | sigAdd (o : LongOps)
  /-- SIG_SUB (R232). Atomically subtracts from a signal. -/
  | sigSub (o : LongOps)
  /-- RFLUSH (R233). Flushes pending RED.det accumulators at lane addresses. -/
  | rflush (o : ShortOps)
  /-- RFLUSH_LONG (R233). Long form of RFLUSH. -/
  | rflushLong (o : LongOps)
  /-- RFLUSH_ALL (R233). Flushes every pending accumulator of the process. -/
  | rflushAll (o : LongOps)
  /-- MXA (R241). Adds ±A×B into a region of an accumulator tile in fixed slice order. -/
  | mxa (o : ShortOps)
  /-- MXA_LONG (R241). MXA with shape, K, negation and reuse. -/
  | mxaLong (o : LongOps)
  /-- MXZ (R244). Zeroes an accumulator tile. -/
  | mxz (o : ShortOps)
  /-- MXZ_LONG (R244). Long form of MXZ. -/
  | mxzLong (o : LongOps)
  /-- MXLD (R244). Loads a tile region from an operand map. -/
  | mxld (o : ShortOps)
  /-- MXLD_LONG (R244). MXLD with type and shape. -/
  | mxldLong (o : LongOps)
  /-- MXST (R245). Stores a converted tile region to an operand map. -/
  | mxst (o : ShortOps)
  /-- MXST_LONG (R245). MXST with type, shape and E5M2. -/
  | mxstLong (o : LongOps)
  /-- MXRD (R244). Reads accumulator elements into vector registers. -/
  | mxrd (o : ShortOps)
  /-- MXRD_LONG (R244). MXRD with column and count. -/
  | mxrdLong (o : LongOps)
  /-- MXWR (R244). Writes vector registers into accumulator elements. -/
  | mxwr (o : ShortOps)
  /-- MXWR_LONG (R244). MXWR with column and count. -/
  | mxwrLong (o : LongOps)
  /-- MXAL_ALLOC (R235). Adds zeroed accumulator tiles to the block. -/
  | mxalAlloc (o : ShortOps)
  /-- MXAL_ALLOC_LONG (R235). Long form of MXAL.alloc. -/
  | mxalAllocLong (o : LongOps)
  /-- MXAL_FREE (R235). Releases the block's highest accumulator tiles. -/
  | mxalFree (o : LongOps)
  /-- MXEP (R246). Applies scale, bias, activation and conversion to a tile in place. -/
  | mxep (o : ShortOps)
  /-- MXEP_LONG (R246). MXEP with scale, bias, activation and conversion fields. -/
  | mxepLong (o : LongOps)
  /-- CPY_L (R260). Submits a linear memmove copy on a tag. -/
  | cpyL (o : ShortOps)
  /-- CPY_L_LONG (R260). Long CPY.l with spaces, length register and flag selection. -/
  | cpyLLong (o : LongOps)
  /-- CPY_T (R265). Submits a strided tensor copy from a descriptor. -/
  | cpyT (o : LongOps)
  /-- CPY_X (R265). Submits a converting, quantising or expanding tensor copy. -/
  | cpyX (o : LongOps)
  /-- CPYJ (R267). Submits a job card to the die's decompression engine. -/
  | cpyj (o : ShortOps)
  /-- CPYJ_LONG (R267). Long CPYJ with flag selection. -/
  | cpyjLong (o : LongOps)
  /-- TWAIT_ALL (R270). Holds until every named tag is done; reports non-OK tags. -/
  | twaitAll (o : ShortOps)
  /-- TWAIT_ALL_LONG (R270). Long form of TWAIT.all. -/
  | twaitAllLong (o : LongOps)
  /-- TWAIT_ANY (R270). Holds until any named tag is done. -/
  | twaitAny (o : LongOps)
  /-- TWAIT_FIND (R270). Holds until any named tag is done and reports the lowest with its status. -/
  | twaitFind (o : LongOps)
  /-- LNCH (R272). Launches a child grid from a launch record. -/
  | lnch (o : ShortOps)
  /-- LNCH_LONG (R272). LNCH with flag selection. -/
  | lnchLong (o : LongOps)
  /-- CSR_RD (R278). Reads a CSR into scalar registers. -/
  | csrRd (o : ShortOps)
  /-- CSR_RD_LONG (R278). CSR.rd with high number byte and .b64. -/
  | csrRdLong (o : LongOps)
  /-- CSR_WR (R278). Writes a CSR and returns the old value. -/
  | csrWr (o : LongOps)
  /-- CSR_SET (R278). ORs bits into a CSR. -/
  | csrSet (o : LongOps)
  /-- CSR_CLR (R278). Clears bits of a CSR. -/
  | csrClr (o : LongOps)
  /-- TRET (R416). Ends the handler: restores flags and lanes, re-injects replay entries, leaves privileged mode. -/
  | tret (o : ShortOps)
  /-- TRET_LONG (R280). Long form of TRET. -/
  | tretLong (o : LongOps)
  /-- RQA_RD (R281). Reads a word of a replay-queue entry. -/
  | rqaRd (o : ShortOps)
  /-- RQA_RD_LONG (R281). Long form of RQA.rd. -/
  | rqaRdLong (o : LongOps)
  /-- RQA_WR (R413). Writes a writable word of a replay-queue entry. -/
  | rqaWr (o : LongOps)
  /-- RQA_DROP (R281). Drops a replay-queue entry, releasing windows and flags. -/
  | rqaDrop (o : LongOps)
  /-- CLAUSE_FETCH (R109). Fetching a clause for an issue group checks header, pad and control placement. -/
  | clauseFetch
  /-- SCHED_READY_256 (R29). A ready group unchosen for 256 cycles is raised within its class. -/
  | schedReady256 (team : Nat) (lanes : Mask)
  /-- SCHED_READY_1024 (R29). A ready group unchosen for 1024 cycles ranks above all but firmware. -/
  | schedReady1024 (team : Nat) (lanes : Mask)
  /-- JOIN_HINT_EXPIRE (R30). The 64-cycle favouring of a J clause's other groups ends. -/
  | joinHintExpire (team : Nat)
  /-- REGISTER_CACHE_FILL (R46). A missing register-cache line arrives and the waiting instruction proceeds. -/
  | registerCacheFill (team reg : Nat)
  /-- LOAD_COMPLETE (R211). A load's values return, write registers and decrement its flags. -/
  | loadComplete (team entry : Nat)
  /-- STORE_PERFORMED (R92). A store is performed at its point and its flags decrement. -/
  | storePerformed (team entry : Nat)
  /-- ATOMIC_PERFORMED (R221). An atomic or reduction lane is performed and its value returns. -/
  | atomicPerformed (team entry : Nat)
  /-- WRITE_VISIBLE (R87). A write performed at a narrow point becomes visible at a wider point. -/
  | writeVisible (die : Nat) (core : Option Nat) (line : Nat)
  /-- PROTECTION_REFUSAL (R213). A refused write-side access is logged and raises an imprecise protection trap. -/
  | protectionRefusal (team entry : Nat)
  /-- PAGE_WALK (R399). A TLB miss walks the five-level tables to translate, fault or refuse. -/
  | pageWalk (die core proc : Nat) (va : DWord)
  /-- FAULT_RESOLVE_RETRY (R402). Waiting accesses of a process walk again. -/
  | faultResolveRetry (die proc : Nat)
  /-- FAULT_RESOLVE_REFUSE (R402). Waiting accesses of a process are refused with cause 10. -/
  | faultResolveRefuse (die proc : Nat)
  /-- FAULT_RESOLVE_RETRY_ALL (R402). Waiting accesses of every process walk again. -/
  | faultResolveRetryAll (die : Nat)
  /-- FAULT_RING_CONFIG (R402). Writing FAULT_BASE or FAULT_CTL enables the ring and flushes waiting records. -/
  | faultRingConfig (die : Nat) (base : DWord) (ctl : Word)
  /-- TLB_INV_PROC (R403). Requests invalidation of every translation of a process. -/
  | tlbInvProc (die proc : Nat)
  /-- TLB_INV_RANGE (R403). Requests invalidation of an aligned virtual range of a process. -/
  | tlbInvRange (die proc log2 : Nat)
  /-- TLB_INV_ALL (R403). Requests invalidation of every translation of every process. -/
  | tlbInvAll (die : Nat)
  /-- TLB_INV_COMPLETE (R403). An invalidation request completes and DONE advances. -/
  | tlbInvComplete (die : Nat)
  /-- COMPRESSED_WRITE_MERGE (R306). The home controller merges, recompresses and stores a compressed block. -/
  | compressedWriteMerge (die ctl : Nat)
  /-- CHUNK_GRANT (R406). Granting a page adds 1024 chunks to a controller. -/
  | chunkGrant (die ctl page : Nat)
  /-- CHUNK_TIMEOUT (R407). STALL lasts CMP_TIMEOUT and stalled processes are contained. -/
  | chunkTimeout (die ctl : Nat)
  /-- RSPILL_EXTEND (R407). A larger RSPILL_SIZE extends the spill area and stalled reductions proceed. -/
  | rspillExtend (die size : Nat)
  /-- SPILL_TIMEOUT (R407). A stalled RED.det not accepted within CMP_TIMEOUT contains its process. -/
  | spillTimeout (team entry : Nat)
  /-- CPS_WRITE_PERFORMED (R229). A CPS's scratchpad writes are performed and its pending count falls. -/
  | cpsWritePerformed (team entry : Nat)
  /-- FIFO_OP_PERFORMED (R218). A waiting FIFO push or pop is performed when room or elements arrive. -/
  | fifoOpPerformed (team entry : Nat)
  /-- COPY_ACCEPTED (R258). The receiving unit accepts a submission and its flags decrement. -/
  | copyAccepted (team entry : Nat)
  /-- COPY_DONE (R258). A copy's work ends; status and TAGDONE are set. -/
  | copyDone (job : Nat)
  /-- CPYJ_DONE (R269). Decompression ends; the card gets OUT_LEN and IN_USED and the tag completes. -/
  | cpyjDone (job : Nat)
  /-- TWAIT_COMPLETE (R270). A holding TWAIT's condition holds; it writes its result and acts as an acquire. -/
  | twaitComplete (team entry : Nat)
  /-- MATRIX_COMPLETE (R247). A matrix instruction completes; its baton and busy bit clear. -/
  | matrixComplete (team entry : Nat)
  /-- ACCUM_SLOT_GRANT (R254). A waiting matrix instruction receives a physical tile slot, evicting a victim. -/
  | accumSlotGrant (team entry : Nat)
  /-- BIN_ACCEPTED (R275). The LCE accepts every lane and BIN writes tile counts. -/
  | binAccepted (team entry : Nat)
  /-- PARTIAL_FLUSH (R317). An LCE share fills and a device-wide partial flush renders and spills tiles. -/
  | partialFlush (pass : Nat)
  /-- MARSHAL_DEAL (R318). The marshal deals a segment's tiles to cores in increasing tile number. -/
  | marshalDeal (pass die : Nat)
  /-- VISIBILITY_RESOLVE (R324). The raster unit resolves visibility and blend coverage for a tile segment. -/
  | visibilityResolve (pass tile : Nat)
  /-- FRAGMENT_LAUNCH (R326). Fragment teams are formed and launched in formation order. -/
  | fragmentLaunch (pass tile : Nat)
  /-- TILE_SPILL (R331). After a flush segment the tile state is written to its spill slot. -/
  | tileSpill (pass tile : Nat)
  /-- TILE_KERNEL_LAUNCH (R330). When a tile's fragments retire, its tile kernel launches. -/
  | tileKernelLaunch (pass tile : Nat)
  /-- TILE_RETIRE (R330). A tile retires and frees its allocation; the last completes the pass. -/
  | tileRetire (pass tile : Nat)
  /-- BLOCK_ADMIT (R18). Firmware admits a block once all its resources are free together. -/
  | blockAdmit (die core : Nat)
  /-- BALANCE_TICK (R376). Every 4096 cycles neighbouring cores exchange depths and move entries. -/
  | balanceTick (die : Nat)
  /-- CHILD_ROOM_PREEMPT (R37). Firmware pre-empts the youngest waiting parent unit to admit a child. -/
  | childRoomPreempt (block : Nat)
  /-- TEAM_RETIRE (R20). A team whose threads exited and work completed retires. -/
  | teamRetire (team : Nat)
  /-- POWER_ON_RESET (R393). Boot ROM trains links and memory and reserves firmware memory. -/
  | powerOnReset
  /-- BOOT_GO (R393). Starts DMA of the firmware image into slot A. -/
  | bootGo
  /-- BOOT_IMAGE_LOADED (R391). The loaded image is verified; agents start or boot is refused. -/
  | bootImageLoaded
  /-- DOORBELL_WRITE (R363). A write index declares packets ready and may post a claim entry. -/
  | doorbellWrite (qid : Nat) (v : DWord)
  /-- DOORBELL_STOP (R364). Stops claiming from the queue; STATE becomes STOPPED. -/
  | doorbellStop (qid : Nat)
  /-- DOORBELL_GO (R364). Returns a STOPPED queue to RUN. -/
  | doorbellGo (qid : Nat)
  /-- DOORBELL_RESET (R379). Stops claiming and ends the queue's started work. -/
  | doorbellReset (qid : Nat)
  /-- RESET_DONE (R379). After the reset's writes drain, indices move and STATE becomes RESET_DONE. -/
  | resetDone (qid : Nat)
  /-- CLAIM_ENTRY (R384). An agent's ticket arrival is written and it takes ownership of the queue. -/
  | claimEntry (die core : Nat)
  /-- DEP_REEVALUATE (R367). At least every 100 µs agents re-evaluate DEP, WAIT and BARRIER_AND. -/
  | depReevaluate (qid : Nat)
  /-- PACKET_NOP (R374). Starts and completes at once. -/
  | packetNop (qid : Nat)
  /-- PACKET_KERNEL (R371). Accepts a grid, assigns its launch number and deals its blocks. -/
  | packetKernel (qid : Nat)
  /-- PACKET_MASS (R372). Checks and begins reservation of a gang launch. -/
  | packetMass (qid : Nat)
  /-- MASS_RESERVED (R372). Every die has reserved its share and S is fixed. -/
  | massReserved (qid index : Nat)
  /-- MASS_COMMIT_DEADLINE (R372). At S − 1024 the launch commits or rolls back to S + 2^20. -/
  | massCommitDeadline (qid index : Nat)
  /-- MASS_START (R372). Every team of the gang starts between S and S + 2. -/
  | massStart (qid index : Nat)
  /-- PACKET_RENDER (R373). Accepts a render pass and starts its binning grids. -/
  | packetRender (qid : Nat)
  /-- PACKET_TRANSFORM (R374). A die's copy unit performs a linear, tensor or transforming copy. -/
  | packetTransform (qid : Nat)
  /-- PACKET_SIGNAL (R374). Performs one atomic signal update. -/
  | packetSignal (qid : Nat)
  /-- PACKET_WAIT (R374). Starts when a signal meets its condition. -/
  | packetWait (qid : Nat)
  /-- PACKET_BARRIER_AND (R374). Starts when every named signal holds 0. -/
  | packetBarrierAnd (qid : Nat)
  /-- PACKET_MARKER (R374). Writes the race clock and a tag at its start. -/
  | packetMarker (qid : Nat)
  /-- PACKET_COMPLETE (R368). Makes effects visible, decrements DONE and raises IRQ. -/
  | packetComplete (qid index : Nat)
  /-- CREATE_QUEUE (R388). Service op checking a QCB and creating a queue in RUN. -/
  | createQueue
  /-- DESTROY_QUEUE (R388). Service op freeing a halted or reset queue. -/
  | destroyQueue
  /-- SET_FMT (R308). Service op writing a format-range register. -/
  | setFmt
  /-- FW_UPDATE (R392). Service op verifying a new image and flipping FW_SEL. -/
  | fwUpdate
  /-- ADVANCE_ROLLBACK (R394). Service op programming the next rollback fuse slot. -/
  | advanceRollback
  /-- SVC_BAD_OP (R388). An unknown service op completes with BAD_ARG. -/
  | svcBadOp
  /-- WDOG_KICK (R386). Restarts the watchdog count of an agent. -/
  | wdogKick (die core : Nat)
  /-- WDOG_EXPIRE (R386). A missed kick restarts the agent or disables it after four restarts. -/
  | wdogExpire (die core : Nat)
  /-- BANK_CMD_GO (R389). Starts quiescing a bank and changing its mode, or sets FAIL. -/
  | bankCmdGo (die core bank mode : Nat)
  /-- BANK_MODE_DONE (R293). A bank mode change completes and BUSY falls. -/
  | bankModeDone (die core : Nat)
  /-- PREEMPT_GO (R417). Stops every team of a block and writes their frames. -/
  | preemptGo (die core slot : Nat)
  /-- PREEMPT_DONE (R417). The block's frames are written and BUSY falls. -/
  | preemptDone (die core : Nat)
  /-- RESUME_GO (R416). Restores every team of a pre-empted block. -/
  | resumeGo (die core slot : Nat)
  /-- HANDLER_LIMIT_EXPIRE (R415). A handler without TRET within 2^LIMIT counts parks its team. -/
  | handlerLimitExpire (team : Nat)
  /-- PFS_ARM (R422). Arms a photo-finish stop or sets LATE. -/
  | pfsArm (die core : Nat)
  /-- PFS_HIT (R422). At PFS_AT every unit of the core halts issue and HIT is set. -/
  | pfsHit (die core : Nat)
  /-- DBG_STOP_GO (R426). Freezes every resident team of the named partitions. -/
  | dbgStopGo (die core : Nat) (pmask : BitVec 4)
  /-- DBG_STOP_DONE (R426). Frames and lines are in memory; STOPPED is set. -/
  | dbgStopDone (die core : Nat)
  /-- DBG_STOP_RESUME (R428). Restores every frozen team of the named partitions. -/
  | dbgStopResume (die core : Nat) (pmask : BitVec 4)
  /-- SINGLE_STEP (R430). A stepped team reaches a step end and raises single step. -/
  | singleStep (team : Nat)
  /-- ER_GO (R432). Replays logged engine records against current memory. -/
  | erGo (die core : Nat)
  /-- RR_CAP (R431). Snapshots ranges and logs a process's packets one at a time. -/
  | rrCap
  /-- RR_RUN (R431). Restores the snapshot and reruns logged packets comparing checksums. -/
  | rrRun
  /-- SPL_CTL_APPLY (R451). A written SPL_CTL takes effect at the next qualifying race-clock count. -/
  | splCtlApply
  /-- SPLITS_TICK (R452). Each die latches counters at a multiple of 2^K and writes a record. -/
  | splitsTick (die : Nat)
  /-- ECC_CORRECTED (R447). A corrected error writes back corrected data and records it. -/
  | eccCorrected (die : Nat) (site : EccSite)
  /-- ECC_UNCORRECTABLE (R447). Uncorrectable data poisons or faults as its structure requires and is recorded. -/
  | eccUncorrectable (die : Nat) (site : EccSite)
  /-- PATROL_SCRUB (R447). A patrol read scrubs memory and die-cache slices. -/
  | patrolScrub (die line : Nat)
  /-- LINK_DOWN (R439). A boundary fails to retrain; traffic reroutes or the device trips. -/
  | linkDown (a b : Nat)
  /-- POWER_STATE_ENTER (R454). A core, die or device enters the deepest allowed idle state. -/
  | powerStateEnter (u : PowerUnit) (state : Nat)
  /-- POWER_STATE_WAKE (R454). A host access or work wakes a unit back to S0. -/
  | powerStateWake (u : PowerUnit)
  /-- ARBITER_UPDATE (R455). Every 10 µs the arbiter measures dies and assigns budgets. -/
  | arbiterUpdate (budgets : List Nat) (power : Nat)
  /-- LIMITER_THROTTLE (R455). A die over budget lowers its clock within 1 µs. -/
  | limiterThrottle (die : Nat)
  /-- ARBITER_FALLBACK (R455). No update for 100 µs: the die takes an equal share and records KIND 12. -/
  | arbiterFallback (die : Nat)
  /-- PWR_LIMIT_WRITE (R455). Sets the device power limit, clamped to the form's range. -/
  | pwrLimitWrite (v : Word)
  /-- THERMAL_THROTTLE (R456). A sensor at 95 °C throttles its die and records KIND 10. -/
  | thermalThrottle (die : Nat)
  /-- THERMAL_TRIP (R456). At 110 °C every die stops and the device holds until reset. -/
  | thermalTrip (die : Nat)
  /-- PART_WRITE (R442). Writes a partition register, ignoring invalid or held-back enables. -/
  | partWrite (k : Nat) (v : DWord)
  /-- HOST_MEMORY_ACCESS (R106). A host PCI Express read or write of device memory is performed at the home slice. -/
  | hostMemoryAccess (wr : Bool) (pa size : Nat) (data : List Byte)
  /-- RELAY_ACCESS (R445). An access through a Relay Link port is performed at the remote home slice. -/
  | relayAccess (port : Nat) (wr : Bool) (pa : Nat) (data : List Byte)
  /-- REGISTER_WRITE (R5). A write to a register with no row of its own follows its access code. `off` is the BAR 0 offset in its low 24 bits
  (R458) and the die of the host port above them, 0 or 4 (R2). -/
  | registerWrite (off : Nat) (v : DWord)
  /-- FULL_POWER_DOWN (R394). The device loses power: all state is lost except fuses, and a fuse slot whose programming was cut off counts as used. -/
  | fullPowerDown (cut : Bool)
  /-- RELAY_LINK_TRAIN (R445). A Relay Link port trains or drops after a failed retry, setting or clearing its RELAY_UP bit. -/
  | relayLinkTrain (port : Nat) (up : Bool)
  /-- FAULT_RI_WRITE (R402). The driver advances FAULT_RI, and fault records waiting on a full ring are written. -/
  | faultRiWrite (die : Nat) (v : Word)
  /-- FENCE_COMPLETE (R91). A FENCE's conditions are met (visibility, returned reads, L1 invalidation or mx-readiness) and its flags decrement. -/
  | fenceComplete (team entry : Nat)
  /-- CCTL_COMPLETE (R231). A CCTL's write-backs and invalidations are done and its flags decrement. -/
  | cctlComplete (team entry : Nat)
  /-- PREF_ACCEPTED (R230). A PREF's line requests are accepted and its flags decrement. -/
  | prefAccepted (team entry : Nat)
  /-- TILEQ_COMPLETE (R276). A TILEQ's value returns, is written and its flags decrement. -/
  | tileqComplete (team entry : Nat)
  deriving DecidableEq, Repr

end Sys2Proof
end

