-- ==== Sys2Proof/Machine/State.lean ====
section
/-!
DEFINITION. Machine/State: everything the spec gives the machine, as plain data (R40 to R43 for a team, R10 for a block,
R408 to R421 for traps, R361 to R384 for queues and agents, R311 to R331 for render passes, R395 to R407 for translation,
R423 to R432 for debugging, R439 to R456 for the fleet side).
-/

namespace Sys2Proof.Machine

/-- Why the machine stops. -/
inductive Fault where
  /-- A host access names a physical address that no row of R457 decodes: raised by HOST_MEMORY_ACCESS and RELAY_ACCESS; safe. -/
  | noTarget (pa : Nat)
  deriving DecidableEq, Repr

/-- Why the model gives no meaning. -/
inductive Refusal where
  /-- An arm of exec without its meaning; raised by Dispatch only; safe. -/
  | notModelled (mnemonic : String)
  deriving DecidableEq, Repr

/-! ## Registers of a team (R40 to R58) -/

/-- One element of a vector register or one scalar register: 32 bits and a poison bit (R40, R59). -/
structure Elem where
  val : Word
  pois : Bool
  deriving DecidableEq, Repr

/-- A clean element. -/
def Elem.ofWord (w : Word) : Elem := { val := w, pois := false }

/-- The element every register holds initially (R40). -/
def Elem.zero : Elem := { val := 0, pois := false }

/-- The shape tag of a vector register (R48), coded 00, 01, 10, 11. -/
inductive Tag where
  | unset | uniform | affine | general
  deriving DecidableEq, Repr

/-- A vector register of a team: its tag and one element per lane rank (R44). -/
structure VReg where
  tag : Tag
  elems : List Elem
  deriving DecidableEq, Repr

/-- A thread record (R43) and, per barrier object, the phase of the thread's last counted arrival (R227). -/
structure Thread where
  /-- 57-bit virtual address of the next W0; 0 when exited. -/
  pc : BitVec 57
  /-- Header of the clause that holds the PC (R124, R413). -/
  hdr : BitVec 57
  exited : Bool
  /-- Waiting in WAITM on mask register `wmask` (R157). -/
  waiting : Bool
  wmask : BitVec 4
  /-- Where a waiting lane goes on when it is released: PC and header after its WAITM (R157). -/
  rpc : BitVec 57
  rhdr : BitVec 57
  /-- Values and poison bits of p0 to p23. -/
  pval : BitVec 24
  ppois : BitVec 24
  /-- x0 to x7 (R53). -/
  x : List Word
  /-- Barrier object and the phase of the last counted arrival. -/
  last : List (Nat × Word)
  /-- BIN instructions issued while the thread was a member of the group (R275). -/
  bins : Nat
  deriving DecidableEq, Repr

/-- Address spaces an entry may name (R82). -/
inductive Space where
  | global | scratch | tile | const
  deriving DecidableEq, Repr

/-- What an access of a memory instruction asks for (R208 to R210). -/
structure MemOp where
  space : Space
  /-- Scope code of R173: 0 .co, 1 .tm, 2 .bk, 3 .cl, 4 .di, 5 .dv, 6 .sy. -/
  scope : Nat
  acq : Bool
  rel : Bool
  /-- Bytes of one element, elements of a run, type code. -/
  esz : Nat
  cnt : Nat
  ty : Nat
  fmt : Bool
  nf : Bool
  deriving DecidableEq, Repr

/-- Which read-modify-write an entry performs (R221, R223, R224). -/
inductive AtomKind where
  | atom | red | cas
  deriving DecidableEq, Repr

/-- The work of one replay-queue entry: what is still to be done after issue (R211, R252, R258). -/
inductive Work where
  | load (m : MemOp)
  | store (m : MemOp)
  | atomic (m : MemOp) (k : AtomKind) (op : Nat)
  /-- RED.det: type, and the race clock when it first found the spill area full, 0 before (R104). -/
  | redDet (ty since : Nat)
  | sig (op : Nat) (irq : Bool)
  /-- SLD into scalar register sd; two registers when `pair` (R173). -/
  | sload (sd : Nat) (pair : Bool) (scope : Nat) (acq : Bool)
  | sstore (pair : Bool) (scope : Nat) (rel : Bool)
  /-- FIFO bank and arrival order at it, 0 until the operation has arrived (R218, R299). -/
  | fifoPush (k seq : Nat)
  | fifoPop (k seq : Nat)
  /-- CPS counted on a phase of a barrier object (R229, R302). -/
  | cps (m : MemOp) (bar : Nat) (phase : Word)
  | fence (kind scope : Nat)
  /-- BAR: object, sub-op 0 sync, 1 arrive, 2 wait, .mx, count code, the lanes whose arrivals are counted, and for BAR.wait the phase that
  the lanes still held wait for once it is known (R228). -/
  | bar (n sub : Nat) (mx : Bool) (code : Nat) (arrived : Mask) (target : Option Word)
  | pref (level : Nat)
  | cctl (op : Nat)
  | rflush (all : Bool)
  /-- A matrix instruction: OP, its C, X and T fields and the tiles it names (R252). -/
  | matrix (op : Nat) (x t c : Nat) (tile : Nat)
  /-- A copy submission until the unit accepts it: CPY sub-op or 3 for CPYJ, tag (R258). -/
  | copy (sub tag : Nat) (x : Nat)
  | twait (sub sd : Nat) (mask : Mask)
  | bin
  | tileq (sel : Nat)
  deriving DecidableEq, Repr

/-- A naturally aligned 32-byte sector (R97): 0 global memory, 1 the scratchpad of a block, 2 a tile-memory allocation, with the number of the
block or allocation, 0 in global memory; and the address divided by 32. -/
structure Sector where
  space : Nat
  owner : Nat
  ix : Nat
  deriving DecidableEq, Repr

/-- A replay entry (R413) with what its capture block holds (R414). -/
structure Entry where
  /-- Issue order in its team. -/
  order : Nat
  w0 : Word
  w1 : Word
  pfxw : Word
  /-- Flags the entry counts on; 15 = none. -/
  fla : Nat
  flb : Nat
  pc : BitVec 57
  hdr : BitVec 57
  /-- Lanes still to perform. -/
  lmask : Mask
  progress : Word
  dropped : Bool
  final : Bool
  faulted : Bool
  work : Work
  /-- Per lane rank: resolved numbers of D, A, B, C (R58). -/
  tgt : List (List Nat)
  /-- Vector and scalar registers busy in the scoreboard until completion (R56, R211). -/
  busy : List Nat
  sbusy : List Nat
  /-- Per lane rank: address (R209). -/
  addr : List DWord
  /-- Per lane rank: data words read at issue (R211). -/
  data : List (List Word)
  /-- Scalars, descriptors and maps read at issue, as bytes in the layout of R414. -/
  cap : List Byte
  /-- Lanes of the group that issued it (R228, R270). -/
  gmask : Mask
  /-- Lanes that executed the instruction, and whether the team was privileged (R400). -/
  emask : Mask
  priv : Bool
  /-- Virtual 64 KiB pages whose fault record the entry waits on (R402). -/
  waits : List Nat
  /-- Lanes refused (R212 row 5), the lowest refused address and its log cause (R405). -/
  refused : Mask
  refAddr : DWord
  refCause : Nat
  /-- Sectors that an MXA has read in the slices done and needs again in those to come (R97). -/
  kept : List (Sector × List Byte)
  deriving DecidableEq, Repr

/-- A trap to take (R411, R412): cause, sub-cause, PC and clause header, lanes named, INFO, FADDR; whether the trapping
group resumes after the instruction; whether the team parks whatever its handler is (R447). -/
structure Trap where
  cause : Nat
  sub : Nat
  tpc : BitVec 57
  thdr : BitVec 57
  lanes : Mask
  info : DWord
  faddr : DWord
  next : Bool
  park : Bool := false
  deriving DecidableEq, Repr

/-- What an accumulator-path A-latch holds (R242, R414). -/
structure Latch where
  valid : Bool
  asrc : Bool
  a : Nat
  afmt : Nat
  m : Nat
  c : Nat
  vals : List Word
  deriving DecidableEq, Repr

/-- The device's own copy of a trap frame's values while a team stands in it (R412). -/
structure Frame where
  cause : Nat
  flags : List (BitVec 4)
  pcls : Nat
  nrq : Nat
  /-- NESTED: cause that parked the team; 255 = handler limit; 0 = not parked. -/
  nested : Nat
  /-- The team runs its handler (R277). -/
  inHandler : Bool
  /-- The operand latch as saved (R243). -/
  latch : Latch
  /-- Lane PCs as saved: a PC that a handler changed begins a clause (R124). -/
  pcs : List (BitVec 57)
  /-- Where each lane goes on when it is released, if it waited in WAITM: PC and header after its WAITM (R157). -/
  waits : List (Option (BitVec 57 × BitVec 57))
  /-- Race-clock count at which the handler was entered (R415). -/
  since : DWord
  /-- FLAGS as a stop or pre-emption wrote it to the image of the team that stands in the frame: an image that holds another value was
  written since (R45, R427). -/
  wrote : List (BitVec 4)
  /-- The MXA that was to fill the saved latch has been dropped: nothing is latched (R243, R253). -/
  unlatched : Bool
  deriving DecidableEq, Repr

/-- The instruction of a stepped team whose step end comes next (R430): PC, clause header, group; the replay entry, the child grid and the copy
tag of its own, if it made one (R273). -/
structure StepMark where
  pc : BitVec 57
  hdr : BitVec 57
  mask : Mask
  entry : Option Nat
  kid : Option Nat
  tag : Option Nat
  deriving DecidableEq, Repr

/-- A child grid counted on flags of a team (R27); `held`: counted when the team's frame was written (R412). -/
structure Kid where
  lseq : Nat
  fla : Nat
  flb : Nat
  held : Bool
  deriving DecidableEq, Repr

/-- How a team stands: issuing; parked (R415); away with its block (R417); frozen by a partition stop (R426). -/
inductive Run where
  | running | parked | away | frozen
  deriving DecidableEq, Repr

/-- A team (R9, R40): registers, threads, flags, replay queue, trap state and what the scheduler keeps of it (R29, R30). -/
structure Team where
  /-- The model's own number of the team; 0 is the empty team. -/
  id : Nat
  block : Nat
  /-- Team index within the block. -/
  index : Nat
  width : Nat
  agent : Bool
  /-- Die and physical core that hold the team (R21), and its process (R396). -/
  die : Nat
  core : Nat
  proc : Nat
  /-- Issue partition and first section (R22). -/
  part : Nat
  sec : Nat
  /-- Priority class: 0 firmware, 1 resume, 2 high, 3 normal (R29, R42). -/
  cls : Nat
  /-- The class the launch gave. -/
  home : Nat
  priv : Bool
  threads : List Thread
  vregs : List (Nat × VReg)
  sregs : List Elem
  mregs : List Mask
  flags : List (BitVec 4)
  trapEn : Word
  sticky : Word
  /-- TEAM_HANDLER, TEAM_SCRATCH_0 and TEAM_SCRATCH_1 (R409). -/
  handler : DWord
  scratch0 : DWord
  scratch1 : DWord
  /-- Virtual addresses of the context image, the frame area and the block save area (R42, R410, R420). -/
  image : DWord
  frameVa : DWord
  bsave : DWord
  entries : List Entry
  nextOrder : Nat
  frame : Option Frame
  run : Run
  latch : Latch
  /-- A trap whose frame waits on a pool page, or that a resume must raise (R408, R419). -/
  pend : Option Trap
  /-- Virtual pages whose fault a fetch, an LNCH or a TRET waits on, and those of them that the driver has refused (R400, R402). -/
  stall : List Nat
  stallRefused : List Nat
  /-- Register lines absent from the register cache (R46). -/
  absent : List Nat
  /-- Lanes of the last group served, lanes raised after 256 and 1024 cycles, lanes held back by J, and Y (R23, R29, R30). -/
  served : Nat
  raised : Mask
  raisedTop : Mask
  /-- Step at which each raised lane was raised (R29). -/
  raisedAt : List (Nat × Nat)
  /-- Groups that stand ready and not chosen, by their lanes, and the step at which each was first found so (R29). -/
  readySince : List (Mask × Nat)
  jhint : Mask
  yielded : Bool
  /-- The team has issued since its mass start's count was fixed (R372). -/
  begun : Bool
  /-- The instruction of a stepped team whose step end comes next (R411, R430). -/
  stepAt : Option StepMark
  /-- Outstanding child grids counted on flags (R27). -/
  kids : List Kid
  /-- Fragment teams: pixel and sample mask per lane, formation rank, pass and tile (R326 to R328). -/
  frag : List (Nat × Nat)
  fragRank : Nat
  prim : Nat
  deriving DecidableEq, Repr

/-! ## Blocks and grids (R10 to R20) -/

/-- A barrier object (R227): phase, arrivals, the count code of the phase when set, pending CPS of the phase and of the next one (R302). -/
structure Barrier where
  phase : Word
  arrivals : Nat
  code : Option Nat
  cps : Nat
  later : Nat
  deriving DecidableEq, Repr

/-- A copy tag of a block (R257). -/
structure CopyTag where
  done : Bool
  status : Nat
  /-- A copy named by the tag is in flight. -/
  busy : Bool
  deriving DecidableEq, Repr

/-- An accumulator tile (R40): element 64·i + j of its 128 × 64 f32, unlisted elements +0.0; busy and granted a slot (R247, R254). -/
structure AccTile where
  busy : Bool
  slot : Bool
  /-- Evicted: its values stand in the image (R254). -/
  out : Bool
  /-- Rows read as 0x7FC00000 since an uncorrectable error (R447). -/
  bad : Bool
  /-- Rises with each use among the tiles of a block: the least is the least recently used (R254). -/
  used : Nat
  elems : List (Nat × Word)
  deriving DecidableEq, Repr

/-- The fields of a kernel descriptor (R137). -/
structure KDesc where
  entry : DWord
  width : Nat
  teams : Nat
  cx : Nat
  cy : Nat
  cz : Nat
  acc : Nat
  accMax : Nat
  regs : Nat
  bars : Nat
  tags : Nat
  scratch : Nat
  tmem : Nat
  fifo : Nat
  trapEn : Nat
  deriving DecidableEq, Repr

/-- A memory of a block or tile on the core (R292, R298): its bytes, its poisoned words and its size. -/
structure Bank where
  size : Nat
  bytes : List (Nat × Byte)
  pois : List (Nat × Bool)
  deriving DecidableEq, Repr

/-- How a block stands: resident; being pre-empted; away (R417, R418). -/
inductive BlockRun where
  | resident | saving | away
  deriving DecidableEq, Repr

/-- How a block stands to its banks: it holds them and its bytes stand in them; it is away and its save area holds everything as
well; it is away and firmware has handed its banks on (R296, R418, R420). -/
inductive BankHold where
  | held | saved | released
  deriving DecidableEq, Repr

/-- A resident or pre-empted block (R10, R18, R417). -/
structure Block where
  id : Nat
  /-- Launch sequence number of its grid. -/
  grid : Nat
  /-- Linear number in the grid (R13). -/
  lin : Nat
  die : Nat
  core : Nat
  /-- Block slot (R417). -/
  slot : Nat
  run : BlockRun
  hold : BankHold
  /-- Why firmware has pre-empted the block and will resume it: 1 to make room for children, 2 for a mass start, 3 for a partial
  flush; 0 = it has not (R37, R317, R372). -/
  away : Nat
  scratch : Bank
  /-- Number of its tile-memory allocation in State.tmems; 0 = none. -/
  tmem : Nat
  /-- FIFO banks, oldest element first (R299). -/
  fifos : List (List Elem)
  bars : List Barrier
  /-- Teams that have retired: index, and each thread's last arrivals (R227, R420). -/
  past : List (Nat × List (List (Nat × Word)))
  tags : List CopyTag
  /-- First physical copy tag (R303). -/
  tb : Nat
  /-- Allocated accumulator tiles in order; MXAL's ceiling (R235). -/
  acc : List AccTile
  accMax : Nat
  accBase : DWord
  bsave : DWord
  /-- Number of teams, and the bytes of the context pool the block holds: first offset and size (R408). -/
  nteams : Nat
  pool : Nat × Nat
  deriving DecidableEq, Repr

/-- What launched a grid. -/
inductive Origin where
  /-- A packet of a queue: QID and packet index. -/
  | packet (qid index : Nat)
  /-- LNCH by a team, counted on its flags. -/
  | child (parent team fla flb : Nat)
  /-- A binning grid of a pass, its grid index. -/
  | binning (pass g : Nat)
  /-- A fragment block of a tile of a pass. -/
  | fragment (pass tile : Nat)
  /-- The tile-kernel block of a tile. -/
  | tileKernel (pass tile : Nat)
  deriving DecidableEq, Repr

/-- A grid (R12, R17, R26). -/
structure Grid where
  lseq : Nat
  proc : Nat
  kd : KDesc
  args : DWord
  gx : Nat
  gy : Nat
  gz : Nat
  depth : Nat
  cls : Nat
  pin : Bool
  origin : Origin
  /-- Vector preloads of R370: register, base, stride. -/
  pre : List (Nat × Word × Word)
  /-- Blocks not yet retired. -/
  left : Nat
  /-- Race-clock count from which its teams may issue: S of a mass start, 2^64 while S is not fixed, 0 for every other grid (R372). -/
  start : Nat
  deriving DecidableEq, Repr

/-- An entry of a core's queue of block entries (R376). -/
structure BlockEntry where
  grid : Nat
  lin : Nat
  movable : Bool
  deriving DecidableEq, Repr

/-! ## Memory side -/

/-- One translation held by a TLB (R401). -/
structure TlbEntry where
  proc : Nat
  /-- Virtual base, log2 of the page size, physical base, permissions. -/
  va : Nat
  log2 : Nat
  pa : Nat
  w : Bool
  x : Bool
  prv : Bool
  cmp : Bool
  deriving DecidableEq, Repr

/-- An outstanding page fault of a die (R402): process, 64 KiB virtual page, and whether its record is in the ring. -/
structure FaultRec where
  proc : Nat
  va : Nat
  vpage : Nat
  kind : Nat
  level : Nat
  source : Nat
  core : Nat
  ty : Nat
  written : Bool
  deriving DecidableEq, Repr

/-- A write held at a home controller (R306): the team, entry and lane that it belongs to, or team 0 and the copy's number, or, for a flush, the
grid whose completion waits for it; whether it is a flush of R101, which no containment drops; process, core whose L1 copy of the block goes with it, virtual address translated, physical address, bytes, and whether they are poisoned; the interrupt
raised once it is visible (R232). -/
structure HeldWrite where
  team : Nat
  entry : Nat
  lane : Nat
  grid : Nat
  flush : Bool := false
  proc : Nat
  core : Option (Nat × Nat)
  va : Nat
  pa : Nat
  data : List Byte
  pois : Bool := false
  irq : Option Nat
  deriving DecidableEq, Repr

/-- What a sector held before a write that is not mx-ready (R96, R97): the writer's team, block and lane, 64 for an MXST; the flags of the
MXST's baton, 15 = none. -/
structure OldSector where
  place : Sector
  team : Nat
  block : Nat
  lane : Nat
  fla : Nat
  flb : Nat
  bytes : List Byte
  deriving DecidableEq, Repr

/-- A home memory controller (R306, R307, R406). -/
structure Ctl where
  free : Nat
  reserve : Nat
  low : Bool
  stall : Bool
  /-- Race clock at which STALL rose. -/
  since : Nat
  held : List HeldWrite
  /-- Blocks stored and their metadata nibbles: chunks held, 1 to 8; 0 and 9 to 15 are invalid (R305). -/
  chunks : List (Nat × Nat)
  deriving DecidableEq, Repr

/-- An exact accumulator of RED.det (R80, R101): process, physical address, type, sum in units of 2^-k, and its special values. -/
structure RedAcc where
  proc : Nat
  pa : Nat
  ty : Nat
  /-- Virtual address, and the compression bit of its page (R105, R306). -/
  va : Nat
  cmp : Bool
  sum : Int
  nan : Bool
  pinf : Bool
  ninf : Bool
  /-- Contributions since the last flush point. -/
  count : Nat
  /-- Launch numbers of the grids that contributed. -/
  grids : List Nat
  spilled : Bool
  deriving DecidableEq, Repr

/-- A format-range register (R308). -/
structure FmtRange where
  en : Bool
  base : Nat
  size : Nat
  format : Nat
  sepsc : Bool
  store : Nat
  scale : Nat
  codebook : List (BitVec 16)
  deriving DecidableEq, Repr

/-- A copy at work (R258, R267, R374): the tag's block, or a packet. -/
structure Job where
  id : Nat
  proc : Nat
  die : Nat
  core : Nat
  priv : Bool
  /-- PC of the instruction; 0 for a packet. -/
  pc : BitVec 57
  /-- Owning block and tag; block 0 for a TRANSFORM packet. -/
  block : Nat
  tag : Nat
  /-- Packet of the job: QID, index, STAT address. -/
  qid : Nat
  index : Nat
  stat : DWord
  /-- 0 linear, 1 tensor, 2 transforming, 3 decompression; 4 carried out, its status in `len`, writes still held at a controller. -/
  form : Nat
  /-- Spaces and scalars of CPY.l; offset of the job card. -/
  ssp : Nat
  dsp : Nat
  src : DWord
  dst : DWord
  len : Nat
  desc : List Byte
  misdesc : Bool
  /-- Fault pages it waits on. -/
  waits : List Nat
  refuse : Bool
  deriving DecidableEq, Repr

/-- Part of a bank that a block or a tile holds (R292, R293): the bank, the number of the block or of the tile's allocation, and its granules,
tile-memory units or 1 for a FIFO. -/
structure BankUse where
  bank : Nat
  owner : Nat
  amount : Nat
  deriving DecidableEq, Repr

/-- One core (R2, R25): its CSRs, caches, queue, tags and stop state, keyed by die and physical number. -/
structure Core where
  /-- CSRs 0x108 to 0x119 and 0x500 to 0x505 by number. -/
  csr : List (Nat × DWord)
  /-- Bytes written at the L1 point and not yet visible at the die cache (R87). -/
  dirty : List (Nat × Byte)
  /-- Clean copies of 128-byte lines: line number and bytes (R87). -/
  clean : List (Nat × List Byte)
  /-- Poisoned lines of L1 (R447). -/
  bad : List (Nat × Bool)
  tlb : List TlbEntry
  /-- Queue of block entries (R376). -/
  queue : List BlockEntry
  /-- Partitions stopped, and partitions being stopped (R426). -/
  stopped : BitVec 4
  stopping : BitVec 4
  /-- Stopped partitions whose resume is in progress (R423, R428). -/
  resuming : BitVec 4
  /-- Blocks asked to leave and not away yet, and blocks whose RESUME is in progress (R417). -/
  moving : List Nat
  waking : List Nat
  /-- Which banks the allocations lie in (R293). -/
  alloc : List BankUse
  /-- Engine-log records whose pages fault, oldest first: process, and offsets in the record with their bytes (R432). -/
  erQueue : List (Nat × List (Nat × List Byte))
  /-- Bank changes asked for and not complete, the one in progress first: bank and mode (R389). -/
  banking : List (Nat × Nat)
  /-- Race clocks of the agent's last restarts, the agent's disabled state (R386). -/
  restarts : List Nat
  dead : Bool
  lastKick : Nat
  /-- What the agent's journal names: the ticket it has drawn and not yet served, and the queue that it holds (R384, R387). -/
  ticket : Option Nat
  serving : Option Nat
  /-- FW_SEL of the image that the agent runs (R392). -/
  image : DWord
  /-- Power state (R454). -/
  power : Nat
  deriving DecidableEq, Repr

/-- One die: CSRs, die cache, controllers, fault queue and sensors. -/
structure Die where
  /-- CSRs 0x200 to 0x24C by number. -/
  csr : List (Nat × DWord)
  /-- Bytes written at the die cache and not yet visible at home (R87). -/
  dirty : List (Nat × Byte)
  ctls : List Ctl
  faults : List FaultRec
  /-- Pending TLB invalidations: operation, process, base, log2, requests merged (R403). -/
  tlbq : List (Nat × Nat × Nat × Nat × Nat)
  /-- Arrivals counted and tickets drawn of the claim area (R384). -/
  arrivals : Nat
  rclk : DWord
  /-- KIND, ADDR and record number of the newest error record, for merging (R450). -/
  errLast : Option (Nat × Nat × Nat)
  /-- Splits counters by record offset (R453); from 0x3000, the intervals in which each core and, as number 36, the die ran. -/
  counters : List (Nat × DWord)
  /-- Ticks latched and not yet written to the ring: T, K, the budget and the counters at it (R452). -/
  latched : List (Nat × Nat × Nat × List (Nat × DWord))
  /-- Race clock of the arbiter's last update, or of the fallback since (R455). -/
  lastUpdate : Nat
  /-- Budget in W, clock in sixteenths, power state, throttling (R454, R455). -/
  budget : Nat
  clock : Nat
  power : Nat
  throttling : Bool
  deriving DecidableEq, Repr

/-! ## Queues, packets and passes -/

/-- A placement map (R375): mode 0 SINGLE, 1 SPLIT, 2 EXPLICIT; die, die mask, the exact unit count, dies of the units. -/
structure Place where
  mode : Nat
  die : Nat
  mask : BitVec 8
  units : Nat
  dies : List Nat
  deriving DecidableEq, Repr

/-- A claimed packet (R384): its 64 bytes and how far its work stands. -/
structure Packet where
  index : Nat
  bytes : List Byte
  started : Bool
  done : Bool
  /-- Its accepted grids with their placement, the pass of a RENDER, the job number of a TRANSFORM. -/
  plan : List (Grid × Place)
  pass : Nat
  job : Nat
  /-- Mass start: S, and stage 0 none, 1 reserving, 2 committed, 3 started. -/
  mass : Nat
  stage : Nat
  /-- Race clock at which a MARKER or the work started. -/
  clock : DWord
  /-- Rises with each packet claimed on the device. -/
  order : Nat
  deriving DecidableEq, Repr

/-- Queue state (R361): 0 RUN, 1 STOPPED, 2 HALTED, 3 RESET_DONE. -/
structure Queue where
  qid : Nat
  qcb : Nat
  ring : DWord
  proc : Nat
  vec : Nat
  home : Nat
  log2 : Nat
  wi : Nat
  claim : Nat
  read : Nat
  doneIx : Nat
  state : Nat
  err : Nat
  errIx : Nat
  lseqLast : Nat
  seq : Nat
  pend : Bool
  /-- RESET in progress (R379). -/
  resetting : Bool
  staged : List Packet
  deriving DecidableEq, Repr

/-- An accepted primitive (R275, R314): its order key, its run and the die that binned it. -/
structure Prim where
  key : List Nat
  run : List Word
  blend : Bool
  die : Nat
  tiles : List Nat
  deriving DecidableEq, Repr

/-- A fragment team formed (R326): primitive, pixels with sample masks, formation rank, block launched, exited. -/
structure Frag where
  prim : Prim
  px : List (Nat × Nat)
  launched : Bool
  retired : Bool
  block : Nat
  deriving DecidableEq, Repr

/-- A tile in a segment (R313): 0 idle, 1 dealt, 2 resolved, 3 fragments launched, 4 tile kernel, 5 spilled, 6 retired. -/
structure TileSt where
  tile : Nat
  die : Nat
  core : Nat
  tmem : Nat
  stage : Nat
  segs : Nat
  frags : List Frag
  block : Nat
  deriving DecidableEq, Repr

/-- A render pass (R311 to R331). -/
structure Pass where
  /-- The pass number (R373). -/
  lseq : Nat
  qid : Nat
  index : Nat
  proc : Nat
  cls : Nat
  fragK : KDesc
  tileK : Option KDesc
  arena : DWord
  arenaSize : Nat
  spill : DWord
  stride : Nat
  tw : Nat
  th : Nat
  units : Nat
  depthPlane : Nat
  visPlane : Nat
  cull : Nat
  greater : Bool
  d24 : Bool
  samples4 : Bool
  clear : Word
  blend : Word
  tileArgs : DWord
  ngrid : Nat
  /-- Binning grids by launch number. -/
  grids : List Nat
  /-- Tile placement (R375). -/
  place : Place
  /-- The pass has started (R373). -/
  started : Bool
  /-- Entries of the current segment. -/
  prims : List Prim
  /-- Bytes of each die's share in use (R316). -/
  used : List (Nat × Nat)
  flushing : Bool
  final : Bool
  segment : Nat
  tiles : List TileSt
  deriving DecidableEq, Repr

/-! ## The latch of the instruction at issue -/

/-- What the step has fetched for the group that issues: where the instruction stands, its clause and its prefix. -/
structure Ctx where
  /-- Address of the instruction or of its PFX (R122). -/
  pc : BitVec 57
  /-- Clause header address. -/
  hdr : BitVec 57
  /-- Where the group stands after the instruction: its PC and header; equal when a new clause begins (R107, R124). -/
  npc : BitVec 57
  nhdr : BitVec 57
  /-- Position is the first of the clause, or the last. -/
  first : Bool
  last : Bool
  /-- The clause's Y hint (R30). -/
  y : Bool
  /-- Class, SETA and SETB of the header (R108). -/
  cls : Nat
  seta : Nat
  setb : Nat
  /-- Words of the instruction. -/
  w0 : Word
  w1 : Word
  /-- The prefix word, 0 for none, and its RND and SAT (R121). -/
  pfxw : Word
  rnd : Nat
  sat : Bool
  deriving DecidableEq, Repr

/-- Debug rerun (R431): mode 0 idle, 1 capture, 2 run, 3 run ended; packet number reached. -/
structure Rerun where
  mode : Nat
  count : Nat
  deriving DecidableEq, Repr

/-- The whole device. -/
structure State where
  /-- The team that issues, checked out of `teams`, and its issue group (R23). -/
  me : Team
  grp : Mask
  ctx : Ctx
  teams : List Team
  blocks : List Block
  grids : List Grid
  /-- Tile-memory allocations by number (R300, R318). -/
  tmems : List (Nat × Bank)
  cores : List (Nat × Core)
  dies : List (Nat × Die)
  queues : List Queue
  passes : List Pass
  jobs : List Job
  reds : List RedAcc
  fmts : List (Nat × FmtRange)
  /-- Memory at the home slices by physical address (R457). -/
  mem : List (Nat × Byte)
  /-- Poisoned 128-byte lines, by line number (R447). -/
  bad : List (Nat × Bool)
  /-- Writes that are not mx-ready, newest first (R96). -/
  mxOld : List OldSector
  /-- Device CSRs 0x400 to 0x40A and 0x580 to 0x582 by number. -/
  csr : List (Nat × DWord)
  /-- PART_0 to PART_7 (R441). -/
  parts : List (Nat × DWord)
  /-- Straps: dies present, second host port, form (0 AV9-D, 1 AV9-P, 2 AV9-M); fuses: enabled cores of each die; installed memory. -/
  present : BitVec 8
  host4 : Bool
  form : Nat
  harvest : List (Nat × BitVec 36)
  memCfg : List (Nat × Word)
  /-- Whether the memory of die 0 fails when the ROM trains it (R393). -/
  memFails : Bool
  relayUp : BitVec 16
  /-- Boundaries marked down (R439). -/
  down : List (Nat × Nat)
  /-- Boot registers (R393). -/
  bootSrc : DWord
  bootLen : Word
  bootState : Nat
  bootReason : Nat
  /-- FW_SEL, and the entry offset of the running image (R392). -/
  fwSel : DWord
  fwEntry : DWord
  /-- ROLLBACK slots: the two copies of each used slot (R394). -/
  fuses : List (DWord × DWord)
  svcDone : Nat
  /-- Pending SPL_CTL values, oldest first, and the count at which each takes effect (R451). -/
  splNext : List (Word × Nat)
  rerun : Rerun
  /-- The device holds until reset (R439, R456), or has no power. -/
  tripped : Bool
  power : Nat
  /-- Host interrupts raised, oldest first: vectors (R368, R402). -/
  irqs : List Nat
  /-- Pages that accesses of the device itself wait on (firmware, frames, saves, arena, spill), and those of them that FAULT_RESOLVE has refused:
  die, process, page (R402). -/
  devWaits : List (Nat × Nat × Nat)
  devRefused : List (Nat × Nat × Nat)
  /-- Next launch sequence number, and the model's own numbering of teams, blocks, allocations and jobs. -/
  nextLseq : Nat
  nextId : Nat
  /-- The model's own: events of other agents that stand to be taken next, and the counter of free values. -/
  agenda : List Instr
  fresh : Nat
  /-- The model's own: steps taken; it says whether the next step issues or takes an operation, and which one. -/
  turn : Nat
  deriving DecidableEq, Repr

/-! ## Reset -/

/-- A thread before launch. -/
def Thread.reset : Thread :=
  { pc := 0, hdr := 0, exited := false, waiting := false, wmask := 0, rpc := 0, rhdr := 0, pval := 0, ppois := 0,
    x := List.replicate 8 0, last := [], bins := 0 }

/-- The A-latch of a team that has latched nothing. -/
def Latch.reset : Latch := { valid := false, asrc := false, a := 0, afmt := 0, m := 0, c := 0, vals := [] }

/-- A team with no threads: the model's place holder where no team is checked out. -/
def Team.reset : Team :=
  { id := 0, block := 0, index := 0, width := 8, agent := false, die := 0, core := 0, proc := 0, part := 0, sec := 0, cls := 3, home := 3, priv := false,
    threads := [], vregs := [], sregs := List.replicate 24 Elem.zero, mregs := List.replicate 12 0,
    flags := List.replicate 12 0, trapEn := 0, sticky := 0, handler := 0, scratch0 := 0, scratch1 := 0, image := 0,
    frameVa := 0, bsave := 0, entries := [], nextOrder := 0, frame := none, run := .running, latch := Latch.reset,
    pend := none, stall := [], stallRefused := [], absent := [], served := 0, raised := 0, raisedTop := 0, raisedAt := [], readySince := [], jhint := 0, yielded := false, begun := false, stepAt := none, kids := [],
    frag := [], fragRank := 0, prim := 0 }

/-- No instruction latched. -/
def Ctx.reset : Ctx :=
  { pc := 0, hdr := 0, npc := 0, nhdr := 0, first := false, last := false, y := false, cls := 0, seta := 15, setb := 15, w0 := 0, w1 := 0, pfxw := 0,
    rnd := 0, sat := false }

/-- A barrier object before any arrival (R40). -/
def Barrier.reset : Barrier := { phase := 0, arrivals := 0, code := none, cps := 0, later := 0 }

/-- A copy tag at admission (R40). -/
def CopyTag.reset : CopyTag := { done := false, status := 0, busy := false }

/-- A memory of `n` bytes that reads zero (R295). -/
def Bank.zero (n : Nat) : Bank := { size := n, bytes := [], pois := [] }

/-- A controller after reset: no chunk granted; CHUNK_STAT reads 0 (R395, R406). -/
def Ctl.reset : Ctl := { free := 0, reserve := 0, low := false, stall := false, since := 0, held := [], chunks := [] }

/-- A core after reset: WDOG.LIMIT 20 (R386), HLIMIT 24 (R415), every other CSR 0. -/
def Core.reset : Core :=
  { csr := [(0x10A, 20), (0x115, 24)], dirty := [], clean := [], bad := [], tlb := [], queue := [], stopped := 0,
    stopping := 0, resuming := 0, moving := [], waking := [], alloc := [], erQueue := [], banking := [], restarts := [], dead := false, lastKick := 0, ticket := none, serving := none, image := 0,
    power := 0 }

/-- A die after reset: CMP_TIMEOUT 0x000F4240 and CHUNK_LOWMARK 8192 (R395), every other CSR 0. -/
def Die.reset : Die :=
  { csr := [(0x21B, 0xF4240), (0x21E, 8192)], dirty := [], ctls := List.replicate 4 Ctl.reset, faults := [], tlbq := [],
    arrivals := 0, rclk := 0, errLast := none, counters := [], latched := [], lastUpdate := 0, budget := 0, clock := 16, power := 0,
    throttling := false }

/-- The device right after reset: SPL_CTL 0x0000000A, PWR_LIMIT the form's limit (R448), boot STATE INIT (R393), no partition
(R441). Straps, fuses and installed memory are those of one AV9-P with every core enabled (log entry 3). -/
def State.reset : State :=
  { me := Team.reset, grp := 0, ctx := Ctx.reset, teams := [], blocks := [], grids := [], tmems := [], cores := [],
    dies := [], queues := [], passes := [], jobs := [], reds := [], fmts := [], mem := [], bad := [], mxOld := [],
    csr := [(0x400, 0xA), (0x409, 2800)], parts := [], present := 0xFF, host4 := true, form := 1,
    harvest := [], memCfg := [], memFails := false, relayUp := 0, down := [], bootSrc := 0, bootLen := 0, bootState := 0, bootReason := 0,
    fwSel := 0, fwEntry := 0, fuses := [], svcDone := 0, splNext := [], rerun := { mode := 0, count := 0 },
    tripped := false, power := 0, irqs := [], devWaits := [], devRefused := [], nextLseq := 1, nextId := 1, agenda := [], fresh := 0, turn := 0 }

end Sys2Proof.Machine
end

