-- ==== Sys2Proof/Machine/Access.lean ====
section
/-!
DEFINITION. Machine/Access: reading and replacing the parts of the state by their names, and a team's registers with
their tags and poison (R40 to R52).
-/

namespace Sys2Proof.Machine

/-! ## Parts of the state -/

/-- Key of a core in the table of cores. -/
def coreKey (die core : Nat) : Nat := die * 64 + core

/-- A core, one never touched being as after reset. -/
def State.core (s : State) (d c : Nat) : Core := defGet Core.reset s.cores (coreKey d c)

/-- The state with one core replaced. -/
def State.setCore (s : State) (d c : Nat) (k : Core) : State := { s with cores := defSet Core.reset s.cores (coreKey d c) k }

/-- A die, one never touched being as after reset. -/
def State.die (s : State) (d : Nat) : Die := defGet Die.reset s.dies d

/-- The state with one die replaced. -/
def State.setDie (s : State) (d : Nat) (x : Die) : State := { s with dies := defSet Die.reset s.dies d x }

/-- Die d is present (R441). -/
def State.hasDie (s : State) (d : Nat) : Bool := decide (d < 8) && s.present.getLsbD d

/-- Core p of die d is enabled by its fuses (R433). -/
def State.enabled (s : State) (d p : Nat) : Bool :=
  s.hasDie d && decide (p < 36) && (defGet (BitVec.allOnes 36) s.harvest d).getLsbD p

/-- Enabled physical cores of a die, in order: the logical core table of R434. -/
def State.logical (s : State) (d : Nat) : List Nat := (List.range 36).filter (s.enabled d)

/-- Logical number of a physical core (R434). -/
def State.logicalOf (s : State) (d p : Nat) : Nat := ((s.logical d).filter (fun q => decide (q < p))).length

/-- The lead agent of a die: that of the lowest enabled logical core whose agent is not disabled (R381, R386). -/
def State.lead (s : State) (d : Nat) : Option Nat := (s.logical d).find? (fun c => !(s.core d c).dead)

/-- A CSR of a core. -/
def Core.reg (k : Core) (n : Nat) : DWord := defGet 0 k.csr n

/-- A core with one CSR replaced. -/
def Core.setReg (k : Core) (n : Nat) (v : DWord) : Core := { k with csr := defSet 0 k.csr n v }

/-- A CSR of a die. -/
def Die.reg (x : Die) (n : Nat) : DWord := defGet 0 x.csr n

/-- A die with one CSR replaced. -/
def Die.setReg (x : Die) (n : Nat) (v : DWord) : Die := { x with csr := defSet 0 x.csr n v }

/-- A team by its number; the team that issues first. -/
def State.team (s : State) (i : Nat) : Option Team :=
  if i = 0 then none else if s.me.id = i then some s.me else s.teams.find? (fun t => decide (t.id = i))

/-- The state with a team replaced under its own number. -/
def State.setTeam (s : State) (t : Team) : State :=
  if s.me.id = t.id then { s with me := t }
  else { s with teams := s.teams.map (fun u => if u.id = t.id then t else u) }

/-- Every team, the issuing one first. -/
def State.allTeams (s : State) : List Team := if s.me.id = 0 then s.teams else s.me :: s.teams

/-- The agent that acts for a core stands in no partition stop: its own, or, where that is disabled, the die's lead agent (R380, R381, R386, R426). -/
def State.agentActs (s : State) (d c : Nat) : Bool :=
  match (if (s.core d c).dead then s.lead d else some c) with
  | some a => !s.allTeams.any (fun t => t.agent && decide (t.die = d ∧ t.core = a ∧ t.run = .frozen))
  | none => false

/-- A core is in S0, with its die and the device (R454). -/
def State.awake (s : State) (d c : Nat) : Bool := decide (s.power = 0) && decide ((s.die d).power = 0) && decide ((s.core d c).power = 0)

/-- Every team changed by one function. -/
def State.mapTeams (s : State) (f : Team → Team) : State := { s with me := f s.me, teams := s.teams.map f }

/-- A block by its number. -/
def State.block (s : State) (i : Nat) : Option Block := s.blocks.find? (fun b => decide (b.id = i))

/-- The state with a block replaced under its own number. -/
def State.setBlock (s : State) (b : Block) : State :=
  { s with blocks := s.blocks.map (fun c => if c.id = b.id then b else c) }

/-- A grid by its launch sequence number. -/
def State.grid (s : State) (i : Nat) : Option Grid := s.grids.find? (fun g => decide (g.lseq = i))

/-- The state with a grid replaced. -/
def State.setGrid (s : State) (g : Grid) : State := { s with grids := s.grids.map (fun h => if h.lseq = g.lseq then g else h) }

/-- A queue by its QID. -/
def State.queue (s : State) (q : Nat) : Option Queue := s.queues.find? (fun x => decide (x.qid = q))

/-- The state with a queue replaced. -/
def State.setQueue (s : State) (q : Queue) : State := { s with queues := s.queues.map (fun x => if x.qid = q.qid then q else x) }

/-- A pass by its pass number. -/
def State.pass (s : State) (n : Nat) : Option Pass := s.passes.find? (fun p => decide (p.lseq = n))

/-- The state with a pass replaced. -/
def State.setPass (s : State) (p : Pass) : State := { s with passes := s.passes.map (fun x => if x.lseq = p.lseq then p else x) }

/-- A counter of a die's record advanced (R452). -/
def State.count (s : State) (d off n : Nat) : State :=
  let x := s.die d
  if n = 0 then s else s.setDie d { x with counters := defSet 0 x.counters off (defGet 0 x.counters off + BitVec.ofNat 64 n) }

/-- The state with the count of free values advanced. -/
def State.tickFresh (s : State) : State := { s with fresh := s.fresh + 1 }

/-- The issuing team's block; a block with nothing in it where the team has none. -/
def Block.none : Block :=
  { id := 0, grid := 0, lin := 0, die := 0, core := 0, slot := 0, run := .resident, hold := .held, away := 0, scratch := Bank.zero 0, tmem := 0,
    fifos := [], bars := [], past := [], tags := [], tb := 0, acc := [], accMax := 0, accBase := 0, bsave := 0, nteams := 0,
    pool := (0, 0) }

/-- Block of the issuing team. -/
def State.myBlock (s : State) : Block := (s.block s.me.block).getD Block.none

/-! ## Threads of a team -/

/-- The thread of a rank that the team does not have. -/
def Thread.gone : Thread := { Thread.reset with exited := true }

/-- One thread record; a rank beyond the width reads as an exited thread. -/
def Team.thread (t : Team) (l : Nat) : Thread := t.threads.getD l Thread.gone

/-- The team with one thread replaced. -/
def Team.setThread (t : Team) (l : Nat) (th : Thread) : Team := { t with threads := putAt t.width Thread.gone t.threads l th }

/-- The team with each thread changed by its lane. -/
def Team.mapLanes (t : Team) (f : Nat → Thread → Thread) : Team :=
  { t with threads := (List.range t.width).map (fun l => f l (t.thread l)) }

/-- The team with the threads of a mask changed. -/
def Team.mapThreads (t : Team) (m : Mask) (f : Thread → Thread) : Team :=
  t.mapLanes (fun l th => if m.getLsbD l then f th else th)

/-- Lanes that have not exited (R8). -/
def Team.live (t : Team) : Mask := maskOf t.width (fun l => !(t.thread l).exited)

/-- Lanes waiting in WAITM. -/
def Team.waitingLanes (t : Team) : Mask := maskOf t.width (fun l => (t.thread l).waiting)

/-- Lowest lane of a mask; 64 for none. -/
def lowLane (m : Mask) : Nat := (lanesOf m).headD 64

/-- The team is converged at the group `g` (R31): every live lane is in the group and none waits. -/
def Team.converged (t : Team) (g : Mask) : Bool :=
  decide (t.live = g) && decide (t.waitingLanes &&& t.live = 0) && decide (g ≠ 0)

/-! ## Vector registers (R44, R48, R51) -/

/-- The register as it stands before any write: unset, reading zero. -/
def VReg.unset (w : Nat) : VReg := { tag := .unset, elems := List.replicate w Elem.zero }

/-- A vector register of a team. -/
def Team.vreg (t : Team) (n : Nat) : VReg := (tabGet t.vregs n).getD (VReg.unset t.width)

/-- One element of a vector register. -/
def Team.velem (t : Team) (n l : Nat) : Elem := (t.vreg n).elems.getD l Elem.zero

/-- The register has never been written (R51). -/
def Team.isUnset (t : Team) (n : Nat) : Bool := decide ((t.vreg n).tag = .unset)

/-- The shape tag of contents under rules 2 to 5 of R48. -/
def tagOf (es : List Elem) : Tag :=
  match es with
  | [] => .uniform
  | e0 :: rest =>
    if es.any (fun e => e.pois) then .general
    else if rest.all (fun e => decide (e.val = e0.val)) then .uniform
    else
      let d := (rest.headD e0).val - e0.val
      if (mapIx (fun i e => decide (e.val = e0.val + BitVec.ofNat 32 i * d)) es).all id then .affine else .general

/-- The team with elements of one register written in the lanes of a list, tagged under R48; `spread` is rule 1: the
instruction's lanes resolved to more than one register. -/
def Team.vwrite (t : Team) (n : Nat) (spread : Bool) (ws : List (Nat × Elem)) : Team :=
  let es := (List.range t.width).map (fun l => ((ws.find? (fun p => decide (p.1 = l))).map (fun p => p.2)).getD (t.velem n l))
  { t with vregs := tabSet t.vregs n { tag := if spread then .general else tagOf es, elems := es } }

/-- The team after per-lane writes of possibly different registers, (register, lane, element) triples, of which rule 1 of R48 holds or not. -/
def Team.vwriteAs (t : Team) (spread : Bool) (ws : List (Nat × Nat × Elem)) : Team :=
  ((ws.map (fun p => p.1)).eraseDups).foldl (fun t n =>
    t.vwrite n spread ((ws.filter (fun p => decide (p.1 = n))).map (fun p => p.2))) t

/-- The team after the writes of all the lanes that executed an instruction (R48, R54). -/
def Team.vwriteAll (t : Team) (ws : List (Nat × Nat × Elem)) : Team :=
  t.vwriteAs (decide (1 < ((ws.map (fun p => p.1)).eraseDups).length)) ws

/-! ## Scalar, mask and predicate registers -/

/-- A scalar register with its poison bit. -/
def Team.sreg (t : Team) (n : Nat) : Elem := t.sregs.getD n Elem.zero

/-- The team with one scalar register written. -/
def Team.setSreg (t : Team) (n : Nat) (e : Elem) : Team := { t with sregs := putAt 24 Elem.zero t.sregs n e }

/-- A pair of scalar registers, low word first (R40). -/
def Team.spair (t : Team) (n : Nat) : DWord := (t.sreg (n + 1)).val ++ (t.sreg n).val

/-- A poisoned register in a pair. -/
def Team.spairPois (t : Team) (n : Nat) : Bool := (t.sreg n).pois || (t.sreg (n + 1)).pois

/-- The team with a pair of scalar registers written. -/
def Team.setSpair (t : Team) (n : Nat) (v : DWord) (p : Bool) : Team :=
  (t.setSreg n { val := bits v 0 32, pois := p }).setSreg (n + 1) { val := bits v 32 32, pois := p }

/-- A mask register; bits at or above the width read zero (R41). -/
def Team.mreg (t : Team) (n : Nat) : Mask := t.mregs.getD n 0 &&& fullMask t.width

/-- The team with a mask register written; bits at or above the width are ignored (R41). -/
def Team.setMreg (t : Team) (n : Nat) (v : Mask) : Team := { t with mregs := putAt 12 0 t.mregs n (v &&& fullMask t.width) }

/-- Value of predicate n in lane l. -/
def Team.pred (t : Team) (n l : Nat) : Bool := (t.thread l).pval.getLsbD n

/-- Poison of predicate n in lane l. -/
def Team.predPois (t : Team) (n l : Nat) : Bool := (t.thread l).ppois.getLsbD n

/-- A 24-bit set with one bit written. -/
def put24 (m : BitVec 24) (n : Nat) (b : Bool) : BitVec 24 :=
  if b then m ||| BitVec.ofNat 24 (2 ^ n) else m &&& ~~~ (BitVec.ofNat 24 (2 ^ n))

/-- The team with predicate n of lane l written. -/
def Team.setPred (t : Team) (n l : Nat) (v p : Bool) : Team :=
  let th := t.thread l
  t.setThread l { th with pval := put24 th.pval n v, ppois := put24 th.ppois n p }

/-- A pair of vector elements in one lane, low word in the even register (R40). -/
def Team.vpair (t : Team) (n l : Nat) : DWord := (t.velem (n + 1) l).val ++ (t.velem n l).val

/-! ## Barrier objects (R227, R302) -/

/-- One CPS of a phase fewer: it was counted on the object's current phase or on the next one. -/
def Barrier.cpsDone (x : Barrier) (phase : Word) : Barrier :=
  if phase = x.phase then { x with cps := x.cps - 1 } else { x with later := x.later - 1 }

/-! ## Completion flags (R113) -/

/-- A completion flag; 15 names none and reads zero. -/
def Team.flag (t : Team) (i : Nat) : BitVec 4 := t.flags.getD i 0

/-- The team with one more operation counted on each selected flag. -/
def Team.incFlags (t : Team) (a b : Nat) : Team :=
  let f := fun (fs : List (BitVec 4)) (i : Nat) => if i < 12 then putAt 12 0 fs i (fs.getD i 0 + 1) else fs
  { t with flags := f (f t.flags a) b }

/-- Counters with one operation fewer on each of two flags. -/
def decCounts (fs : List (BitVec 4)) (a b : Nat) : List (BitVec 4) :=
  let f := fun (fs : List (BitVec 4)) (i : Nat) =>
    if i < 12 then (if fs.getD i 0 = 0 then fs else putAt 12 0 fs i (fs.getD i 0 - 1)) else fs
  f (f fs a) b

/-- The team with an operation counted before its frame, when `held`, or since, taken off its flags (R412). -/
def Team.decFlags (t : Team) (a b : Nat) (held : Bool) : Team :=
  match held, t.frame with
  | true, some f => { t with frame := some { f with flags := decCounts f.flags a b } }
  | _, _ => { t with flags := decCounts t.flags a b }

/-! ## Replay queue (R211, R412) -/

/-- Entries of a team that are suspended in its frame. -/
def Team.suspended (t : Team) : Nat := match t.frame with | some f => f.nrq | none => 0

/-- An entry that may make progress: not suspended in a frame, and its team neither away nor frozen outside a handler. -/
def Team.activeEntry (t : Team) (o : Nat) : Option Entry :=
  match t.run with
  | .away => none
  | _ => (t.entries.drop t.suspended).find? (fun e => decide (e.order = o) && !e.dropped)

/-- The team with an entry replaced. -/
def Team.setEntry (t : Team) (e : Entry) : Team :=
  { t with entries := t.entries.map (fun x => if x.order = e.order then e else x) }

/-- The team with an entry completed: removed from the queue and taken off its flags (R113). -/
def Team.finish (t : Team) (e : Entry) : Team :=
  ({ t with entries := t.entries.filter (fun x => decide (x.order ≠ e.order)) }).decFlags e.fla e.flb false

/-- Vector registers busy by the unfinished operations of the team (R28, R56, R211). -/
def Team.busyVec (t : Team) : List Nat := (t.entries.drop t.suspended).flatMap (fun e => e.busy)

/-- Scalar registers busy. -/
def Team.busyScalar (t : Team) : List Nat := (t.entries.drop t.suspended).flatMap (fun e => e.sbusy)

end Sys2Proof.Machine
end

