-- ==== Sys2Proof/Machine/Operands.lean ====
section
/-!
DEFINITION. Machine/Operands: the register form (R115), what an operand field may hold (R116), indirection (R117, R54, R55),
the busy windows of the scoreboard (R56, R211), and reads of unset registers (R51).
-/

namespace Sys2Proof.Machine

/-- An instruction of the register form, a short one filled in as R115 says. -/
structure Reg where
  short : Bool
  d : Nat
  a : Nat
  b : Nat
  c : Nat
  g : Nat
  gn : Bool
  id : Bool
  ia : Bool
  ib : Bool
  ic : Bool
  fi : Bool
  fo : Bool
  t : Nat
  x : Nat
  deriving DecidableEq, Repr

/-- The long form that a short form stands for; `t` is the OP's default type (R115). -/
def Reg.ofShort (t : Nat) (o : ShortOps) : Reg :=
  { short := true, d := o.d.toNat, a := o.a.toNat, b := o.b.toNat, c := 0, g := 31, gn := false, id := false, ia := false,
    ib := false, ic := false, fi := false, fo := false, t := t, x := 0 }

/-- A long form. -/
def Reg.ofLong (o : LongOps) : Reg :=
  { short := false, d := o.d.toNat, a := o.a.toNat, b := o.b.toNat, c := o.c.toNat, g := o.g.toNat, gn := o.gn, id := o.id,
    ia := o.ia, ib := o.ib, ic := o.ic, fi := o.fi, fo := o.fo, t := o.t.toNat, x := o.x.toNat }

/-- A bit of X. -/
def Reg.xb (r : Reg) (i : Nat) : Bool := decide (r.x / 2 ^ i % 2 = 1)

/-- Bits [lo + n − 1 : lo] of X. -/
def Reg.xf (r : Reg) (lo n : Nat) : Nat := r.x / 2 ^ lo % 2 ^ n

/-- The flag selection of R113: bit 0 for A, bit 1 for B. -/
def Reg.fsel (r : Reg) : Nat := if r.short then 1 else r.xf 6 2

/-- What an operand field names. -/
inductive Fld where
  /-- Must be zero. -/
  | zero
  /-- A vector register. -/
  | vec
  /-- A 64-bit pair of vector registers, even when direct. -/
  | pair
  /-- The first of n vector registers, direct, the run ending at or below v255. -/
  | run (n : Nat)
  /-- The first of n vector registers, at a multiple of n; indirect only for n = 1 (R210). -/
  | aligned (n : Nat)
  /-- The first of n vector registers whose run the instruction checks itself (R242, R244). -/
  | loose (n : Nat)
  /-- A register number below a limit. -/
  | num (lim : Nat)
  /-- An even scalar register. -/
  | spair
  /-- A scalar register, or 31 for none. -/
  | scalarOpt
  /-- An even scalar register, or 31 for none. -/
  | spairOpt
  /-- Any value. -/
  | any
  deriving DecidableEq, Repr

/-- An indirect field is well formed (R117). -/
def indOk (f : Nat) : Bool := decide (f / 32 ≠ 7) && decide (f / 8 % 4 = 0)

/-- A field holds what it may (R116, R117). -/
def Fld.ok (k : Fld) (ind : Bool) (f : Nat) : Bool :=
  match k with
  | .zero => !ind && decide (f = 0)
  | .vec => !ind || indOk f
  | .pair => if ind then indOk f else decide (f % 2 = 0)
  | .run n => !ind && decide (f + n ≤ 256)
  | .aligned n => if ind then decide (n = 1) && indOk f else decide (f % n = 0) && decide (f + n ≤ 256)
  | .loose _ => !ind
  | .num lim => !ind && decide (f < lim)
  | .spair => !ind && decide (f < 24) && decide (f % 2 = 0)
  | .scalarOpt => !ind && (decide (f < 24) || decide (f = 31))
  | .spairOpt => !ind && ((decide (f < 24) && decide (f % 2 = 0)) || decide (f = 31))
  | .any => !ind

/-- Vector registers of an operand in one lane. -/
def Fld.width : Fld → Nat
  | .vec => 1
  | .pair => 2
  | .run n => n
  | .aligned n => n
  | .loose n => n
  | _ => 0

/-- What an instruction's encoding is held against. -/
structure Form where
  /-- Engine class (R110); 7 for any. -/
  cls : Nat := 7
  d : Fld := .zero
  a : Fld := .zero
  b : Fld := .zero
  c : Fld := .zero
  /-- D is a source. -/
  dread : Bool := false
  /-- A is resolved in every lane of the group (R161). -/
  aAll : Bool := false
  /-- Allowed type codes (R141). -/
  types : List Nat := [0]
  /-- The X bits and the fields that depend on them hold what they may. -/
  x : Bool := true
  /-- FI and FO may be set; a PFX rounding and saturation may stand before it. -/
  fi : Bool := false
  fo : Bool := false
  rnd : Bool := false
  sat : Bool := false
  deriving DecidableEq, Repr

/-- The four operand fields: kind, indirection flag, value. -/
def Form.fields (F : Form) (r : Reg) : List (Fld × Bool × Nat) :=
  [(F.d, r.id, r.d), (F.a, r.ia, r.a), (F.b, r.ib, r.b), (F.c, r.ic, r.c)]

/-- Index register and mode of every indirect operand. -/
def Reg.inds (r : Reg) : List (Nat × Nat) :=
  ([(r.id, r.d), (r.ia, r.a), (r.ib, r.b), (r.ic, r.c)].filter (fun p => p.1)).map (fun p => (p.2 % 8, p.2 / 32))

/-- At most one operand modifies an index register (R55). -/
def Reg.oneModify (r : Reg) : Bool :=
  (List.range 8).all (fun x => decide ((r.inds.filter (fun p => decide (p.1 = x ∧ p.2 ≠ 0))).length ≤ 1))

/-- The field checks of R115 to R117 and R141. -/
def Form.ok (F : Form) (r : Reg) : Bool :=
  (decide (r.g < 24) || (decide (r.g = 31) && !r.gn)) && F.types.contains r.t && F.x &&
  (!r.fi || F.fi) && (!r.fo || F.fo) && (F.fields r).all (fun p => p.1.ok p.2.1 p.2.2) && r.oneModify

/-! ## Index registers (R53, R54) -/

/-- bound(x) of R54. -/
def xBound (x : Word) : Nat := if bitsN x 8 8 = 0 then 256 else bitsN x 8 8

/-- adjust(x, k) of R54. -/
def xAdjust (x : Word) (k : Int) : Nat := (k % ((if bit x 28 then xBound x else 256 : Nat) : Int)).toNat

/-- delta(mode, x) of R54. -/
def xDelta (m : Nat) (x : Word) : Int :=
  let st := sextN 4 (bitsN x 24 4)
  match m with
  | 1 => 1
  | 5 => 1
  | 2 => -1
  | 6 => -1
  | 3 => st
  | 4 => -st
  | _ => 0

/-- An index register with its INDEX replaced. -/
def xSetIndex (x : Word) (i : Nat) : Word := (x &&& 0xFF00FFFF) ||| put 32 16 (BitVec.ofNat 8 i)

/-- The mode that modifies an index register in this instruction; 0 for none. -/
def Reg.modeOf (r : Reg) (x : Nat) : Nat := ((r.inds.find? (fun p => decide (p.1 = x ∧ p.2 ≠ 0))).getD (0, 0)).2

/-- The position i of R54: after a pre-modification and the circular window. -/
def Reg.position (r : Reg) (n : Nat) (x : Word) : Nat :=
  let m := r.modeOf n
  let i := if m = 5 ∨ m = 6 then xAdjust x ((bitsN x 16 8 : Nat) + xDelta m x) else bitsN x 16 8
  if bit x 28 then i % xBound x else i

/-- The register an indirect field resolves to in a lane; none where it fails (R54). -/
def Reg.resolve (r : Reg) (wide : Bool) (f : Nat) (th : Thread) : Option Nat :=
  let x := th.x.getD (f % 8) 0
  let i := r.position (f % 8) x
  let n := bitsN x 0 8 + i
  if !bit x 28 && decide (xBound x ≤ i) then none
  else if 255 < n ∨ (wide ∧ (n % 2 = 1 ∨ n = 255)) then none
  else some n

/-- A lane's index registers after the instruction (R54). -/
def Reg.modified (r : Reg) (th : Thread) : Thread :=
  { th with x := (List.range 8).map (fun n =>
      let x := th.x.getD n 0
      let m := r.modeOf n
      if m = 0 then x
      else
        let i := r.position n x
        xSetIndex x (if m = 5 ∨ m = 6 then i else xAdjust x ((i : Nat) + xDelta m x))) }

/-- The register of one operand in a lane. -/
def Team.target (t : Team) (r : Reg) (k : Fld) (ind : Bool) (f l : Nat) : Option Nat :=
  if ind then r.resolve (decide (k = .pair)) f (t.thread l) else some f

/-- Lanes where an operand does not resolve: those of E, and of the whole group for PEEK's source (R54, R161). -/
def Team.failLanes (t : Team) (F : Form) (r : Reg) (e g : Mask) : Mask :=
  let bad := fun (k : Fld) (ind : Bool) (f l : Nat) => (t.target r k ind f l).isNone
  maskOf t.width (fun l =>
    (e.getLsbD l && (bad F.d r.id r.d l || bad F.a r.ia r.a l || bad F.b r.ib r.b l || bad F.c r.ic r.c l))
    || (F.aAll && g.getLsbD l && bad F.a r.ia r.a l))

/-- Resolved numbers of D, A, B and C in every lane (R58); 0 where an operand is not a vector register of that lane. -/
def Team.targets (t : Team) (F : Form) (r : Reg) : List (List Nat) :=
  (List.range t.width).map (fun l => (F.fields r).map (fun p => (t.target r p.1 p.2.1 p.2.2 l).getD 0))

/-- Resolved number of operand k (0 D, 1 A, 2 B, 3 C) in lane l. -/
def tgAt (tg : List (List Nat)) (l k : Nat) : Nat := (tg.getD l []).getD k 0

/-! ## Guards (R148) -/

/-- Executing lanes of a group. -/
def Reg.lanes (r : Reg) (t : Team) (g : Mask) : Mask :=
  if r.g = 31 then g else g &&& maskOf t.width (fun l => t.pred r.g l != r.gn)

/-- Lanes of the group whose guard is poisoned. -/
def Reg.guardPois (r : Reg) (t : Team) (g : Mask) : Mask :=
  if r.g = 31 then 0 else g &&& maskOf t.width (fun l => t.predPois r.g l)

/-! ## Scoreboard (R28, R56, R211) -/

/-- The window of an index register (R56). -/
def xWindow (x : Word) : List Nat :=
  (List.range (min (xBound x) (256 - bitsN x 0 8))).map (fun i => bitsN x 0 8 + i)

/-- Registers that an operand may touch: its run, or the windows of the executing lanes. -/
def Team.span (t : Team) (e : Mask) (k : Fld) (ind : Bool) (f : Nat) : List Nat :=
  if k.width = 0 then []
  else if ind then ((lanesOf e).flatMap (fun l => xWindow ((t.thread l).x.getD (f % 8) 0))).eraseDups
  else (List.range k.width).map (fun i => f + i)

/-- An instruction must wait: a register of its is busy or absent from the register cache (R28, R46, R56); PEEK's source is taken
in every lane of the group (R54). -/
def Team.mustWait (t : Team) (F : Form) (r : Reg) (e g : Mask) : Bool :=
  let busy := t.busyVec ++ t.absent
  let hit := fun (m : Mask) (k : Fld) (ind : Bool) (f : Nat) => (t.span m k ind f).any (fun n => busy.contains n)
  !busy.isEmpty && (hit e F.d r.id r.d || hit (if F.aAll then g else e) F.a r.ia r.a || hit e F.b r.ib r.b || hit e F.c r.ic r.c)

/-- Scalar registers that must be free. -/
def Team.scalarsBusy (t : Team) (ns : List Nat) : Bool := ns.any (fun n => t.busyScalar.contains n)

/-! ## Sources -/

/-- Registers that the executing lanes read. -/
def Form.reads (F : Form) (r : Reg) (e g : Mask) (tg : List (List Nat)) : List Nat :=
  let one := fun (k : Fld) (i : Nat) (m : Mask) =>
    if k.width = 0 then [] else (lanesOf m).flatMap (fun l => (List.range k.width).map (fun j => tgAt tg l i + j))
  (one F.a 1 (if F.aAll then g else e) ++ one F.b 2 e ++ one F.c 3 e ++ (if F.dread then one F.d 0 e else [])).eraseDups

/-- The lowest unset register read (R51, R411). -/
def Team.unsetRead (t : Team) (ns : List Nat) : Option Nat :=
  (ns.filter t.isUnset).foldl (fun m n => match m with | none => some n | some k => some (min k n)) none

/-- An element of operand k in lane l. -/
def Team.src (t : Team) (tg : List (List Nat)) (k l : Nat) : Elem := t.velem (tgAt tg l k) l

/-- Element j of the run of operand k in lane l. -/
def Team.srcAt (t : Team) (tg : List (List Nat)) (k j l : Nat) : Elem := t.velem (tgAt tg l k + j) l

/-- The pair of operand k in lane l. -/
def Team.srcPair (t : Team) (tg : List (List Nat)) (k l : Nat) : DWord := t.vpair (tgAt tg l k) l

/-- A pair with a poisoned half. -/
def Team.srcPairPois (t : Team) (tg : List (List Nat)) (k l : Nat) : Bool :=
  (t.srcAt tg k 0 l).pois || (t.srcAt tg k 1 l).pois

/-- The team after results of the lanes of a mask: word j of the run of operand k in each lane (R48, R54). -/
def Team.dst (t : Team) (tg : List (List Nat)) (k j : Nat) (m : Mask) (f : Nat → Elem) : Team :=
  t.vwriteAll ((lanesOf m).map (fun l => (tgAt tg l k + j, l, f l)))

/-- A run of results: word j of each lane is `f j l`. -/
def Team.dstRun (t : Team) (tg : List (List Nat)) (k n : Nat) (m : Mask) (f : Nat → Nat → Elem) : Team :=
  (List.range n).foldl (fun t j => t.dst tg k j m (f j)) t

/-- A 64-bit result in each lane. -/
def Team.dstPair (t : Team) (tg : List (List Nat)) (k : Nat) (m : Mask) (v : Nat → DWord) (p : Nat → Bool) : Team :=
  (t.dst tg k 0 m (fun l => { val := bits (v l) 0 32, pois := p l })).dst tg k 1 m (fun l => { val := bits (v l) 32 32, pois := p l })

end Sys2Proof.Machine
end

