-- ==== Sys2Proof/Machine/Phys.lean ====
section
/-!
DEFINITION. Machine/Phys: physical memory. The decode of physical addresses (R457), the points at which accesses are
performed (R86, R87), poisoned lines (R447), and the memories of a block on its core (R292, R298).
-/

namespace Sys2Proof.Machine

/-- What a byte of memory that nothing has written reads as (log entry 2). -/
def emptyByte : Byte := 0

/-- Memory is in its one canonical form: addresses strictly rising, no entry equal to what an unlisted address reads as. -/
def Memory.wf (m : List Host.Cell) : Bool := defWf emptyByte m

/-- A physical target (R457). -/
inductive Target where
  | hbm (die : Nat)
  | capacity (die : Nat)
  | host
  | relay (port : Nat)
  | bar0 (off : Nat)
  | doorbell (off : Nat)
  | none
  deriving DecidableEq, Repr

/-- MEM_CFG of a die: installed HBM4E in [15:0] and capacity tier in [31:16], in GiB (R395). -/
def State.memOf (s : State) (d : Nat) : Word := defGet 0x00400060 s.memCfg d

/-- The decode of a physical address (R457). -/
def State.target (s : State) (pa : Nat) : Target :=
  if pa < 2 ^ 43 then
    let d := pa / 2 ^ 40
    let o := pa % 2 ^ 40
    if !s.hasDie d then .none
    else if o < (bitsN (s.memOf d) 0 16) * 2 ^ 30 then .hbm d
    else if 0x2000000000 ≤ o ∧ o < 0x2000000000 + (bitsN (s.memOf d) 16 16) * 2 ^ 30 then .capacity d
    else .none
  else if pa < 0x8000000000000 then .none
  else if pa < 0xC000000000000 then .host
  else if pa < 0xD000000000000 then
    let p := (pa - 0xC000000000000) / 2 ^ 44
    if s.relayUp.getLsbD p then .relay p else .none
  else if pa < 0xD000001000000 then .bar0 (pa - 0xD000000000000)
  else if pa < 0xD000001008000 then .doorbell (pa - 0xD000001000000)
  else .none

/-- Home die of a physical address; host and remote memory are reached through die 0 and the port's die (R439, R457). -/
def State.homeDie (s : State) (pa : Nat) : Nat :=
  match s.target pa with
  | .hbm d => d
  | .capacity d => d
  | .relay p => p / 2
  | _ => 0

/-- Storage where an access of a scope is performed (R86): the core's L1, its die's cache, or the home slice. -/
inductive Point where
  | l1 (die core : Nat)
  | die (die : Nat)
  | home
  deriving DecidableEq, Repr

/-- The point of a scope code (R86, R173) for a thread on a core. -/
def pointOf (scope d c : Nat) : Point :=
  if scope ≤ 2 then .l1 d c else if scope ≤ 4 then .die d else .home

/-- The point at which a core's access of a scope to an address is performed: that of the scope; for memory of another device its home slice
there, whatever the scope (R445). -/
def State.pointAt (s : State) (scope d c pa : Nat) : Point :=
  match s.target pa with
  | .relay _ => .home
  | _ => pointOf scope d c

/-- 128-byte line of an address. -/
def lineOf (pa : Nat) : Nat := pa / 128

/-- The lines of n bytes at an address. -/
def linesIn (pa n : Nat) : List Nat :=
  if n = 0 then [] else (List.range (lineOf (pa + n - 1) - lineOf pa + 1)).map (fun i => lineOf pa + i)

/-! ## One byte at a point -/

/-- The byte that the home slice holds. -/
def State.homeByte (s : State) (pa : Nat) : Byte := defGet emptyByte s.mem pa

/-- The byte visible at a die cache. -/
def State.dieByte (s : State) (d pa : Nat) : Byte := (tabGet (s.die d).dirty pa).getD (s.homeByte pa)

/-- The byte visible at a core's L1: one it wrote, else its copy of the line, else the die cache's (R87). -/
def State.l1Byte (s : State) (d c pa : Nat) : Byte :=
  let k := s.core d c
  match tabGet k.dirty pa with
  | some b => b
  | none =>
    match tabGet k.clean (lineOf pa) with
    | some bs => bs.getD (pa % 128) emptyByte
    | none => s.dieByte d pa

/-- The byte visible at a point. -/
def State.byteAt (s : State) (p : Point) (pa : Nat) : Byte :=
  match p with
  | .l1 d c => s.l1Byte d c pa
  | .die d => s.dieByte d pa
  | .home => s.homeByte pa

/-- Bytes visible at a point, lowest first. -/
def State.bytesAt (s : State) (p : Point) (pa n : Nat) : List Byte := (List.range n).map (fun i => s.byteAt p (pa + i))

/-- A little-endian number of n bytes at the home slice. -/
def State.homeNum (s : State) (pa n : Nat) : Nat := ofLeBytes (s.bytesAt .home pa n)

/-- A clean copy of a line with one byte replaced, where the copy exists. -/
def patchClean (cl : List (Nat × List Byte)) (pa : Nat) (b : Byte) : List (Nat × List Byte) :=
  match tabGet cl (lineOf pa) with
  | some bs => tabSet cl (lineOf pa) (setAt bs (pa % 128) b)
  | none => cl

/-- Records of a write to a byte dropped at the cores of the dies that a test names: a coherence-later write has been performed wider (R88). -/
def State.dropL1 (s : State) (dies : Nat → Bool) (pa : Nat) : State :=
  { s with cores := s.cores.map (fun p => if dies (p.1 / 64) then (p.1, { p.2 with dirty := tabDel p.2.dirty pa }) else p) }

/-- Every die's record of a write to a byte dropped. -/
def State.dropDie (s : State) (pa : Nat) : State :=
  { s with dies := s.dies.map (fun p => (p.1, { p.2 with dirty := tabDel p.2.dirty pa })) }

/-- A byte written at the home slice; visible at once at every die cache (R87). -/
def State.putHome (s : State) (pa : Nat) (b : Byte) : State :=
  let s := (s.dropL1 (fun _ => true) pa).dropDie pa
  { s with mem := defSet emptyByte s.mem pa b }

/-- A byte that a die cache held becomes visible at home (R87). Writes of the die's own cores to it are coherence-later and stay; those that
other dies hold are unordered with it, and it follows them in coherence order (R88). -/
def State.moveHome (s : State) (d pa : Nat) (b : Byte) : State :=
  let s := (s.dropL1 (fun e => decide (e ≠ d)) pa).dropDie pa
  { s with mem := defSet emptyByte s.mem pa b }

/-- A byte written at a die cache. -/
def State.putDie (s : State) (d pa : Nat) (b : Byte) : State :=
  let s := s.dropL1 (fun e => decide (e = d)) pa
  s.setDie d { s.die d with dirty := tabSet (s.die d).dirty pa b }

/-- A byte written at a core's L1. -/
def State.putL1 (s : State) (d c pa : Nat) (b : Byte) : State :=
  let k := s.core d c
  s.setCore d c { k with dirty := tabSet k.dirty pa b, clean := patchClean k.clean pa b }

/-- A byte written at a point by a thread of a core; the core's own copy of the line follows (R89, R90). -/
def State.putByte (s : State) (p : Point) (pa : Nat) (b : Byte) : State :=
  match p with
  | .l1 d c => s.putL1 d c pa b
  | .die d => s.putDie d pa b
  | .home => s.putHome pa b

/-- Bytes written at a point, lowest first. -/
def State.putBytes (s : State) (p : Point) (pa : Nat) (bs : List Byte) : State :=
  (mapIx (fun i b => (i, b)) bs).foldl (fun s ib => s.putByte p (pa + ib.1) ib.2) s

/-- The issuing core's clean copy of a line takes a byte that the core wrote wider. -/
def State.ownCopy (s : State) (d c pa : Nat) (b : Byte) : State :=
  let k := s.core d c
  if (tabGet k.clean (lineOf pa)).isSome then s.setCore d c { k with clean := patchClean k.clean pa b } else s

/-- Bytes written by a core's access at the point of its scope. -/
def State.storeBytes (s : State) (scope d c pa : Nat) (bs : List Byte) : State :=
  let s := s.putBytes (s.pointAt scope d c pa) pa bs
  (mapIx (fun i b => (i, b)) bs).foldl (fun s ib => s.ownCopy d c (pa + ib.1) ib.2) s

/-- Every byte of a line lies in one of the writes given: physical address and size. -/
def lineCovered (ws : List (Nat × Nat)) (ln : Nat) : Bool :=
  (List.range 128).all (fun i => ws.any (fun w => decide (w.1 ≤ ln * 128 + i) && decide (ln * 128 + i < w.1 + w.2)))

/-- Writes performed as one clear the poison of the lines whose 128 bytes they cover (R447). -/
def State.cleanLines (s : State) (ws : List (Nat × Nat)) : State := { s with bad := s.bad.filter (fun p => !lineCovered ws p.1) }

/-- A line marked poisoned. -/
def State.poisonLine (s : State) (ln : Nat) : State := { s with bad := defSet false s.bad ln true }

/-- The lines of n bytes marked poisoned. -/
def State.poisonLines (s : State) (pa n : Nat) : State :=
  (linesIn pa n).foldl (fun s ln => s.poisonLine ln) s

/-- Writes of a core performed as one clear the poison of the lines that they cover, of its own copies as well (R447). -/
def State.cleanOwn (s : State) (d c : Nat) (ws : List (Nat × Nat)) : State :=
  let s := s.cleanLines ws
  let k := s.core d c
  if k.bad.any (fun p => lineCovered ws p.1) then s.setCore d c { k with bad := k.bad.filter (fun p => !lineCovered ws p.1) } else s

/-- Bytes written at the home slice by the device itself. -/
def State.homeWrite (s : State) (pa : Nat) (bs : List Byte) : State := (s.putBytes .home pa bs).cleanLines [(pa, bs.length)]

/-- A little-endian number written at the home slice. -/
def State.homePut (s : State) (pa n v : Nat) : State := s.homeWrite pa (leBytes n v)

/-! ## Lines of the caches -/

/-- The 128 bytes of a line as the die cache shows them. -/
def State.dieLine (s : State) (d ln : Nat) : List Byte := s.bytesAt (.die d) (ln * 128) 128

/-- The 128 bytes of a line as a refill gives them to a core: what the die cache shows, with the core's own writes over it (R90). -/
def State.refill (s : State) (d c ln : Nat) : List Byte :=
  mapIx (fun i b => (tabGet (s.core d c).dirty (ln * 128 + i)).getD b) (s.dieLine d ln)

/-- A load performed in L1 finds an older copy of its line, or refills it: which of the two is open (R87, R95). -/
def State.touchLine (s : State) (d c ln : Nat) : State :=
  let k := s.core d c
  let cur := s.refill d c ln
  match tabGet k.clean ln with
  | none => s.setCore d c { k with clean := tabSet k.clean ln cur }
  | some old =>
    if old = cur then s
    else if Config.keepLine s.fresh then s.tickFresh
    else (s.setCore d c { k with clean := tabSet k.clean ln cur }).tickFresh

/-- The lines of an access touched when its point is an L1. -/
def State.touch (s : State) (p : Point) (pa n : Nat) : State :=
  match p with
  | .l1 d c => (linesIn pa n).foldl (fun s ln => s.touchLine d c ln) s
  | _ => s

/-- Lines that bytes of a core's poisoned lines leave for the die cache: poisoned from then on there as well (R447). -/
def State.poisonMoved (s : State) (k : Core) (moved : List (Nat × Byte)) : State :=
  { s with bad := (k.bad.filter (fun p => moved.any (fun m => decide (lineOf m.1 = p.1)))).foldl (fun b p => defSet false b p.1 true) s.bad }

/-- Bytes of a line that a core wrote, made visible at its die cache (R87). -/
def State.flushLine (s : State) (d c : Nat) (ln : Nat) : State :=
  let k := s.core d c
  let mine := k.dirty.filter (fun p => decide (lineOf p.1 = ln))
  let s := s.setCore d c { k with dirty := k.dirty.filter (fun p => decide (lineOf p.1 ≠ ln)) }
  mine.foldl (fun s p => s.putDie d p.1 p.2) (s.poisonMoved k mine)

/-- Every byte that a core wrote, made visible at its die cache. -/
def State.flushCore (s : State) (d c : Nat) : State :=
  let k := s.core d c
  let s := s.setCore d c { k with dirty := [] }
  k.dirty.foldl (fun s p => s.putDie d p.1 p.2) (s.poisonMoved k k.dirty)

/-- Bytes of a line written at a die cache, made visible at home (R87). -/
def State.flushDieLine (s : State) (d : Nat) (ln : Nat) : State :=
  let x := s.die d
  let mine := x.dirty.filter (fun p => decide (lineOf p.1 = ln))
  mine.foldl (fun s p => s.moveHome d p.1 p.2) s

/-- Every byte written at a die cache, made visible at home. -/
def State.flushDie (s : State) (d : Nat) : State := (s.die d).dirty.foldl (fun s p => s.moveHome d p.1 p.2) s

/-- Every write on the device made visible at home: what has happened is visible at .dv and .sy (R27, R94, R365, R368). -/
def State.publishAll (s : State) : State :=
  let s := s.cores.foldl (fun s (p : Nat × Core) => s.flushCore (p.1 / 64) (p.1 % 64)) s
  s.dies.foldl (fun s (p : Nat × Die) => s.flushDie p.1) s

/-- What a release of a scope makes visible at the scope's point (R89, R91). -/
def State.release (s : State) (scope d c : Nat) : State :=
  if scope ≤ 2 then s else if scope ≤ 4 then s.flushCore d c else (s.flushCore d c).flushDie d

/-- What an acquire of a scope drops: for .cl and wider the core's copies of lines (R87, R89, R91). -/
def State.acquire (s : State) (scope d c : Nat) : State :=
  if scope ≤ 2 then s else
    let s := s.flushCore d c
    s.setCore d c { s.core d c with clean := [] }

/-! ## Poisoned lines (R447) -/

/-- The controller of a compressed block's home memory (log entry 14). -/
def State.ctlOf (s : State) (pa : Nat) : Nat × Nat :=
  match s.target pa with
  | .hbm d => (d, pa / 512 % 2)
  | .capacity d => (d, 2 + pa / 512 % 2)
  | _ => (0, 0)

/-- A controller of a die. -/
def State.ctl (s : State) (d k : Nat) : Ctl := (s.die d).ctls.getD k Ctl.reset

/-- A block whose metadata nibble is invalid: every line of it reads as uncorrectable data (R305). DESIGN CHOICE (log entry 55): a block
never stored reads its bytes. -/
def State.metaBad (s : State) (pa : Nat) : Bool :=
  match tabGet (s.ctl (s.ctlOf pa).1 (s.ctlOf pa).2).chunks (pa / 512) with
  | some c => decide (c = 0) || decide (8 < c)
  | none => false

/-- The line of an address is poisoned at home. -/
def State.lineBad (s : State) (pa : Nat) : Bool := defGet false s.bad (lineOf pa) || s.metaBad pa

/-- A read at a point meets uncorrectable data (R212 row 6, R447). -/
def State.readBad (s : State) (p : Point) (pa : Nat) : Bool :=
  match p with
  | .l1 d c => s.lineBad pa || defGet false (s.core d c).bad (lineOf pa)
  | _ => s.lineBad pa

/-! ## Memories of a block on its core (R292 to R298) -/

/-- An access lies inside an allocation. -/
def Bank.inside (b : Bank) (o n : Nat) : Bool := decide (o + n ≤ b.size)

/-- Bytes of an on-chip memory. -/
def Bank.read (b : Bank) (o n : Nat) : List Byte := (List.range n).map (fun i => defGet emptyByte b.bytes (o + i))

/-- A byte read lies in a word marked poisoned (R298). -/
def Bank.poisoned (b : Bank) (o n : Nat) : Bool := (List.range n).any (fun i => defGet false b.pois ((o + i) / 4))

/-- Bytes written with data that is not poisoned: a word written whole loses its mark (R298). -/
def Bank.write (b : Bank) (o : Nat) (bs : List Byte) : Bank :=
  let lo := (o + 3) / 4
  let hi := (o + bs.length) / 4
  { b with
    bytes := (mapIx (fun i x => (i, x)) bs).foldl (fun t ix => defSet emptyByte t (o + ix.1) ix.2) b.bytes
    pois := (List.range (hi - lo)).foldl (fun t i => defSet false t (lo + i) false) b.pois }

/-- The words of n bytes marked poisoned. -/
def Bank.mark (b : Bank) (o n : Nat) : Bank :=
  if n = 0 then b
  else { b with pois := (List.range ((o + n - 1) / 4 - o / 4 + 1)).foldl (fun t i => defSet false t (o / 4 + i) true) b.pois }

/-- Scratchpad or tile memory of a block. -/
def State.bankOf (s : State) (b : Block) (sp : Space) : Bank :=
  match sp with
  | .tile => (tabGet s.tmems b.tmem).getD (Bank.zero 0)
  | _ => b.scratch

/-- Scratchpad or tile memory of a block replaced. -/
def State.setBank (s : State) (b : Block) (sp : Space) (k : Bank) : State :=
  match sp with
  | .tile => { s with tmems := tabSet s.tmems b.tmem k }
  | _ => s.setBlock { b with scratch := k }

/-! ## Writes that are not mx-ready (R96, R97) -/

/-- The sectors of n bytes from an address. -/
def sectorsFrom (space owner a n : Nat) : List Sector :=
  if n = 0 then []
  else (List.range ((a + n - 1) / 32 - a / 32 + 1)).map (fun i => { space := space, owner := owner, ix := a / 32 + i })

/-- The sectors of n bytes of an on-chip memory of a block. -/
def Block.sectors (b : Block) (sp : Space) (o n : Nat) : List Sector :=
  match sp with
  | .tile => sectorsFrom 2 b.tmem o n
  | _ => sectorsFrom 1 b.id o n

/-- The 32 bytes of a sector: of global memory as the die shows them, with a core's own writes over them. -/
def State.sectorNow (s : State) (d c : Nat) (k : Sector) : List Byte :=
  match k.space with
  | 0 => (List.range 32).map (fun i => (tabGet (s.core d c).dirty (32 * k.ix + i)).getD (s.dieByte d (32 * k.ix + i)))
  | 1 => (match s.block k.owner with | some b => b.scratch.read (32 * k.ix) 32 | none => [])
  | _ => ((tabGet s.tmems k.owner).getD (Bank.zero 0)).read (32 * k.ix) 32

/-- Sectors that a team's lane is about to write, noted with what they hold; `lane` 64 stands for an MXST and its baton's flags. -/
def State.noteSectors (s : State) (t : Team) (lane fla flb : Nat) (ks : List Sector) : State :=
  { s with mxOld := ks.map (fun k => ({ place := k, team := t.id, block := t.block, lane := lane, fla := fla, flb := flb,
                                        bytes := s.sectorNow t.die t.core k } : OldSector)) ++ s.mxOld }

/-- The list, newest first, without the writes that a test names and the older ones of their sectors. -/
def dropReady (p : OldSector → Bool) (os : List OldSector) : List OldSector :=
  (os.foldl (fun (a : List OldSector × List Sector) o =>
    if a.2.contains o.place then a else if p o then (a.1, o.place :: a.2) else (a.1 ++ [o], a.2)) ([], [])).1

/-- Writes that become mx-ready: a matrix instruction that issues from now on reads them, or later ones (R97). -/
def State.mxReady (s : State) (p : OldSector → Bool) : State := { s with mxOld := dropReady p s.mxOld }

/-- What lanes of a team have written becomes mx-ready; only its global writes when `glob`. -/
def State.lanesReady (s : State) (team : Nat) (lanes : Mask) (glob : Bool) : State :=
  s.mxReady (fun o => decide (o.team = team) && decide (o.lane < 64) && lanes.getLsbD o.lane && (!glob || decide (o.place.space = 0)))

/-- A write of the device or of a copy to sectors, mx-ready as it is performed. -/
def State.sectorsReady (s : State) (ks : List Sector) : State := if s.mxOld = [] then s else s.mxReady (fun o => ks.contains o.place)

/-- A release by lanes of a team: at .cl and wider their global writes are mx-ready (R89, R96). -/
def State.releaseBy (s : State) (scope : Nat) (t : Team) (lanes : Mask) : State :=
  let s := s.release scope t.die t.core
  if scope ≤ 2 then s else s.lanesReady t.id lanes true

end Sys2Proof.Machine
end

