-- ==== Sys2Proof/Machine/Translate.lean ====
section
/-!
DEFINITION. Machine/Translate: page tables and their walk (R396 to R400), TLB lookup (R401), the fault ring (R402), the
violation log (R405) and the error ring (R447 to R450).
-/

namespace Sys2Proof.Machine

/-- Access kinds of a fault record (R402). -/
def kindRead : Nat := 0
def kindWrite : Nat := 1
def kindAtomic : Nat := 2
def kindFetch : Nat := 3

/-- What a translation answers: a physical address with the page's compression bit, a page fault at a level, or a refusal with
its log cause (R399, R400, R405). -/
inductive Tr where
  | ok (pa : Nat) (cmp : Bool)
  | fault (level : Nat)
  | refuse (cause : Nat)
  deriving DecidableEq, Repr

/-- What a walk answers: a leaf, a page fault at a level, a refusal. -/
inductive Walk where
  | leaf (e : TlbEntry)
  | fault (level : Nat)
  | refuse (cause : Nat)
  deriving DecidableEq, Repr

/-- Lowest VA bit and number of bits of a level's index (R397). -/
def levelBits : Nat → Nat × Nat
  | 0 => (51, 6)
  | 1 => (41, 10)
  | 2 => (31, 10)
  | 3 => (21, 10)
  | _ => (16, 5)

/-- The index of a level (R397). -/
def levelIndex (lv va : Nat) : Nat := va / 2 ^ (levelBits lv).1 % 2 ^ (levelBits lv).2

/-- The walk from a table (R399): `n` levels are left, the next being level `lv`. -/
def State.walkFrom (s : State) (p va : Nat) : Nat → Nat → Nat → Walk
  | 0, _, _ => .refuse 4
  | n + 1, lv, t =>
    let at_ := t + 8 * levelIndex lv va
    let e := s.homeNum at_ 8
    let b := fun i => e / 2 ^ i % 2 = 1
    if s.lineBad at_ then .refuse 9
    else if ¬ b 0 then .fault lv
    else if e / 2 ^ 52 ≠ 0 ∨ e / 2 ^ 6 % 4 ≠ 0 ∨ (b 1 ∧ lv < 2) ∨ (¬ b 1 ∧ lv = 4) then .refuse 4
    else if ¬ b 1 then
      if e / 4 % 16 ≠ 0 then .refuse 4
      else if lv < 3 ∧ e / 2 ^ 8 % 32 ≠ 0 then .refuse 4
      else s.walkFrom p va n (lv + 1) (e / 2 ^ 8 % 2 ^ 44 * 2 ^ 8)
    else
      let sz := (levelBits lv).1
      let base := e / 2 ^ 8 % 2 ^ 44 * 2 ^ 8
      if base % 2 ^ sz ≠ 0 then .refuse 4
      else if s.target (base + va % 2 ^ sz) = .none then .refuse 6
      else .leaf { proc := p, va := va / 2 ^ sz * 2 ^ sz, log2 := sz, pa := base,
                   w := decide (b 2), x := decide (b 3), prv := decide (b 4), cmp := decide (b 5) }

/-- The walk for process p on a die (R396, R399). -/
def State.walk (s : State) (d p va : Nat) : Walk :=
  let x := s.die d
  let e := s.homeNum ((x.reg 0x210).toNat + 32 * p) 8
  if (x.reg 0x211).toNat ≤ p ∨ e % 2 = 0 then .refuse 5
  else s.walkFrom p va 5 0 (e / 2 ^ 9 % 2 ^ 43 * 2 ^ 9)

/-- The translation a core's TLB holds (R401). -/
def State.tlbFind (s : State) (d c p va : Nat) : Option TlbEntry :=
  (s.core d c).tlb.find? (fun e => decide (e.proc = p ∧ e.va ≤ va ∧ va < e.va + 2 ^ e.log2))

/-- The leaf for an address: from the TLB, else from a walk. -/
def State.leaf (s : State) (d c p va : Nat) : Walk :=
  match s.tlbFind d c p va with
  | some e => .leaf e
  | none => s.walk d p va

/-- The checks of R400 in order. -/
def checkLeaf (e : TlbEntry) (prv : Bool) (kind va : Nat) : Tr :=
  if e.prv && !prv then .refuse 3
  else if decide (kind = kindFetch) && !e.x then .refuse 2
  else if (decide (kind = kindWrite) || decide (kind = kindAtomic)) && !e.w then .refuse 1
  else .ok (e.pa + va % 2 ^ e.log2) e.cmp

/-- Translation of one access (R209, R399, R400); an address that nothing decodes is refused, through a TLB entry as well (R457). -/
def State.translate (s : State) (d c p : Nat) (prv : Bool) (kind : Nat) (va : DWord) : Tr :=
  if bitsN va 57 7 ≠ 0 then .refuse 7
  else match s.leaf d c p va.toNat with
    | .leaf e => if s.target (e.pa + va.toNat % 2 ^ e.log2) = .none then .refuse 6 else checkLeaf e prv kind va.toNat
    | .fault lv => .fault lv
    | .refuse r => .refuse r

/-! ## Rings -/

/-- A ring of 2^log2 records at a base; not in force when the base is 0 or log2 lies outside 6 to 16. -/
def ringOk (base : DWord) (ctl : DWord) : Bool :=
  decide (base ≠ 0) && decide (6 ≤ bitsN ctl 0 5) && decide (bitsN ctl 0 5 ≤ 16)

/-- Records standing in a ring: both counts are 32-bit. -/
def ringFill (wi ri : DWord) : Nat := (wi.toNat + 2 ^ 32 - ri.toNat % 2 ^ 32) % 2 ^ 32

/-- A host interrupt raised. -/
def State.irq (s : State) (v : Nat) : State := { s with irqs := s.irqs ++ [v] }

/-- The four 8-byte words of a fault record (R402). -/
def faultWords (r : FaultRec) (seq : Nat) : List Nat :=
  [ if r.ty = 0 then r.va else 0,
    r.core + r.source * 2 ^ 8 + r.level * 2 ^ 16 + r.kind * 2 ^ 24 + r.proc * 2 ^ 32,
    seq, r.ty ]

/-- Consecutive 8-byte words written at home. -/
def State.homeWords (s : State) (pa : Nat) (ws : List Nat) : State :=
  (mapIx (fun i w => (i, w)) ws).foldl (fun s iw => s.homePut (pa + 8 * iw.1) 8 iw.2) s

/-- One fault record written to the ring, and the interrupt of R402 step 3. -/
def State.writeFault (s : State) (d : Nat) (r : FaultRec) : State :=
  let x := s.die d
  let wi := (x.reg 0x214).toNat
  let wi' := (wi + 1) % 2 ^ 32
  let n := bitsN (x.reg 0x213) 0 5
  let s := s.homeWords ((x.reg 0x212).toNat + 32 * (wi % 2 ^ n)) (faultWords r wi')
  let s := s.setDie d ((s.die d).setReg 0x214 (BitVec.ofNat 64 wi'))
  if ringFill (BitVec.ofNat 64 wi) (x.reg 0x215) = 0 then s.irq (bitsN (x.reg 0x213) 16 12) else s

/-- The ring takes one more record. -/
def State.faultRoom (s : State) (d : Nat) : Bool :=
  let x := s.die d
  ringOk (x.reg 0x212) (x.reg 0x213) &&
    decide (ringFill (x.reg 0x214) (x.reg 0x215) < 2 ^ bitsN (x.reg 0x213) 0 5)

/-- Records of a die with the oldest that waits marked as written; an event leaves the list. -/
def markWritten : List FaultRec → List FaultRec
  | [] => []
  | q :: qs => if q.written then q :: markWritten qs else if q.ty = 0 then { q with written := true } :: qs else qs

/-- Waiting records written in order while there is room (R402 step 2): the list gives one turn for each record. -/
def State.drainFaults (s : State) (d : Nat) : List FaultRec → State
  | [] => s
  | r :: rs =>
    if r.written then s.drainFaults d rs
    else if s.faultRoom d then
      let s := s.writeFault d r
      let x := s.die d
      (s.setDie d { x with faults := markWritten x.faults }).drainFaults d rs
    else s

/-- A page fault or event recorded: one outstanding record for each process and 64 KiB page of a die (R402); one waiting record that a spill
area is full, and one record for each rise of LOW (R407). -/
def State.raiseFault (s : State) (d : Nat) (r : FaultRec) : State :=
  let x := s.die d
  if x.faults.any (fun q => decide (r.ty ≠ 1 ∧ q.proc = r.proc ∧ q.vpage = r.vpage ∧ q.ty = r.ty)) then s
  else
    let s := s.setDie d { x with faults := x.faults ++ [r] }
    s.drainFaults d (s.die d).faults

/-- 64 KiB virtual page of an address. -/
def pageOf (va : Nat) : Nat := va / 65536

/-- The record of a page fault of a core's team or engine. -/
def State.pageFault (s : State) (d c p va kind level source : Nat) : State :=
  s.raiseFault d { proc := p, va := va, vpage := pageOf va, kind := kind, level := level, source := source,
                   core := if c < 36 then s.logicalOf d c else 0xFF, ty := 0, written := false }

/-- The record of a page fault that an access of the device itself waits on (R402). -/
def State.devFault (s : State) (d c p va kind level source : Nat) : State :=
  let s := s.pageFault d c p va kind level source
  if s.devWaits.contains (d, p, pageOf va) then s else { s with devWaits := (d, p, pageOf va) :: s.devWaits }

/-- An entry of the violation log of a core (R405). -/
def State.logViolation (s : State) (d c : Nat) (va pc : Nat) (p cause kind source lane : Nat) : State :=
  let base := ((s.die d).reg 0x21A).toNat
  if base = 0 then s
  else
    let h := base + 4096 * c
    let wi := s.homeNum h 8
    let ri := s.homeNum (h + 8) 8
    if (wi + 2 ^ 64 - ri) % 2 ^ 64 = 64 then s.homePut (h + 16) 8 ((s.homeNum (h + 16) 8 + 1) % 2 ^ 64)
    else
      let wi' := (wi + 1) % 2 ^ 64
      let s := s.homeWords (h + 0x40 + 32 * (wi % 64))
        [va % 2 ^ 57, pc % 2 ^ 57, lane + source * 2 ^ 8 + kind * 2 ^ 16 + cause * 2 ^ 24 + p * 2 ^ 32, wi']
      s.homePut h 8 wi'

/-- A refused access of firmware, or of an engine that belongs to no core, in the violation log of the lead agent's core, its PC 0 (R405). Which
core's log takes it is open: DESIGN CHOICE (log entry 66). -/
def State.logFw (s : State) (d p va cause kind source : Nat) : State :=
  match s.lead d with
  | some c => s.logViolation d c va 0 p cause kind source 0
  | none => s

/-- An error or event record of a die (R447, R449, R450): SEV 0 corrected, 1 uncorrectable, 2 event. -/
def State.recordError (s : State) (d kind addr core sev : Nat) : State :=
  let x := s.die d
  let wi := (x.reg 0x242).toNat
  let ri := (x.reg 0x243).toNat
  let n := bitsN (x.reg 0x241) 0 5
  let slot := fun k => (x.reg 0x240).toNat + 32 * (k % 2 ^ n)
  let newest := (wi + 2 ^ 32 - 1) % 2 ^ 32
  let merge := decide (sev = 0) && decide (x.errLast = some (kind, addr, newest)) && decide (ringFill (x.reg 0x242) (x.reg 0x243) ≠ 0)
  if merge then
    let pa := slot newest + 0x14
    s.homePut pa 4 ((s.homeNum pa 4 + 1) % 2 ^ 32)
  else if ringOk (x.reg 0x240) (x.reg 0x241) && decide (ringFill (x.reg 0x242) (x.reg 0x243) < 2 ^ n) then
    let wi' := (wi + 1) % 2 ^ 32
    let s := s.homeWords (slot wi)
      [x.rclk.toNat, addr % 2 ^ 52, sev + core * 2 ^ 8 + kind * 2 ^ 24 + 1 * 2 ^ 32, wi']
    let x' := (s.die d).setReg 0x242 (BitVec.ofNat 64 wi')
    let s := s.setDie d { x' with errLast := if sev = 0 then some (kind, addr, wi) else none }
    if wi % 2 ^ 32 = ri % 2 ^ 32 then s.irq (bitsN (x.reg 0x241) 16 12) else s
  else
    let lost := (x.reg 0x244).toNat
    s.setDie d (x.setReg 0x244 (BitVec.ofNat 64 (min (lost + 1) (2 ^ 32 - 1))))

/-! ## Compressed blocks (R305 to R307, R406, R407) -/

/-- The blocks in the pending table of a controller: the first 64 that its waiting writes name; a write of another block waits until one
leaves (R306). -/
def Ctl.table (c : Ctl) : List Nat := ((c.held.map (fun h => h.pa / 512)).eraseDups).take 64

/-- A controller replaced; the event of R407 when LOW rises. -/
def State.setCtl (s : State) (d k : Nat) (c : Ctl) : State :=
  let x := s.die d
  let low := decide (c.free < (x.reg 0x21E).toNat ∨ c.reserve < 2048)
  let was := (x.ctls.getD k Ctl.reset).low
  let s := s.setDie d { x with ctls := setAt x.ctls k { c with low := low } }
  if low && !was then
    s.raiseFault d { proc := 0, va := 0, vpage := 0, kind := 0, level := k, source := 0, core := 0xFF, ty := 1, written := false }
  else s

/-- A block's bytes are held in the pending table: every access to it waits (R306). -/
def State.blockHeld (s : State) (pa : Nat) : Bool :=
  (s.ctl (s.ctlOf pa).1 (s.ctlOf pa).2).table.contains (pa / 512)

/-- A write of an entry, of one lane of it or of any, waits at a controller: it has used its translation and is not performed again (R211,
R306, R403). -/
def State.waitsHeld (s : State) (team entry : Nat) (lane : Option Nat) : Bool :=
  s.dies.any (fun (p : Nat × Die) => p.2.ctls.any (fun (c : Ctl) => c.held.any (fun h =>
    decide (h.team = team ∧ h.entry = entry) && (match lane with | some l => decide (h.lane = l) | none => true))))

/-- A byte at home as the writes that wait at its controller leave it (R306). -/
def State.pendByte (s : State) (pa : Nat) : Byte :=
  (s.ctl (s.ctlOf pa).1 (s.ctlOf pa).2).held.foldl (fun b h =>
    if h.pa ≤ pa ∧ pa < h.pa + h.data.length then h.data.getD (pa - h.pa) b else b) (s.homeByte pa)

/-- The bytes at an address as the writes that wait at a controller leave them (R306). -/
def State.pendBytes (s : State) (pa n : Nat) : List Byte := (List.range n).map (fun i => s.pendByte (pa + i))

/-- Chunks of a block taken or freed for new contents: `none` when free list and reserve hold too few (R306, R307). A block whose nibble
was 9 to 15 frees that many, and the write that is merged into it makes the whole block valid: DESIGN CHOICE (log entry 55). -/
def Ctl.store (c : Ctl) (blk need : Nat) : Option Ctl :=
  let have_ := defGet 0 c.chunks blk
  let cs := tabSet c.chunks blk need
  if need ≤ have_ then
    let back := have_ - need
    let r := min back (2048 - c.reserve)
    some { c with reserve := c.reserve + r, free := c.free + (back - r), chunks := cs }
  else
    let want := need - have_
    if want ≤ c.free then some { c with free := c.free - want, chunks := cs }
    else if want ≤ c.free + c.reserve then some { c with reserve := c.reserve - (want - c.free), free := 0, chunks := cs }
    else none

/-- Chunks of a block, one to eight. -/
def chunksFor (bs : List Byte) : Nat := Config.chunkCount bs % 8 + 1

/-- What the writes of one owner among those merged do to the poison of lines: clean ones clear the lines that they cover, poisoned ones mark
theirs (R259, R447). -/
def State.mergePoison (s : State) (ws : List HeldWrite) : State :=
  (ws.filter (fun h => h.pois)).foldl (fun s h => s.poisonLines h.pa h.data.length)
    (s.cleanLines ((ws.filter (fun h => !h.pois)).map (fun h => (h.pa, h.data.length))))

/-- Writes merged into a compressed block, in arrival order, and the block stored: `none` when row 3 of R307 is in force. -/
def State.mergeBlock (s : State) (ws : List HeldWrite) (blk : Nat) : Option State :=
  let (d, k) := s.ctlOf (blk * 512)
  let s' := ws.foldl (fun s w => s.putBytes .home w.pa w.data) s
  let s' := ((ws.map (fun w => (w.team, w.entry))).eraseDups).foldl (fun (s : State) o =>
    s.mergePoison (ws.filter (fun w => decide ((w.team, w.entry) = o)))) s'
  match (s.ctl d k).store blk (chunksFor (s'.bytesAt .home (blk * 512) 512)) with
  | some c => some (s'.setCtl d k c)
  | none => none

/-- A core's L1 copy of a compressed block dropped: its write of the block has been accepted (R306). -/
def State.dropBlock (s : State) (d c pa : Nat) : State :=
  if c < 36 then
    let x := s.core d c
    s.setCore d c { x with clean := x.clean.filter (fun p => decide (p.1 / 4 ≠ pa / 512)) }
  else s

/-- A write put to the controller of its block (R306). -/
def State.hold (s : State) (h : HeldWrite) : State :=
  let (d, k) := s.ctlOf h.pa
  let c := s.ctl d k
  let s := s.setCtl d k { c with held := c.held ++ [h] }
  match h.core with
  | some (d, c) => s.dropBlock d c h.pa
  | none => s

/-- A lane's write performed at its controller: the lane is taken off its entry, which completes with its last lane. One that a frame suspends
stands there with nothing left to do until TRET, off the flags of the device's copy (R412). -/
def Team.heldLane (t : Team) (e : Entry) (l : Nat) : Team :=
  let e := { e with lmask := maskPut e.lmask l false }
  if e.lmask ≠ 0 ∨ e.dropped then t.setEntry e
  else if (t.entries.take t.suspended).any (fun x => decide (x.order = e.order)) then
    (t.setEntry { e with fla := 15, flb := 15 }).decFlags e.fla e.flb true
  else t.finish e

/-- A held write performed: its interrupt raised, its lane taken off its entry (R232, R306). An RFLUSH completes by its own event. -/
def State.heldDone (s : State) (h : HeldWrite) : State :=
  let s := match h.irq with | some v => s.irq v | none => s
  let s := match h.core with | some (d, c) => s.dropBlock d c h.pa | none => s
  match s.team h.team with
  | none => s
  | some t =>
    match t.entries.find? (fun e => decide (e.order = h.entry)) with
    | none => s
    | some e =>
      match e.work with
      | .rflush _ => s
      | _ => s.setTeam (t.heldLane e h.lane)

/-- The writes that wait at a controller for one block merged, the block stored and the writes performed; `none` when chunks are too few
(R306, R307). -/
def State.mergeHeld (s : State) (d k blk : Nat) : Option State :=
  let mine := (s.ctl d k).held.filter (fun x => decide (x.pa / 512 = blk))
  (s.mergeBlock mine blk).map (fun s =>
    let c := s.ctl d k
    let s := s.setCtl d k { c with held := c.held.filter (fun x => decide (x.pa / 512 ≠ blk)), stall := false }
    mine.foldl (fun s x => s.heldDone x) s)

/-- Bytes with the 512-byte blocks that they lie in: offset and bytes of each part. -/
def blockParts (pa : Nat) (bs : List Byte) : List (Nat × List Byte) :=
  if bs.length = 0 then []
  else (List.range ((pa + bs.length - 1) / 512 - pa / 512 + 1)).map (fun i =>
    let lo := if i = 0 then pa else (pa / 512 + i) * 512
    (lo - pa, (bs.drop (lo - pa)).take ((pa / 512 + i + 1) * 512 - lo)))

/-- Bytes written to compressed blocks by the device itself or from outside it: the controller merges them, after what waits there, as soon as
it has the chunks (R105, R306, log entry 14). -/
def State.writeBlocks (s : State) (proc va pa : Nat) (bs : List Byte) : State :=
  (blockParts pa bs).foldl (fun s p =>
    let q := pa + p.1
    let s := s.hold { team := 0, entry := 0, lane := 0, grid := 0, proc := proc, core := none, va := va + p.1, pa := q, data := p.2, irq := none }
    if s.blockHeld q then (s.mergeHeld (s.ctlOf q).1 (s.ctlOf q).2 (q / 512)).getD s else s) s

/-- A block that is stored compressed, or that a write waits for: a write of it is merged (R305, R306). -/
def State.isCompressed (s : State) (pa : Nat) : Bool :=
  let c := s.ctl (s.ctlOf pa).1 (s.ctlOf pa).2
  (tabGet c.chunks (pa / 512)).isSome || c.held.any (fun h => decide (h.pa / 512 = pa / 512))

/-! ## Device accesses to a process's memory -/

/-- What a multi-byte access through translation answers. -/
inductive Acc (α : Type) where
  | ok (v : α)
  | fault (va level : Nat)
  | refuse (va cause : Nat)
  deriving Repr

/-- The physical addresses of n bytes from a virtual address with the compression bits of their pages, each 64 KiB page translated once and
decoded to its last byte (R457); a page whose fault the driver has refused is refused with cause 10 (R402). -/
def State.spanPa (s : State) (d c p : Nat) (prv : Bool) (kind : Nat) (va n : Nat) : Acc (List (Nat × Nat × Bool)) :=
  let go := fun (pages : Nat) =>
    (List.range pages).foldl (fun (acc : Acc (List (Nat × Nat × Bool))) i =>
      match acc with
      | .ok l =>
        let lo := if i = 0 then va else (pageOf va + i) * 65536
        let hi := min (va + n) ((pageOf va + i + 1) * 65536)
        (match s.translate d c p prv kind (BitVec.ofNat 64 lo) with
         | .ok pa cmp => if s.target (pa + (hi - lo) - 1) = .none then .refuse lo 6 else .ok (l ++ [(pa, hi - lo, cmp)])
         | .fault lv => if s.devRefused.contains (d, p, pageOf lo) then .refuse lo 10 else .fault lo lv
         | .refuse r => .refuse lo r)
      | e => e) (.ok [])
  if n = 0 then .ok [] else go (pageOf (va + n - 1) - pageOf va + 1)

/-- Bytes read by the device at the home slices through a process's tables, after the writes that wait at a controller; data of a poisoned line
refuses with cause 9. -/
def State.readVirt (s : State) (d c p : Nat) (prv : Bool) (va n : Nat) : Acc (List Byte) :=
  match s.spanPa d c p prv kindRead va n with
  | .ok l =>
    if l.any (fun q => (linesIn q.1 q.2.1).any (fun ln => s.lineBad (128 * ln))) then .refuse va 9
    else .ok (l.flatMap (fun q => if q.2.2 then s.pendBytes q.1 q.2.1 else s.bytesAt .home q.1 q.2.1))
  | .fault a lv => .fault a lv
  | .refuse a r => .refuse a r

/-- Bytes written by the device at the home slices through a process's tables; those of a compressed page are merged (R105). -/
def State.writeVirt (s : State) (d c p : Nat) (prv : Bool) (va : Nat) (bs : List Byte) : Acc State :=
  match s.spanPa d c p prv kindWrite va bs.length with
  | .ok l => .ok (l.foldl (fun (a : State × Nat × List Byte) q =>
      let part := a.2.2.take q.2.1
      (if q.2.2 then a.1.writeBlocks p a.2.1 q.1 part else a.1.homeWrite q.1 part, a.2.1 + q.2.1, a.2.2.drop q.2.1)) (s, va, bs)).1
  | .fault a lv => .fault a lv
  | .refuse a r => .refuse a r

end Sys2Proof.Machine
end

