-- ==== Sys2Proof/Machine/Ops.lean ====
section
/-!
DEFINITION. Machine/Ops: containment of a process (R361, R362, R377, R378), the trap frame (R410, R412 to R414), taking a
trap, parking (R415), and the restoration that TRET and resume share (R416).
-/

namespace Sys2Proof.Machine

/-! ## Queue control blocks and containment -/

/-- The QCB written by firmware: every field of the inactive half, then SEQ and SEL (R361, R362). -/
def State.flipQcb (s : State) (q : Queue) : State :=
  let seq := q.seq + 1
  let h := q.qcb + (if seq % 2 = 1 then 0xA0 else 0x40)
  let s := s.homeWords h
    ([q.read, q.doneIx, q.state + q.err * 2 ^ 8, q.errIx, q.lseqLast] ++ List.replicate 7 0)
  let s := s.homePut q.qcb 8 ((seq * 2 + seq % 2) % 2 ^ 64)
  s.setQueue { q with seq := seq }

/-- The queue and packet whose work a grid is, through its parents (R232, R377). -/
def State.rootOf (s : State) : Nat → Nat → Option (Nat × Nat)
  | 0, _ => none
  | n + 1, lseq =>
    match s.grid lseq with
    | none => none
    | some g =>
      match g.origin with
      | .packet q i => some (q, i)
      | .child up _ _ _ => s.rootOf n up
      | .binning p _ => (s.pass p).map (fun x => (x.qid, x.index))
      | .fragment p _ => (s.pass p).map (fun x => (x.qid, x.index))
      | .tileKernel p _ => (s.pass p).map (fun x => (x.qid, x.index))

/-- The banks that owners of a list hold released (R293). -/
def Core.release (k : Core) (owners : List Nat) : Core := { k with alloc := k.alloc.filter (fun u => !owners.contains u.owner) }

/-- Blocks of a list asked to leave or coming back are so no longer; BUSY of PREEMPT_STAT falls with the last that was to leave (R417). -/
def Core.leave (k : Core) (ids : List Nat) : Core :=
  let left := k.moving.filter (fun i => !ids.contains i)
  let k := { k with waking := k.waking.filter (fun i => !ids.contains i) }
  if left = k.moving then k
  else { (if left = [] then k.setReg 0x114 (k.reg 0x114 &&& 0x7FFFFFFF) else k) with moving := left }

/-- Contexts of the teams, blocks, grids, sums, passes, copies and held writes that predicates name are discarded, the copies of a discarded
block and the tiles of a discarded pass among them (R378 step 2, R379 step 2). A flush write that waits at a controller may carry contributions of
work that goes on: it stays, and containment of the process drops it. -/
def State.discard (s : State) (grid : Nat → Bool) (job : Job → Bool) (pass : Nat → Bool) : State :=
  let goneB := (s.blocks.filter (fun b => grid b.grid)).map (fun b => b.id)
  let goneM := (s.blocks.filter (fun b => grid b.grid)).map (fun b => b.tmem) ++
    (s.passes.filter (fun p => pass p.lseq)).flatMap (fun p => p.tiles.map (fun y => y.tmem))
  let goneT := fun (t : Team) => !t.agent && goneB.contains t.block
  let gone := (s.allTeams.filter goneT).map (fun t => t.id)
  let goneJ := (s.jobs.filter (fun j => job j || goneB.contains j.block)).map (fun j => j.id)
  { s with
    me := if goneT s.me then Team.reset else s.me
    grp := if goneT s.me then 0 else s.grp
    teams := s.teams.filter (fun t => !goneT t)
    blocks := s.blocks.filter (fun b => !grid b.grid)
    grids := s.grids.filter (fun g => !grid g.lseq)
    tmems := s.tmems.filter (fun m => !goneM.contains m.1)
    cores := s.cores.map (fun (p : Nat × Core) => (p.1, (({ p.2 with queue := p.2.queue.filter (fun e => !grid e.grid) } : Core).leave goneB).release
      (goneB ++ goneM)))
    dies := s.dies.map (fun (p : Nat × Die) => (p.1, { p.2 with ctls := p.2.ctls.map (fun (c : Ctl) =>
      { c with held := c.held.filter (fun h => h.flush || !(gone.contains h.team || (decide (h.team = 0) && goneJ.contains h.entry))) }) }))
    jobs := s.jobs.filter (fun j => !goneJ.contains j.id)
    passes := s.passes.filter (fun p => !pass p.lseq)
    mxOld := s.mxOld.filter (fun o => !(goneB.contains o.block && decide (o.place.space ≠ 0)))
    reds := s.reds.filter (fun r => !(r.grids.all grid)) }

/-- Containment of a process (R378): its queues halted, its work discarded, its waiting accesses dropped (R404). -/
def State.contain (s : State) (proc err : Nat) (at_ : Option (Nat × Nat)) : State :=
  let gs := (s.grids.filter (fun g => decide (g.proc = proc))).map (fun g => g.lseq)
  let ps := (s.passes.filter (fun p => decide (p.proc = proc))).map (fun p => p.lseq)
  let s := s.discard (fun l => gs.contains l) (fun j => decide (j.proc = proc)) (fun n => ps.contains n)
  let s := { s with
    reds := s.reds.filter (fun r => decide (r.proc ≠ proc))
    cores := s.cores.map (fun (p : Nat × Core) => (p.1, { p.2 with erQueue := p.2.erQueue.filter (fun x => decide (x.1 ≠ proc)) }))
    devWaits := s.devWaits.filter (fun w => decide (w.2.1 ≠ proc))
    devRefused := s.devRefused.filter (fun w => decide (w.2.1 ≠ proc))
    dies := s.dies.map (fun (p : Nat × Die) => (p.1, { p.2 with
      faults := p.2.faults.filter (fun f => decide (f.proc ≠ proc ∨ f.ty ≠ 0))
      ctls := p.2.ctls.map (fun (c : Ctl) => { c with held := c.held.filter (fun h => decide (h.proc ≠ proc)) }) })) }
  let halt := fun (s : State) (q : Queue) =>
    if q.proc = proc then
      let mine := match at_ with | some (qi, _) => decide (qi = q.qid) | none => false
      let ix := match at_ with | some (_, i) => i | none => q.errIx
      s.flipQcb { q with state := 2, err := if mine then err else 255, errIx := if mine then ix else q.errIx,
                         staged := [], pend := q.pend }
    else s
  s.queues.foldl halt s

/-- Containment on account of a team's work. -/
def State.containTeam (s : State) (t : Team) (err : Nat) : State :=
  let at_ := match s.block t.block with | some b => s.rootOf 16 b.grid | none => none
  s.contain t.proc err at_

/-- A write or read of the device for a team refused by protection: the violation log, and containment with FAULT (R405, R408). -/
def State.refusedTeam (s : State) (t : Team) (va cause kind : Nat) : State :=
  (s.logViolation t.die t.core va 0 t.proc cause kind 0 0).containTeam t 6

/-! ## The frame area (R410 to R414) -/

/-- 64-bit words as bytes. -/
def wordsBytes (ws : List Nat) : List Byte := ws.flatMap (fun w => leBytes 8 w)

/-- 32-bit words as bytes. -/
def w32Bytes (ws : List Word) : List Byte := ws.flatMap (fun w => leBytes 4 w.toNat)

/-- The flags as one 48-bit field, flag i in [4i+3:4i] (R412). -/
def flagWord (fs : List (BitVec 4)) : Nat := (mapIx (fun i f => f.toNat * 2 ^ (4 * i)) fs).foldl (· + ·) 0

/-- The frame header (R412). -/
def frameHeader (t : Team) (k : Trap) (nested : Nat) : List Byte :=
  wordsBytes ([ k.cause % 2 ^ 8 + k.sub % 2 ^ 8 * 2 ^ 8, k.tpc.toNat, k.lanes.toNat, k.info.toNat, k.faddr.toNat,
    flagWord t.flags, t.entries.length % 2 ^ 6 + t.cls % 4 * 2 ^ 6 + nested % 2 ^ 8 * 2 ^ 8, k.thdr.toNat ] ++ List.replicate 8 0)

/-- The lane records (R413); ranks at or above the width read zero. -/
def laneRecords (t : Team) : List Byte :=
  (List.range 64).flatMap (fun l =>
    if l < t.width then
      let th := t.thread l
      if th.exited then wordsBytes [0, 0]
      else wordsBytes [ th.pc.toNat + th.wmask.toNat * 2 ^ 59 + (if th.waiting then 2 ^ 63 else 0), th.hdr.toNat ]
    else wordsBytes [0, 0])

/-- Offset of capture slot i (R410). -/
def captureOff (w i : Nat) : Nat := 0x1000 + i * (64 * w + 384)

/-- A replay entry (R413) whose capture block stands at an address. -/
def entryBytes (e : Entry) (cap : Nat) : List Byte :=
  w32Bytes [e.w0, e.w1, e.pfxw, BitVec.ofNat 32
      ((if e.dropped then 1 else 0) + (if e.faulted then 2 else 0) + (if e.final then 4 else 0) + e.fla % 16 * 2 ^ 4 + e.flb % 16 * 2 ^ 8)]
    ++ wordsBytes [e.pc.toNat, e.hdr.toNat, e.lmask.toNat, e.progress.toNat, cap, e.order]

/-- An entry whose capture block holds per-lane addresses and data (R414). -/
def Work.perLane : Work → Bool
  | .sload .. => false
  | .sstore .. => false
  | .copy .. => false
  | .matrix .. => false
  | .twait .. => false
  | _ => true

/-- The capture block of an entry (R414). -/
def captureBytes (w : Nat) (e : Entry) : List Byte :=
  if e.work.perLane then
    (List.range w).flatMap (fun l => leBytes 4 (ofLeBytes ((e.tgt.getD l []).map (fun n => BitVec.ofNat 8 n))))
    ++ (List.range w).flatMap (fun l => leBytes 8 (e.addr.getD l 0).toNat)
    ++ (List.range w).flatMap (fun l => ((w32Bytes (e.data.getD l [])) ++ List.replicate 52 (0 : Byte)).take 52)
  else e.cap

/-- The header of the A-latch store (R414). -/
def latchHead (l : Latch) : List Byte :=
  [BitVec.ofNat 8 (if l.asrc then 1 else 0), BitVec.ofNat 8 l.a, BitVec.ofNat 8 l.afmt, BitVec.ofNat 8 l.m, BitVec.ofNat 8 l.c,
   (if l.valid then 1 else 0)] ++ List.replicate 10 0

/-- The A-latch store (R414): header, then the values; those read from memory in the device's own encoding. -/
def latchBytes (l : Latch) : List Byte :=
  latchHead l ++ (if l.asrc then w32Bytes l.vals else (List.range (2 * l.vals.length)).map (Config.latchCode l.vals))

/-- An MXA that took A from vector registers, now or for the latch (R242). -/
def Entry.regA (e : Entry) : Bool := match e.work with | .matrix op _ _ _ _ => decide (op = 0x70) && bit e.w0 5 | _ => false

/-- An MXA that has taken A from the latch, with values read from memory (R243). -/
def Entry.memA (e : Entry) : Bool := !e.regA && (match e.work with | .matrix op _ _ _ _ => decide (op = 0x70) && bit (e.cap.getD 0x64 0) 0 | _ => false)

/-- What the latch store holds: the latch, or, once that has been released, the A values of an unfinished MXA that took them from it
(R252). The frame has one store: DEDUCED (log entry 31), while a newer latch is valid the store holds that one, and the A values of an older
unfinished MXA stand in the device's own entry only. -/
def Team.latchStore (t : Team) : Latch :=
  if t.latch.valid then t.latch
  else match t.entries.find? Entry.memA with
    | some e => { Latch.reset with vals := e.data.headD [] }
    | none => t.latch

/-- Offset of the A-value store of the i-th entry (R410). -/
def aStore (t : Team) (i : Nat) : Nat := 0x4000 + 2048 * t.width + 256 * t.width * (((t.entries.take i).filter (fun e => e.regA)).length % 2)

/-- The capture block of the i-th entry; that of a matrix instruction names its A values (R414). -/
def captureOf (t : Team) (i : Nat) (e : Entry) : List Byte :=
  match e.work with
  | .matrix .. =>
    let a := if e.regA then t.frameVa.toNat + aStore t i
             else if bit (e.cap.getD 0x64 0) 0 then t.frameVa.toNat + 0x4000 + 2560 * t.width else 0
    e.cap.take 0x68 ++ leBytes 8 a ++ e.cap.drop 0x70
  | _ => captureBytes t.width e

/-- The pieces of a frame: offset in the frame area and bytes. -/
def framePieces (t : Team) (k : Trap) (nested : Nat) : List (Nat × List Byte) :=
  [(0x0000, frameHeader t k nested), (0x0080, laneRecords t),
   (0x0C80, wordsBytes [t.handler.toNat, t.scratch0.toNat, t.scratch1.toNat])]
  ++ mapIx (fun i e => (0x0480 + 64 * i, entryBytes e (t.frameVa.toNat + captureOff t.width i))) t.entries
  ++ mapIx (fun i e => (captureOff t.width i, captureOf t i e)) t.entries
  ++ (mapIx (fun i (e : Entry) => (i, e)) t.entries).filterMap (fun p => if p.2.regA then some (aStore t p.1, w32Bytes (p.2.data.headD [])) else none)
  ++ [(0x4000 + 2560 * t.width, latchBytes t.latchStore)]

/-- Pieces written through the process's tables as privileged writes (R408). -/
def State.writePieces (s : State) (t : Team) (base : Nat) (ps : List (Nat × List Byte)) : Acc State :=
  ps.foldl (fun (a : Acc State) p =>
    match a with
    | .ok s => s.writeVirt t.die t.core t.proc true (base + p.1) p.2
    | e => e) (.ok s)

/-! ## Dropping entries (R281, R253) -/

/-- The tile an unfinished matrix entry keeps busy is freed (R253); it keeps its slot until it is evicted (R254). -/
def State.freeTile (s : State) (blk tile : Nat) : State :=
  match s.block blk with
  | some b =>
    (match b.acc[tile]? with
     | some a => s.setBlock { b with acc := setAt b.acc tile { a with busy := false } }
     | none => s)
  | none => s

/-- A latch that still waits for what an MXA reads. -/
def Latch.pending (l : Latch) : Bool := l.valid && !l.asrc && decide (l.vals = [])

/-- The team without the latch that a dropped MXA was to fill (R243, R253). -/
def Team.dropLatch (t : Team) (e : Entry) : Team :=
  let fills := match e.work with | .matrix op x _ _ _ => decide (op = 0x70) && decide (x / 32 % 2 = 1) && !e.regA | _ => false
  let fix := fun (l : Latch) => if fills && l.pending then Latch.reset else l
  { t with latch := fix t.latch, frame := t.frame.map (fun (f : Frame) => { f with latch := fix f.latch, unlatched := f.unlatched || (fills && f.latch.pending) }) }

/-- What dropping an entry does to its block: a matrix entry frees its tile, a CPS leaves its phase's count, a copy its tag, and the waiting
write leaves its controller. -/
def State.dropSide (s : State) (t : Team) (e : Entry) : State :=
  let s := { s with dies := s.dies.map (fun (p : Nat × Die) => (p.1, { p.2 with ctls := p.2.ctls.map (fun (c : Ctl) =>
    { c with held := c.held.filter (fun h => !(decide (h.team = t.id) && decide (h.entry = e.order))) }) })) }
  match e.work with
  | .matrix _ _ _ _ tile =>
    (match s.team t.id with
     | some u => (s.setTeam (u.dropLatch e)).freeTile t.block tile
     | none => s.freeTile t.block tile)
  | .copy _ tag _ =>
    (match s.block t.block with
     | some b => s.setBlock { b with tags := mapIx (fun i x => if i = tag then { x with busy := false } else x) b.tags }
     | none => s)
  | .cps _ n ph =>
    (match s.block t.block with
     | some b => s.setBlock { b with bars := mapIx (fun i (x : Barrier) => if i = n then x.cpsDone ph else x) b.bars }
     | none => s)
  | _ => s

/-! ## Taking a trap (R412) -/

/-- The trapping group moved past its instruction, when the cause resumes after it (R411). -/
def Team.stepPast (t : Team) (g : Mask) (c : Ctx) : Team :=
  t.mapThreads g (fun th => { th with pc := c.npc, hdr := c.nhdr })

/-- A pacer agent restarted (R386): its context discarded and a fresh team started at the image's ENTRY, the restart counted;
the fourth restart within 2^30 counts disables it. By its journal it goes on with the queue that it holds; where it held none it takes a new
ticket (R387). DEDUCED (log entry 63): on a stopped partition the fresh team is frozen as the old one was. -/
def State.restartAgent (s : State) (d c : Nat) : State :=
  let k := s.core d c
  let now := (s.die d).rclk.toNat
  let recent := (k.restarts.filter (fun r => decide (now < r + 2 ^ 30))) ++ [now]
  let w := k.reg 0x10A
  let n := min (bitsN w 16 8 + 1) 255
  let dead := decide (4 ≤ recent.length)
  let w' := (w &&& 0xFFFFFFFFBF00FFFF) ||| BitVec.ofNat 64 (n * 2 ^ 16) ||| (if dead then 0x40000000 else 0)
  let s := s.setCore d c { (k.setReg 0x10A w') with restarts := recent, dead := dead, lastKick := now, image := s.fwSel, ticket := none }
  let fresh := fun (t : Team) =>
    if t.agent ∧ t.die = d ∧ t.core = c then
      { Team.reset with
        id := t.id, image := t.image, agent := true, die := d, core := c, part := 0, sec := 7, cls := 0, home := 0, priv := true, width := 8, run := t.run
        threads := List.replicate 8 { Thread.reset with pc := bits s.fwEntry 0 57, hdr := bits s.fwEntry 0 57 } }
    else t
  let s := s.mapTeams fresh
  if dead then s.recordError d 8 0 c 2 else s

/-- PARKED counted on the core and the error event raised (R415). -/
def State.countPark (s : State) (d c : Nat) : State :=
  let k := s.core d c
  (s.setCore d c (k.setReg 0x111 (BitVec.ofNat 64 (((k.reg 0x111).toNat + 1) % 2 ^ 32)))).recordError d 9 0 c 2

/-- The device's copy of a frame for a team as it stands. -/
def frameOf (t : Team) (k : Trap) (nested : Nat) (now : DWord) : Frame :=
  { cause := k.cause, flags := t.flags, pcls := t.cls, nrq := t.entries.length, nested := nested,
    inHandler := decide (nested = 0), latch := t.latch, pcs := t.threads.map (fun th => th.pc),
    waits := t.threads.map (fun th => if th.waiting then some (th.rpc, th.rhdr) else none), since := now, wrote := List.replicate 12 0, unlatched := false }

/-- The team standing in its frame: flags zero, latch empty, children counted before it held (R412, R243), no fetch waited for. Its thread
records keep WAITING, as a stop and pre-emption leave them (R157, R426). -/
def Team.intoFrame (t : Team) (f : Frame) : Team :=
  { t with frame := some f, flags := List.replicate 12 0, latch := Latch.reset, stall := [], kids := t.kids.map (fun k => { k with held := true }) }

/-- No lane waits: what a trap does to the thread records (R412). -/
def Team.clearWaiting (t : Team) : Team := { t with threads := t.threads.map (fun th => { th with waiting := false }) }

/-- The issuing team parked while it stands in a frame, NESTED set (R415): the handler's unfinished operations are dropped, off its flags (R281). The parking waits
while the page of the frame faults, and a refused one contains the process (R408). -/
def State.parkNested (s : State) (k : Trap) : State :=
  let t := s.me
  match s.writeVirt t.die t.core t.proc true (t.frameVa.toNat + 0x31) [BitVec.ofNat 8 k.cause] with
  | .fault va lv =>
    let s := s.devFault t.die t.core t.proc va kindWrite lv 0
    { s with me := { s.me with pend := some { k with next := false } } }
  | .refuse va c => s.refusedTeam t va c kindWrite
  | .ok s =>
    let late := t.entries.drop t.suspended
    let s := late.foldl (fun s e => s.dropSide t e) s
    let t := late.foldl (fun (t : Team) e => t.decFlags e.fla e.flb false) s.me
    let f := t.frame.map (fun (x : Frame) => { x with nested := k.cause, inHandler := false })
    ({ s with me := { t with entries := t.entries.take t.suspended, run := if t.run = .frozen then .frozen else .parked, pend := none, frame := f } } : State).countPark t.die t.core

/-- Partitions of a core whose teams stop issue at once (R426): every resident team is frozen, the agent's on IP0 among them (R380); a parked one
stands as it is. -/
def State.freeze (s : State) (d c : Nat) (pm : BitVec 4) : State :=
  let k := s.core d c
  let new := pm &&& ~~~ k.stopped
  let s := s.setCore d c { k with stopping := k.stopping ||| new }
  s.mapTeams (fun t =>
    if t.die = d ∧ t.core = c ∧ new.getLsbD t.part ∧ (t.run = .running ∨ t.run = .parked) then { t with run := .frozen } else t)

/-- A breakpoint or single-step trap is directed to a partition stop (R425, R430). -/
def State.stopsOn (s : State) (t : Team) (cause : Nat) : Bool :=
  let ctl := (s.core t.die t.core).reg 0x502
  (decide (cause = 0x0E) && bit ctl 2) || (decide (cause = 0x10) && bit ctl 3)

/-- The issuing team takes a trap (R412): the frame is written, its flags are saved and cleared, and its lanes enter the
handler in privileged mode, every frame write happening before its first instruction; a team with no handler parks; a trap in a handler parks the team with its first frame kept; an
agent is restarted; an error of the team's header lines parks it (R447). A team that a stop froze while its trap's frame waited stays frozen in it (R426). The frame waits while a pool page faults, and a refused pool page contains the process (R408); a trap that becomes known
while the frame of an earlier one waits is left to the entry that it belongs to, which that frame holds (R213, R251). -/
def State.takeTrap (s : State) (k : Trap) : State :=
  let t := s.me
  if t.agent then s.restartAgent t.die t.core
  else if t.pend.isSome then
    (if k.park then { s with me := { t with pend := t.pend.map (fun (p : Trap) => { p with park := true }) } } else s)
  else if t.frame.isSome then s.parkNested k
  else
    let t := if k.next then t.stepPast s.grp s.ctx else t
    let park := k.park || (decide (t.handler = 0) || t.priv) && !s.stopsOn t k.cause
    let nested := if park then k.cause else 0
    let s := { s with me := t }
    match s.writePieces t t.frameVa.toNat (framePieces t k nested) with
    | .fault va lv =>
      let s := s.devFault t.die t.core t.proc va kindWrite lv 0
      { s with me := { t with pend := some { k with next := false } } }
    | .refuse va c => s.refusedTeam t va c kindWrite
    | .ok s =>
      let s := s.acquire 5 t.die t.core
      let t := { t with pend := none }.intoFrame (frameOf t k nested (s.die t.die).rclk)
      let t := if s.stopsOn t k.cause then t else t.clearWaiting
      if s.stopsOn t k.cause then
        let f := t.frame.map (fun (x : Frame) => { x with inHandler := false })
        { s with me := { t with run := .frozen, frame := f } }.freeze t.die t.core (BitVec.ofNat 4 (2 ^ t.part))
      else if park then { s with me := { t with run := if t.run = Run.frozen then Run.frozen else Run.parked } }.countPark t.die t.core
      else
        { s with me := { t with
            priv := true
            threads := t.threads.map (fun th => if th.exited then th else { th with pc := bits t.handler 0 57, hdr := bits t.handler 0 57 }) } }

/-- A precise trap of the instruction at issue: the group resumes at the instruction (R411). -/
def State.trapNow (s : State) (cause : Nat) (lanes : Mask) (info faddr : DWord) (sub : Nat) : State :=
  s.takeTrap { cause := cause, sub := sub, tpc := s.ctx.pc, thdr := s.ctx.hdr, lanes := lanes, info := info, faddr := faddr, next := false }

/-- A precise trap that names the whole group. -/
def State.trapGroup (s : State) (cause : Nat) : State := s.trapNow cause s.grp 0 0 0

/-! ## Restoring a team (R416) -/

/-- WAITM evaluated for one mask register (R157): when every live lane that the register names waits on it, all of them
are released to the address after their WAITM. -/
def Team.evalWait (t : Team) (m : Nat) : Team :=
  let named := maskOf t.width (fun l => (t.mreg m).getLsbD l && !(t.thread l).exited)
  let ready := maskOf t.width (fun l => (t.thread l).waiting && decide ((t.thread l).wmask.toNat = m))
  if named ≠ 0 ∧ named &&& ~~~ ready = 0 then
    t.mapThreads named (fun th => { th with waiting := false, pc := th.rpc, hdr := th.rhdr })
  else t

/-- WAITM evaluated for every mask register. -/
def Team.evalWaits (t : Team) : Team := (List.range 12).foldl (fun t m => t.evalWait m) t

end Sys2Proof.Machine
end

