-- ==== Sys2Proof/Machine/Launch.lean ====
section
/-!
DEFINITION. Machine/Launch: tensor descriptors (R261, R262, R266), kernel descriptors (R134, R137), grids and their deal (R12 to R14, R375, R376), what a core
and a pool can hold (R18, R292, R294, R408), admission (R18, R22, R42, R295, R303, R370), context images (R42 to R44).
-/

namespace Sys2Proof.Machine

/-! ## Descriptors -/

/-- Rounded-up quotient. -/
def ceilDiv (a b : Nat) : Nat := (a + b - 1) / b

/-- Fields of n bytes at an offset of a byte record. -/
def fieldAt (bs : List Byte) (o n : Nat) : Nat := ofLeBytes ((bs.drop o).take n)

/-- A dimension: extent, source stride, destination stride (R262). -/
structure Dim where
  n : Nat
  ss : Int
  ds : Int
  deriving DecidableEq, Repr

/-- A tensor descriptor's fields (R261, R262). -/
structure TDesc where
  src : Nat
  dst : Nat
  w : Nat
  aux : Nat
  dims : List Dim
  /-- The reserved fields are zero. -/
  rsv : Bool
  deriving DecidableEq, Repr

/-- A descriptor's fields, from its bytes. -/
def tdescOf (bs : List Byte) : TDesc :=
  let w := fieldAt bs 0x10 4
  { src := fieldAt bs 0 8, dst := fieldAt bs 8 8, w := w, aux := fieldAt bs 0x18 8,
    rsv := decide (w / 2 ^ 30 = 0) && decide (w / 2 ^ 11 % 2 = 0) && decide (fieldAt bs 0x14 4 = 0) && ((bs.drop 0x20).take 0x20).all (fun b => decide (b = 0)),
    dims := (List.range (w % 16 + 1)).map (fun d =>
      { n := fieldAt bs (0x40 + 16 * d) 4, ss := sextN 48 (fieldAt bs (0x44 + 16 * d) 6), ds := sextN 48 (fieldAt bs (0x4A + 16 * d) 6) }) }

/-- A field of the descriptor's word at 0x10. -/
def TDesc.fld (t : TDesc) (lo n : Nat) : Nat := t.w / 2 ^ lo % 2 ^ n

/-- Element size of a plain type code. -/
def elemSize (t : Nat) : Nat := esize t

/-- Bytes of a block with its scale: i4x and c4 17, mx8 33. -/
def blockBytes (t : Nat) : Nat := if t = 0xF then 33 else 17

/-- The descriptor is valid for CPY.t (form 1) or CPY.x (form 2) (R266). DEDUCED (log entry 32): a codebook address of c4 that is not 32-byte aligned, which
R261 asks for, makes it invalid as one of 0 does. -/
def TDesc.ok (t : TDesc) (form : Nat) : Bool :=
  let xop := t.fld 12 3
  let sf := t.fld 16 4
  let df := t.fld 20 4
  let ssp := t.fld 4 2
  let dsp := t.fld 6 2
  let plainT := fun (f : Nat) => decide (f ≤ 10)
  let fl := fun (f : Nat) => decide (2 ≤ f ∧ f ≤ 4)
  let blk := fun (f : Nat) => decide (13 ≤ f ∧ f ≤ 15)
  let c4 := decide (2 ≤ xop) && (decide (sf = 14) || decide (df = 14))
  let fits := fun (es ed : Nat) => decide (t.src % es = 0) && decide (t.dst % ed = 0) &&
    t.dims.all (fun d => decide (d.ss % (es : Int) = 0) && decide (d.ds % (ed : Int) = 0))
  let row0 := decide ((t.dims.headD { n := 0, ss := 0, ds := 0 }).n % 32 = 0)
  t.rsv && decide (ssp ≠ 3) && decide (dsp ≠ 3) && (decide (ssp = 0) || decide (t.src < 2 ^ 32)) && (decide (dsp = 0) || decide (t.dst < 2 ^ 32)) &&
  (if form = 1 then decide (t.fld 12 18 = 0) && decide (t.aux = 0) && decide (t.fld 8 3 ≤ 4) && fits (2 ^ t.fld 8 3) (2 ^ t.fld 8 3)
   else
     decide (t.fld 8 3 = 0) && decide (1 ≤ xop ∧ xop ≤ 3) && decide (t.fld 24 3 ≤ 5) && (decide (xop = 1) || decide (t.fld 24 6 = 0)) &&
     (decide (t.fld 15 1 = 0) || decide (sf = 15) || decide (df = 15)) && (if c4 then decide (t.aux ≠ 0) && decide (t.aux % 32 = 0) else decide (t.aux = 0)) &&
     (match xop with
      | 1 => plainT sf && plainT df && fits (elemSize sf) (elemSize df)
      | 2 => fl sf && blk df && row0
      | _ => blk sf && fl df && row0))

/-- Size of the descriptor whose byte at 0x10 is given (R261). -/
def tdescSize (b : Nat) : Nat := 64 + 16 * (b % 16 + 1)

/-- Configurable banks an allocation needs (R294). -/
def banksFor (scratch tmem fifo : Nat) : Nat := ceilDiv (ceilDiv scratch 256) 192 + ceilDiv tmem 49152 + fifo

/-- The kernel descriptor that 128 bytes hold, when it breaks no rule of R12, R134 and R137. -/
def parseKDesc (bs : List Byte) : Option KDesc :=
  let b := fun o => fieldAt bs o 1
  let k : KDesc :=
    { entry := BitVec.ofNat 64 (fieldAt bs 0 8), width := 8 * 2 ^ b 8, teams := b 9, cx := b 10 % 4 + 1, cy := b 10 / 4 % 4 + 1,
      cz := b 10 / 16 % 4 + 1, acc := b 11, accMax := b 12, regs := b 13 + 1, bars := b 14, tags := b 15, scratch := fieldAt bs 16 4,
      tmem := fieldAt bs 20 4, fifo := b 24, trapEn := b 25 }
  if b 8 ≤ 3 ∧ 1 ≤ k.teams ∧ k.teams ≤ 16 ∧ k.width * k.teams ≤ 1024 ∧ b 10 < 64 ∧ k.cx * k.cy * k.cz ≤ 4 ∧ k.acc ≤ 128 ∧
     k.acc ≤ k.accMax ∧ k.accMax ≤ 128 ∧ k.bars ≤ 16 ∧ k.tags ≤ 64 ∧ k.scratch % 256 = 0 ∧ k.tmem % 8192 = 0 ∧ k.fifo ≤ 16 ∧
     k.scratch + k.tmem + 49152 * k.fifo ≤ 786432 ∧ banksFor k.scratch k.tmem k.fifo ≤ 16 ∧ k.trapEn < 64 ∧
     (bs.drop 26).all (fun x => decide (x = 0)) then some k else none

/-- Blocks of one cluster. -/
def KDesc.cluster (k : KDesc) : Nat := k.cx * k.cy * k.cz

/-- The extents of a grid are within R12 for a kernel's cluster. -/
def extentsOk (k : KDesc) (gx gy gz : Nat) : Bool :=
  decide (gx < 2 ^ 31) && decide (gy ≤ 65535) && decide (gz ≤ 65535) &&
    (decide (gx = 0) || decide (gx % k.cx = 0)) && (decide (gy = 0) || decide (gy % k.cy = 0)) && (decide (gz = 0) || decide (gz % k.cz = 0))

/-! ## The context pool (R408, R410, R420, R421) -/

/-- The handler-table entry of a process as a core reads it: HANDLER, POOL_BASE, POOL_SIZE; zero when there is no table. -/
def State.handlerEntry (s : State) (d c p : Nat) : Nat × Nat × Nat :=
  let base := ((s.core d c).reg 0x110).toNat
  if base = 0 then (0, 0, 0)
  else (s.homeNum (base + 32 * p) 8 % 2 ^ 57, s.homeNum (base + 32 * p + 8) 8 % 2 ^ 57, s.homeNum (base + 32 * p + 16) 8 % 2 ^ 48)

/-- Rounded up to a multiple. -/
def roundUp (n m : Nat) : Nat := ceilDiv n m * m

/-- Size of a frame area (R410). -/
def frameSize (w : Nat) : Nat := roundUp (81936 + 2560 * w) 4096

/-- Size of a context image (R42). -/
def imageSize (w : Nat) : Nat := 512 + 1120 * w

/-- Size of a block save area (R420). -/
def bsaveSize (k : KDesc) : Nat :=
  0x1400 + 33 * roundUp k.scratch 256 / 32 + 33 * k.tmem / 32 + 49152 * k.fifo

/-- Bytes of the pool that one block takes: frame areas, save area, images, accumulator image (log entry 12). -/
def poolBytes (k : KDesc) : Nat :=
  roundUp (k.teams * frameSize k.width + roundUp (bsaveSize k) 256 + k.teams * imageSize k.width + k.accMax * 32768) 4096

/-- The lowest place of the pool with room for n bytes beside the given extents: fuel counts the extents. -/
def firstFit : Nat → List (Nat × Nat) → Nat → Nat → Option Nat
  | 0, ext, at_, n => if ext.any (fun e => decide (e.1 < at_ + n ∧ at_ < e.1 + e.2)) then none else some at_
  | f + 1, ext, at_, n =>
    match ext.find? (fun e => decide (e.1 < at_ + n ∧ at_ < e.1 + e.2)) with
    | some e => firstFit f ext (e.1 + e.2) n
    | none => some at_

/-- Pool extents that the blocks of a process hold. -/
def State.poolUsed (s : State) (p : Nat) : List (Nat × Nat) :=
  (s.blocks.filter (fun b => match s.grid b.grid with | some g => decide (g.proc = p) | none => false)).map (fun b => b.pool)

/-- Room in a process's pool for a block of a kernel, as an offset. -/
def State.poolRoom (s : State) (d c p : Nat) (k : KDesc) : Option Nat :=
  let n := poolBytes k
  match firstFit (s.poolUsed p).length (s.poolUsed p) 0 n with
  | some o => if o + n ≤ (s.handlerEntry d c p).2.2 then some o else none
  | none => none

/-! ## What a core holds (R18, R22, R294, R303, R380) -/

/-- Blocks on a core, resident or away. -/
def State.blocksOn (s : State) (d c : Nat) : List Block := s.blocks.filter (fun b => decide (b.die = d ∧ b.core = c))

/-- Banks of a core that stand in a mode and are not being changed (R291, R293). -/
def Core.banksOf (k : Core) (mode : Nat) : List Nat :=
  (List.range 16).filter (fun i => decide (bitsN (k.reg 0x108) (2 * i) 2 = mode) && !k.banking.any (fun b => decide (b.1 = i)))

/-- What a bank holds in a mode: granules as scratchpad, units as tile memory, itself as FIFO (R291, R292). -/
def bankCap : Nat → Nat
  | 1 => 192
  | 2 => 6
  | 3 => 1
  | _ => 0

/-- What a bank of a mode has left. -/
def Core.bankFree (k : Core) (mode i : Nat) : Nat :=
  bankCap mode - ((k.alloc.filter (fun u => decide (u.bank = i))).map (fun u => u.amount)).foldl (· + ·) 0

/-- What the banks of a mode have left. -/
def Core.roomIn (k : Core) (mode : Nat) : Nat := ((k.banksOf mode).map (k.bankFree mode)).foldl (· + ·) 0

/-- A part of a bank is held by a block or a tile (R293). -/
def Core.bankHeld (k : Core) (i : Nat) : Bool := k.alloc.any (fun u => decide (u.bank = i))

/-- An amount of a mode taken for an owner. Which banks it lies in is firmware's: DESIGN CHOICE (log entry 65), the lowest with room. -/
def Core.take (k : Core) (mode owner n : Nat) : Core :=
  { k with alloc := ((k.banksOf mode).foldl (fun (a : List BankUse × Nat) i =>
      let m := min a.2 (k.bankFree mode i)
      (if m = 0 then a.1 else a.1 ++ [{ bank := i, owner := owner, amount := m }], a.2 - m)) (k.alloc, n)).1 }

/-- The banks of a core, in the modes they stand in, have room for granules, units and FIFO banks (R292, R294). -/
def State.banksHold (s : State) (d c g u f : Nat) : Bool :=
  let k := s.core d c
  decide (g ≤ k.roomIn 1) && decide (u ≤ k.roomIn 2) && decide (f ≤ k.roomIn 3)

/-- Granules, units and FIFO banks taken on a core. -/
def State.takeBanks (s : State) (d c owner g u f : Nat) : State :=
  s.setCore d c ((((s.core d c).take 1 owner g).take 2 owner u).take 3 owner f)

/-- The banks of owners released on a core. -/
def State.freeBanks (s : State) (d c : Nat) (owners : List Nat) : State := s.setCore d c ((s.core d c).release owners)

/-- Resident teams of a partition: team count and threads, the agent among them (R22, R380). -/
def State.partLoad (s : State) (d c q : Nat) : Nat × Nat :=
  let ts := s.allTeams.filter (fun t => decide (t.die = d ∧ t.core = c ∧ t.part = q ∧ t.run ≠ .away))
  let base := if q = 0 ∧ !ts.any (fun t => t.agent) then (1, 8) else (0, 0)
  (base.1 + ts.length, base.2 + (ts.map (fun t => t.width)).foldl (· + ·) 0)

/-- Partitions for n teams of width w beside the given loads: the lowest partition with room each time (log entry 13). -/
def placeTeams : Nat → Nat → List (Nat × Nat) → Option (List Nat)
  | 0, _, _ => some []
  | n + 1, w, loads =>
    match (List.range 4).find? (fun q => let l := loads.getD q (32, 2048); decide (l.1 < 32 ∧ l.2 + w ≤ 2048)) with
    | none => none
    | some q =>
      let l := loads.getD q (0, 0)
      (placeTeams n w (setAt loads q (l.1 + 1, l.2 + w))).map (fun r => q :: r)

/-- Partitions for the teams of a block on a core. -/
def State.teamPlaces (s : State) (d c : Nat) (k : KDesc) : Option (List Nat) :=
  placeTeams k.teams k.width ((List.range 4).map (s.partLoad d c))

/-- The lowest free block slot (R417). -/
def State.freeSlot (s : State) (d c : Nat) : Option Nat :=
  (List.range 128).find? (fun i => !(s.blocksOn d c).any (fun b => decide (b.slot = i)))

/-- The lowest run of free physical tags (R303). -/
def State.freeTags (s : State) (d c n : Nat) : Option Nat :=
  let ext := (s.blocksOn d c).filterMap (fun b => if b.run = .away ∨ b.tags = [] then none else some (b.tb, b.tags.length))
  if n = 0 then some 0
  else match firstFit ext.length ext 0 n with
    | some o => if o + n ≤ 64 then some o else none
    | none => none

/-- A number of blocks of a kernel fit an empty core (R294, R372, R437): banks, tags, teams and slots. -/
def fitsEmpty (k : KDesc) (n : Nat) : Bool :=
  decide (banksFor (n * roundUp k.scratch 256) (n * k.tmem) (n * k.fifo) ≤ 16) && decide (n * k.tags ≤ 64) && decide (n ≤ 128) &&
    (placeTeams (n * k.teams) k.width [(1, 8), (0, 0), (0, 0), (0, 0)]).isSome

/-- A process's pool could hold one block cluster of a kernel, whose blocks are admitted together, when it is empty (R376, R408). -/
def State.poolHolds (s : State) (d c p : Nat) (k : KDesc) : Bool :=
  decide (k.cx * k.cy * k.cz * poolBytes k ≤ (s.handlerEntry d c p).2.2)

/-- The block clusters of a kernel can be held on a die: every core's share of one cluster fits it empty (R437). -/
def State.clusterFits (s : State) (d : Nat) (k : KDesc) : Bool :=
  let hw := (List.range 9).map (fun h => ((List.range 4).filter (fun i => s.enabled d (4 * h + i))).length)
  hw.all (fun e => decide (e = 0) || fitsEmpty k (ceilDiv k.cluster e))

/-! ## Numbering and dealing (R13, R376) -/

/-- The launch sequence number that a grid's programs read: that of the pass in a fragment or tile-kernel block (R327), which the
model keeps as a grid of one block under a number of its own. -/
def Grid.number (g : Grid) : Nat :=
  match g.origin with
  | .fragment p _ => p
  | .tileKernel p _ => p
  | _ => g.lseq

/-- The launch sequence number of a block. -/
def State.launchOf (s : State) (b : Block) : Nat := match s.grid b.grid with | some g => g.number | none => b.grid

/-- Block index of a linear number (R13). -/
def Grid.index (g : Grid) (lin : Nat) : Nat × Nat × Nat := (lin % g.gx, lin / g.gx % g.gy, lin / g.gx / g.gy)

/-- Number of block clusters of a grid. -/
def Grid.units (g : Grid) : Nat := (g.gx / g.kd.cx) * (g.gy / g.kd.cy) * (g.gz / g.kd.cz)

/-- Cluster number and rank of a block (R13). -/
def Grid.clusterOf (g : Grid) (lin : Nat) : Nat × Nat :=
  let (x, y, z) := g.index lin
  let k := g.kd
  (x / k.cx + (g.gx / k.cx) * (y / k.cy + (g.gy / k.cy) * (z / k.cz)), x % k.cx + k.cx * (y % k.cy + k.cy * (z % k.cz)))

/-- Linear number of the block of a rank of a cluster (R13). -/
def Grid.linearOf (g : Grid) (cl r : Nat) : Nat :=
  let k := g.kd
  let x := cl % (g.gx / k.cx) * k.cx + r % k.cx
  let y := cl / (g.gx / k.cx) % (g.gy / k.cy) * k.cy + r / k.cx % k.cy
  let z := cl / (g.gx / k.cx) / (g.gy / k.cy) * k.cz + r / k.cx / k.cy
  x + g.gx * (y + g.gy * z)

/-- Hardware clusters of a die that hold enabled cores, each as its enabled physical cores in logical order (R376, R434). -/
def State.hwClusters (s : State) (d : Nat) : List (List Nat) :=
  ((List.range 9).map (fun h => (List.range 4).filterMap (fun i => if s.enabled d (4 * h + i) then some (4 * h + i) else none))).filter
    (fun l => decide (l ≠ []))

/-- The physical core of a block of the j-th cluster of a die's share (R376). -/
def State.dealCore (s : State) (d size j r : Nat) : Nat :=
  if size = 1 then
    let cs := s.logical d
    cs.getD (j % cs.length) 0
  else
    let hs := s.hwClusters d
    let cs := hs.getD (j % hs.length) []
    cs.getD (r % cs.length) 0

/-- One entry appended to a core's queue. -/
def State.enqueue (s : State) (d c : Nat) (e : BlockEntry) : State :=
  let k := s.core d c
  s.setCore d c { k with queue := k.queue ++ [e] }

/-- The blocks of a grid dealt (R376): `die` gives the die of each cluster, `seen` counts each die's share so far. -/
def State.deal (s : State) (g : Grid) (die : Nat → Nat) : Nat → Nat → List (Nat × Nat) → State
  | 0, _, _ => s
  | n + 1, cl, seen =>
    let d := die cl
    let j := defGet 0 seen d
    let sz := g.kd.cluster
    let s := (List.range sz).foldl (fun s r =>
      s.enqueue d (s.dealCore d sz j r)
        { grid := g.lseq, lin := g.linearOf cl r, movable := decide (sz = 1) && !g.pin && decide (g.start = 0) }) s
    s.deal g die n (cl + 1) (tabSet seen d (j + 1))

/-- A grid accepted and its blocks dealt; its number is the device's next (R17). -/
def State.launch (s : State) (g : Grid) (die : Nat → Nat) : State :=
  let n := g.units * g.kd.cluster
  let g := { g with left := n }
  let s := { s with grids := s.grids ++ [g] }
  s.deal g die g.units 0 []

/-! ## Context images (R42 to R44) -/

/-- The thread record of R43. -/
def threadBytes (th : Thread) : List Byte :=
  wordsBytes [ if th.exited then 0 else th.pc.toNat, th.pval.toNat + th.ppois.toNat * 2 ^ 32 ] ++ w32Bytes th.x ++
    wordsBytes [ (if th.exited then 1 else 0) + (if th.waiting then 2 else 0) + th.wmask.toNat * 4, 0 ]

/-- Width code of TEAM_INFO (R42). -/
def widthCode (w : Nat) : Nat := if w ≤ 8 then 0 else if w ≤ 16 then 1 else if w ≤ 32 then 2 else 3

/-- Code of a shape tag (R48). -/
def Tag.code : Tag → Nat
  | .unset => 0
  | .uniform => 1
  | .affine => 2
  | .general => 3

/-- Bits of a list of Booleans as bytes, lowest first. -/
def bitBytes (n : Nat) (bs : List Bool) : List Byte :=
  leBytes n ((mapIx (fun i b => if b then 2 ^ i else 0) bs).foldl (· + ·) 0)

/-- The first 512 bytes of a team's context image (R42). -/
def imageHead (t : Team) (depth : Nat) : List Byte :=
  (List.range 64).map (fun i => BitVec.ofNat 8 (((List.range 4).map (fun j => (t.vreg (4 * i + j)).tag.code * 4 ^ j)).foldl (· + ·) 0))
  ++ w32Bytes (t.sregs.map (fun e => e.val)) ++ wordsBytes (t.mregs.map (fun m => m.toNat))
  ++ bitBytes 8 (t.sregs.map (fun e => e.pois)) ++ leBytes 8 (flagWord t.flags) ++ w32Bytes [t.trapEn, t.sticky]
  ++ wordsBytes [widthCode t.width + t.index * 4 + depth * 64 + t.cls * 1024, t.frameVa.toNat]
  ++ List.replicate 216 0

/-- Bytes of a vector slot that its tag requires (R44, R46). -/
def slotBytes (r : VReg) : List Byte :=
  let v := fun i => (r.elems.getD i Elem.zero).val
  match r.tag with
  | .unset => []
  | .uniform => w32Bytes [v 0]
  | .affine => w32Bytes [v 0, v 1 - v 0]
  | .general => w32Bytes (r.elems.map (fun e => e.val))

/-- The poison row and the slot of a vector register in the image of a team of width w (R42, R44). -/
def regPieces (w : Nat) (nr : Nat × VReg) : List (Nat × List Byte) :=
  let p := 0x200 + 64 * w
  (if nr.2.tag = .general then [(p + nr.1 * (w / 8), bitBytes (w / 8) (nr.2.elems.map (fun e => e.pois)))] else [])
  ++ [(p + 32 * w + nr.1 * 4 * w, slotBytes nr.2)]

/-- The pieces of a team's context image: offsets and bytes (R42). -/
def imagePieces (t : Team) (depth : Nat) : List (Nat × List Byte) :=
  [(0, imageHead t depth), (0x200, t.threads.flatMap threadBytes)] ++ t.vregs.flatMap (regPieces t.width)

/-- A vector register as its slot, poison row and tag give it (R44). -/
def readSlot (w tag : Nat) (slot row : List Byte) : VReg :=
  let n := fun o => BitVec.ofNat 32 (fieldAt slot o 4)
  match tag with
  | 1 => { tag := .uniform, elems := List.replicate w (Elem.ofWord (n 0)) }
  | 2 => { tag := .affine, elems := (List.range w).map (fun l => Elem.ofWord (n 0 + BitVec.ofNat 32 l * n 4)) }
  | 3 => { tag := .general, elems := (List.range w).map (fun l =>
            { val := n (4 * l), pois := decide (ofLeBytes row / 2 ^ l % 2 = 1) }) }
  | _ => VReg.unset w

/-- The vector registers, scalar and mask registers and thread fields that an image holds, put into a team (R45). The PCs, and
what waits in WAITM, come from the lane records (R416). -/
def loadImage (t : Team) (rd : Nat → Nat → List Byte) : Team :=
  let w := t.width
  let p := 0x200 + 64 * w
  let v := p + 32 * w
  let tags := rd 0 64
  let spois := fieldAt (rd 0x100 8) 0 8
  let rs := (List.range 256).filterMap (fun n =>
    let tg := (tags.getD (n / 4) 0).toNat / 4 ^ (n % 4) % 4
    if tg = 0 then none
    else some (n, readSlot w tg (rd (v + n * 4 * w) (4 * w)) (rd (p + n * (w / 8)) (w / 8))))
  { t with
    vregs := rs
    sregs := (List.range 24).map (fun i => { val := BitVec.ofNat 32 (fieldAt (rd (0x40 + 4 * i) 4) 0 4), pois := decide (spois / 2 ^ i % 2 = 1) })
    mregs := (List.range 12).map (fun i => BitVec.ofNat 64 (fieldAt (rd (0xA0 + 8 * i) 8) 0 8) &&& fullMask w)
    trapEn := BitVec.ofNat 32 (fieldAt (rd 0x110 4) 0 4 % 64)
    sticky := BitVec.ofNat 32 (fieldAt (rd 0x114 4) 0 4 % 64)
    threads := mapIx (fun l th =>
      let b := rd (0x200 + 64 * l) 64
      { th with pval := BitVec.ofNat 24 (fieldAt b 8 3), ppois := BitVec.ofNat 24 (fieldAt b 12 3),
                x := (List.range 8).map (fun i => BitVec.ofNat 32 (fieldAt b (16 + 4 * i) 4) &&& 0x1FFFFFFF) }) t.threads }

/-- Lanes whose thread record says that they have exited while the team's own state has them live (R43, R45). -/
def imageExits (t : Team) (rd : Nat → Nat → List Byte) : Mask :=
  maskOf t.width (fun l => !(t.thread l).exited && decide (fieldAt (rd (0x230 + 64 * l) 1) 0 1 % 2 = 1))

/-- PC, WAITING and WMASK of the thread records, for a team that stands in no frame of a stop: its lane records are an earlier trap's
(R43, R427). -/
def loadPcs (t : Team) (rd : Nat → Nat → List Byte) : Team :=
  { t with threads := mapIx (fun l th =>
      if th.exited then th
      else
        let b := rd (0x200 + 64 * l) 64
        let pc := BitVec.ofNat 57 (fieldAt b 0 8)
        let st := fieldAt b 48 1
        { th with pc := pc, hdr := if pc = th.pc then th.hdr else pc, waiting := decide (st / 2 % 2 = 1) && decide (st / 4 % 16 ≤ 11),
                  wmask := BitVec.ofNat 4 (st / 4) }) t.threads }

/-! ## Admission (R18, R40, R295, R303, R370) -/

/-- The preloads of a team (R370): s0:s1 and the vector slots, in order. -/
def preload (t : Team) (g : Grid) : Team :=
  let t := t.setSpair 0 g.args false
  g.pre.foldl (fun t p =>
    t.vwrite p.1 false ((List.range t.width).map (fun l => (l, Elem.ofWord (p.2.1 + BitVec.ofNat 32 l * p.2.2))))) t

/-- A team of a block at admission (R40, R409). R137 gives ENTRY 64 bits and R43 a PC of 57, and no rule says what bits 63 to 57 of ENTRY
do: DESIGN CHOICE (log entry 62), the model drops them. -/
def newTeam (s : State) (b : Block) (g : Grid) (id i part : Nat) : Team :=
  let w := g.kd.width
  let base := (s.handlerEntry b.die b.core g.proc).2.1 + b.pool.1
  let fr := base + i * frameSize w
  let bs := base + g.kd.teams * frameSize w
  let im := bs + roundUp (bsaveSize g.kd) 256 + i * imageSize w
  let th := { Thread.reset with pc := bits g.kd.entry 0 57, hdr := bits g.kd.entry 0 57 }
  preload { Team.reset with
    id := id, block := b.id, index := i, width := w, die := b.die, core := b.core, proc := g.proc, part := part, sec := 0
    cls := g.cls, home := g.cls, threads := List.replicate w th, trapEn := BitVec.ofNat 32 g.kd.trapEn
    handler := BitVec.ofNat 64 (s.handlerEntry b.die b.core g.proc).1
    image := BitVec.ofNat 64 im, frameVa := BitVec.ofNat 64 fr, bsave := BitVec.ofNat 64 bs } g

/-- The header of a block save area (R420), current while the block is resident. -/
def bsaveHead (b : Block) (g : Grid) (frames : List Nat) : List Byte :=
  wordsBytes [g.number, b.accBase.toNat] ++ leBytes 4 (b.tb + b.tags.length * 2 ^ 8 + b.slot * 2 ^ 16) ++ leBytes 4 b.acc.length
    ++ List.replicate 104 0 ++ wordsBytes frames ++ List.replicate (8 * (16 - frames.length)) 0

/-- A tile just allocated: every element +0.0 (R40). -/
def AccTile.zero : AccTile := { busy := false, slot := false, out := false, bad := false, used := 0, elems := [] }

/-- What an attempt at admission answers: the state with the block; the block waits; a pool page faults; one is refused. -/
inductive Admit where
  | ok (s : State)
  | wait
  | fault (va level : Nat)
  | refuse (va cause : Nat)

/-- A block admitted to a core whole or not at all (R18). `tm` names a tile allocation it shares; 0 = its own. -/
def State.admitBlock (s : State) (g : Grid) (lin d c tm : Nat) : Admit :=
  let k := g.kd
  let u := if tm = 0 then k.tmem / 8192 else 0
  match s.freeSlot d c, s.freeTags d c k.tags, s.teamPlaces d c k, s.poolRoom d c g.proc k with
  | some slot, some tb, some parts, some off =>
    if !s.banksHold d c (ceilDiv k.scratch 256) u k.fifo then .wait
    else
      let id := s.nextId
      let base := (s.handlerEntry d c g.proc).2.1 + off
      let bs := base + k.teams * frameSize k.width
      let own := decide (tm = 0) && decide (k.tmem ≠ 0)
      let b : Block :=
        { id := id, grid := g.lseq, lin := lin, die := d, core := c, slot := slot, run := .resident, hold := .held, away := 0, scratch := Bank.zero k.scratch,
          tmem := if own then id else tm, fifos := List.replicate k.fifo [], bars := List.replicate 16 Barrier.reset,
          past := [], tags := List.replicate k.tags CopyTag.reset, tb := tb, acc := List.replicate k.acc AccTile.zero, accMax := k.accMax,
          accBase := BitVec.ofNat 64 (bs + roundUp (bsaveSize k) 256 + k.teams * imageSize k.width), bsave := BitVec.ofNat 64 bs,
          nteams := k.teams, pool := (off, poolBytes k) }
      let ts := mapIx (fun i q => newTeam s b g (id + 1 + i) i q) parts
      let s := { s with
        nextId := id + 1 + k.teams
        blocks := s.blocks ++ [b]
        teams := s.teams ++ ts
        tmems := if own then tabSet s.tmems id (Bank.zero k.tmem) else s.tmems }
      let zero := fun (t : Team) => (t.image.toNat - base, List.replicate (imageSize k.width) (0 : Byte))
      let t0 := ts.headD Team.reset
      match s.writePieces t0 base (ts.map zero ++ [(bs - base, bsaveHead b g (ts.map (fun t => t.frameVa.toNat)))]) with
      | .ok s =>
        -- the core drops every buffered code byte of the process before its first block (R125)
        .ok ((s.setCore d c { s.core d c with clean := [] }).takeBanks d c id (ceilDiv k.scratch 256) u k.fifo)
      | .fault va lv => .fault va lv
      | .refuse va c => .refuse va c
  | _, _, _, _ => .wait

/-! ## Changing a bank (R293, R389) -/

/-- The banks that can be changed to a mode: those of other modes that no block holds, L1 ways first (R293, R294). -/
def Core.spare (k : Core) (mode : Nat) : List Nat :=
  (List.range 4).flatMap (fun m => if m = mode then [] else (k.banksOf m).filter (fun i => !k.bankHeld i))

/-- The bank that firmware changes to a mode; 16 = none. -/
def State.convertible (s : State) (d c mode : Nat) : Nat := ((s.core d c).spare mode).headD 16

/-- The bank change that an allocation on a core waits for (R294, R389). -/
def State.bankChange (s : State) (d c g u f : Nat) : Option (Nat × Nat) :=
  let k := s.core d c
  let want := fun mode => if s.convertible d c mode = 16 then none else some (s.convertible d c mode, mode)
  if k.banking ≠ [] then none
  else if k.roomIn 1 < g then want 1
  else if k.roomIn 2 < u then want 2
  else if k.roomIn 3 < f then want 3
  else none

/-- A GO in BANK_CMD (R389): refused when the bank number is beyond 15, the bank is changing, or it is held; changes of a core are performed
one at a time. -/
def State.bankGo (s : State) (d c bank mode : Nat) : State :=
  let k := s.core d c
  let keep := (k.reg 0x109) &&& 0x20000000
  let w := BitVec.ofNat 64 (bank % 32 + mode % 4 * 32)
  if 16 ≤ bank ∨ k.banking.any (fun b => decide (b.1 = bank)) ∨ k.bankHeld bank then s.setCore d c (k.setReg 0x109 (w ||| 0x20000000 ||| ((k.reg 0x109) &&& 0x40000000)))
  else s.setCore d c { k.setReg 0x109 (w ||| keep ||| 0x40000000) with banking := k.banking ++ [(bank, mode)] }

end Sys2Proof.Machine
end

