-- ==== Sys2Proof/Machine/Faults.lean ====
section
/-!
DEFINITION. Machine/Faults: PAGE_WALK, the resolution of page faults (R402), TLB invalidation (R403), compressed blocks and
their chunks (R305 to R307, R406, R407) and the spill area (R104, R407). A step that is not enabled where it stands in the
agenda changes nothing.
-/

namespace Sys2Proof.Machine

/-- What a meaning answers. -/
abbrev Res := Host.Outcome State Fault Refusal

/-! ## Waiting accesses -/

/-- The accesses of a team that wait on pages of its process walk again. -/
def Team.wake (t : Team) (pages : List Nat) : Team :=
  { t with stall := t.stall.filter (fun p => !pages.contains p),
           entries := t.entries.map (fun e => { e with waits := e.waits.filter (fun p => !pages.contains p) }) }

/-- An entry whose lanes translate an address and can wait or be refused there: PREF, CCTL, LD.nf and the on-chip spaces do neither
(R212, R230, R231). -/
def Entry.translates (e : Entry) : Bool :=
  match e.work with
  | .load m => !m.nf && decide (m.space = .global ∨ m.space = .const)
  | .store m => decide (m.space = .global)
  | .atomic m _ _ => decide (m.space = .global)
  | .redDet .. => true
  | .sig .. => true
  | .sload .. => true
  | .sstore .. => true
  | .cps .. => true
  | .rflush all => !all
  | _ => false

/-- An entry that translates for the first time or again: one whose writes wait at a controller has used its translation (R306, R403). -/
def State.seeks (s : State) (t : Team) (e : Entry) : Bool := !e.dropped && !s.waitsHeld t.id e.order none

/-- Lanes of an entry whose address lies in one of the pages. -/
def Entry.lanesIn (e : Entry) (pages : List Nat) : Mask :=
  if !e.translates then 0 else (lanesOf e.lmask).foldl (fun m l => if pages.contains (pageOf (e.addr.getD l 0).toNat) then maskPut m l true else m) 0

/-- Lanes of an entry marked refused, with the lowest refused address and the log cause (R212, R213). -/
def Entry.refuse (e : Entry) (m : Mask) (cause : Nat) : Entry :=
  if m = 0 then e
  else if e.refused = 0 then { e with refused := m, refAddr := e.addr.getD (lowLane m) 0, refCause := cause }
  else { e with refused := e.refused ||| m }

/-- The kind a fault record or a log entry gives the access of an entry (R402). -/
def Entry.kind (e : Entry) : Nat :=
  match e.work with
  | .store _ => kindWrite
  | .sstore .. => kindWrite
  | .matrix op _ _ _ _ => if op = 0x73 then kindWrite else kindRead
  | .atomic .. => kindAtomic
  | .redDet .. => kindAtomic
  | .sig .. => kindAtomic
  | _ => kindRead

/-- Refusal of lanes of an entry, entered in the violation log of its core (R405); those of an RFLUSH are only skipped (R233). -/
def State.refuseEntry (s : State) (t : Team) (e : Entry) (m : Mask) (cause source : Nat) : State :=
  if m = 0 then s
  else
    let va := (e.addr.getD (lowLane m) 0).toNat
    let s := match e.work with
      | .rflush _ => s
      | _ => s.logViolation t.die t.core va e.pc.toNat t.proc cause e.kind source (lowLane m)
    match s.team t.id with
    | some t => s.setTeam (t.setEntry (e.refuse m cause))
    | none => s

/-- The waiting accesses of one team refused with cause 10 (R402). -/
def State.refuseWaits (s : State) (t : Team) (pages : List Nat) : State :=
  let es := t.entries.filter (fun e => e.waits.any (fun p => pages.contains p))
  let s := es.foldl (fun s e => match e.work with
    | .matrix .. => s.refuseEntry t { e with waits := [] } e.lmask 10 2
    | _ => s.refuseEntry t { e with waits := [] } (e.lanesIn pages) 10 0) s
  match s.team t.id with
  | none => s
  | some t =>
    if t.stall.any (fun p => pages.contains p) then
      s.setTeam { t with stall := t.stall.filter (fun p => !pages.contains p), stallRefused := t.stallRefused ++ t.stall.filter (fun p => pages.contains p) }
    else s

/-- A write to FAULT_RESOLVE of a die (R402): 0 RETRY, 1 REFUSE, 2 RETRY for every process, 3 ignored. A record that still waits for room in the
ring is not resolved; a REFUSE refuses every waiting access of the process, the device's own among them. -/
def State.resolve (s : State) (d action p : Nat) : State :=
  if action = 3 then s
  else
    let x := s.die d
    let mine := fun (f : FaultRec) => decide (f.ty = 0) && (decide (action = 2) || decide (f.proc = p))
    let recs := x.faults.filter (fun f => mine f && (f.written || decide (action = 1)))
    let s := s.setDie d { x with faults := x.faults.filter (fun f => !(mine f && f.written)) }
    let pagesOf := fun (q : Nat) => (recs.filter (fun f => decide (f.proc = q))).map (fun f => f.vpage)
    let hit := fun (w : Nat × Nat × Nat) => decide (w.1 = d) && (pagesOf w.2.1).contains w.2.2
    let s := { s with devWaits := s.devWaits.filter (fun w => !hit w),
                      devRefused := s.devRefused.filter (fun w => !hit w) ++ (if action = 1 then s.devWaits.filter hit else []) }
    if action = 1 then
      let s := (s.allTeams.filter (fun t => decide (t.die = d ∧ t.proc = p))).foldl (fun s t => s.refuseWaits t (pagesOf p)) s
      { s with jobs := s.jobs.map (fun j =>
          if j.die = d ∧ j.proc = p ∧ j.waits.any (fun q => (pagesOf p).contains q) then { j with waits := [], refuse := true } else j) }
    else
      let s := s.mapTeams (fun t => if t.die = d then t.wake (pagesOf t.proc) else t)
      { s with jobs := s.jobs.map (fun j =>
          if j.die = d then { j with waits := j.waits.filter (fun q => !(pagesOf j.proc).contains q) } else j) }

/-- FAULT_RESOLVE_RETRY (R402). -/
def execFaultResolveRetry (die proc : Nat) (s : State) : Res := .next (if s.bootState = 3 then s.resolve die 0 proc else s)
/-- FAULT_RESOLVE_REFUSE (R402). -/
def execFaultResolveRefuse (die proc : Nat) (s : State) : Res := .next (if s.bootState = 3 then s.resolve die 1 proc else s)
/-- FAULT_RESOLVE_RETRY_ALL (R402). -/
def execFaultResolveRetryAll (die : Nat) (s : State) : Res := .next (if s.bootState = 3 then s.resolve die 2 0 else s)

/-- The fault ring's base and control written, and records that waited written in order (R402 step 2). -/
def State.faultConfig (s : State) (d : Nat) (base : DWord) (ctl : DWord) : State :=
  let x := ((s.die d).setReg 0x212 base).setReg 0x213 (ctl &&& 0x0FFF001F)
  let s := s.setDie d x
  s.drainFaults d x.faults

/-- FAULT_RI written: the ring may have room again. -/
def State.faultRi (s : State) (d : Nat) (v : DWord) : State :=
  let x := (s.die d).setReg 0x215 (v &&& 0xFFFFFFFF)
  (s.setDie d x).drainFaults d x.faults

/-- FAULT_RING_CONFIG (R402). -/
def execFaultRingConfig (die : Nat) (base : DWord) (ctl : Word) (s : State) : Res := .next (s.faultConfig die base (ctl.setWidth 64))
/-- FAULT_RI_WRITE (R402). -/
def execFaultRiWrite (die : Nat) (v : Word) (s : State) : Res := .next (s.faultRi die (v.setWidth 64))

/-! ## PAGE_WALK (R399, R401) -/

/-- An entry put into a core's TLB; the oldest of 2048 goes (R401). -/
def State.tlbPut (s : State) (d c : Nat) (e : TlbEntry) : State :=
  let k := s.core d c
  s.setCore d c { k with tlb := e :: k.tlb.take 2047 }

/-- The lanes of a mask whose own addresses a walk refuses: an address of the page that a row of R457 decodes is not refused with another's
BADPA. -/
def State.refusedIn (s : State) (d p : Nat) (e : Entry) (m : Mask) : Mask :=
  m &&& maskOf 64 (fun l => m.getLsbD l && (match s.walk d p (e.addr.getD l 0).toNat with | .refuse _ => true | _ => false))

/-- PAGE_WALK: a miss of a core walks the tables: the translation enters the TLB, a page fault is recorded for the accesses
that need the page, or those accesses are refused and logged (R399, R402, R405). -/
def execPageWalk (die core proc : Nat) (va : DWord) (s : State) : Res :=
  .next (
    if (s.tlbFind die core proc va.toNat).isSome then s
    else match s.walk die proc va.toNat with
      | .leaf e => s.tlbPut die core e
      | .fault lv =>
        let mine := s.allTeams.filter (fun t => decide (t.die = die ∧ t.core = core ∧ t.proc = proc))
        let needs := mine.flatMap (fun t => (t.entries.drop t.suspended).filter (fun e => s.seeks t e && decide (e.lanesIn [pageOf va.toNat] ≠ 0)))
        (match needs with
         | [] => s
         | e :: _ =>
           let s := s.pageFault die core proc va.toNat e.kind lv 0
           s.mapTeams (fun t =>
             if t.die = die ∧ t.core = core ∧ t.proc = proc then
               { t with entries := mapIx (fun i e =>
                   if t.suspended ≤ i ∧ s.seeks t e ∧ e.lanesIn [pageOf va.toNat] ≠ 0 ∧ !e.waits.contains (pageOf va.toNat)
                   then { e with waits := pageOf va.toNat :: e.waits } else e) t.entries }
             else t))
      | .refuse r =>
        (s.allTeams.filter (fun t => decide (t.die = die ∧ t.core = core ∧ t.proc = proc))).foldl (fun s t =>
          ((t.entries.drop t.suspended).filter (s.seeks t)).foldl (fun s e =>
            s.refuseEntry t e (s.refusedIn die proc e (e.lanesIn [pageOf va.toNat] &&& ~~~ e.refused)) r 0) s) s)

/-! ## TLB invalidation (R403) -/

/-- Requests written, and requests complete, of a die. -/
def State.tlbCount (s : State) (d : Nat) (req done : Nat) : State :=
  let v := ((s.die d).reg 0x219).toNat
  let r := (v % 2 ^ 32 + req) % 2 ^ 32
  let q := (v / 2 ^ 32 + done) % 2 ^ 32
  s.setDie d ((s.die d).setReg 0x219 (BitVec.ofNat 64 (q * 2 ^ 32 + r)))

/-- A write to TLB_INV (R403): 0 every entry of a process, 1 a range, 2 every process, 3 ignored; a 17th pending request
merges all of them into one for every process. -/
def State.tlbInv (s : State) (d op p log2 : Nat) : State :=
  if 3 ≤ op then s
  else
    let x := s.die d
    let sz := if log2 = 31 then 56 else max 16 log2
    let base := (x.reg 0x218).toNat / 2 ^ sz * 2 ^ sz
    let q := if x.tlbq.length < 16 then x.tlbq ++ [(op, p, base, sz, 1)]
             else [(2, 0, 0, 0, (x.tlbq.map (fun r => r.2.2.2.2)).foldl (· + ·) 1)]
    (s.setDie d { x with tlbq := q }).tlbCount d 1 0

/-- A TLB entry matches a request. -/
def tlbHit (r : Nat × Nat × Nat × Nat × Nat) (e : TlbEntry) : Bool :=
  match r with
  | (0, p, _, _, _) => decide (e.proc = p)
  | (1, p, b, sz, _) => decide (e.proc = p ∧ e.va < b + 2 ^ sz ∧ b < e.va + 2 ^ e.log2)
  | _ => true

/-- A write that waits at a controller used a translation that a request names (R403). -/
def tlbUsed (r : Nat × Nat × Nat × Nat × Nat) (h : HeldWrite) : Bool :=
  match r with
  | (0, p, _, _, _) => decide (h.proc = p)
  | (1, p, b, sz, _) => decide (h.proc = p ∧ b ≤ h.va ∧ h.va < b + 2 ^ sz)
  | _ => true

/-- The oldest request of a die: every matching entry of the device is dropped, and the request completes once no write that used one
waits at a controller. -/
def State.tlbDone (s : State) (d : Nat) : State :=
  let x := s.die d
  match x.tlbq with
  | [] => s
  | r :: rs =>
    let s := { s with cores := s.cores.map (fun (p : Nat × Core) => (p.1, { p.2 with tlb := p.2.tlb.filter (fun e => !tlbHit r e) })) }
    if s.dies.any (fun (p : Nat × Die) => p.2.ctls.any (fun (c : Ctl) => c.held.any (tlbUsed r))) then s
    else (s.setDie d { s.die d with tlbq := rs }).tlbCount d 0 r.2.2.2.2

/-- TLB_INV_PROC (R403). -/
def execTlbInvProc (die proc : Nat) (s : State) : Res := .next (s.tlbInv die 0 proc 0)
/-- TLB_INV_RANGE (R403). -/
def execTlbInvRange (die proc log2 : Nat) (s : State) : Res := .next (s.tlbInv die 1 proc log2)
/-- TLB_INV_ALL (R403). -/
def execTlbInvAll (die : Nat) (s : State) : Res := .next (s.tlbInv die 2 0 0)
/-- TLB_INV_COMPLETE (R403). -/
def execTlbInvComplete (die : Nat) (s : State) : Res := .next (s.tlbDone die)

/-! ## Compressed blocks (R305 to R307, R406, R407) -/

/-- COMPRESSED_WRITE_MERGE: the oldest held block merged, recompressed and stored, and its writes performed; with no chunks the
controller stalls (R306, R307). -/
def execCompressedWriteMerge (die ctl : Nat) (s : State) : Res :=
  let c := s.ctl die ctl
  .next (
    match c.held with
    | [] => s
    | h :: _ =>
      (match s.mergeHeld die ctl (h.pa / 512) with
       | some s => s
       | none => if c.stall then s else s.setCtl die ctl { c with stall := true, since := (s.die die).rclk.toNat }))

/-- A granted page: its 1024 chunks go to the reserve below 2048, then to the free list (R406). -/
def State.grant (s : State) (d k page : Nat) : State :=
  let pa := page * 65536
  let mine := match s.target pa with
    | .hbm e => decide (e = d ∧ k < 2)
    | .capacity e => decide (e = d ∧ 2 ≤ k ∧ k < 4)
    | _ => false
  if mine then
    let c := s.ctl d k
    let r := min 1024 (2048 - c.reserve)
    s.setCtl d k { c with reserve := c.reserve + r, free := c.free + (1024 - r), stall := false }
  else s

/-- CHUNK_GRANT (R406). -/
def execChunkGrant (die ctl page : Nat) (s : State) : Res := .next (s.grant die ctl page)

/-- The packet of a copy, or of the block that a copy works for (R377). -/
def State.jobAt (s : State) (id : Nat) : Option (Nat × Nat) :=
  match s.jobs.find? (fun j => decide (j.id = id)) with
  | none => none
  | some j => if j.block = 0 then some (j.qid, j.index) else (s.block j.block).bind (fun b => s.rootOf 16 b.grid)

/-- The packet on whose account a write waits at a controller: that of its team, of its copy, or of the grid that it flushes for (R377). -/
def State.heldAtPacket (s : State) (h : HeldWrite) : Option (Nat × Nat) :=
  match s.team h.team with
  | some t => (s.block t.block).bind (fun b => s.rootOf 16 b.grid)
  | none => if h.grid ≠ 0 then s.rootOf 16 h.grid else s.jobAt h.entry

/-- CHUNK_TIMEOUT: STALL has stood for CMP_TIMEOUT counts: each process with a write held there is contained with ERROR
CHUNK_TIMEOUT (R307, R407). -/
def execChunkTimeout (die ctl : Nat) (s : State) : Res :=
  let c := s.ctl die ctl
  .next (
    if c.stall ∧ c.since + ((s.die die).reg 0x21B).toNat ≤ (s.die die).rclk.toNat then
      let first := fun (p : Nat) => (c.held.filterMap (fun h => if h.proc = p then s.heldAtPacket h else none)).head?
      let u := s
      let s := ((c.held.map (fun h => h.proc)).eraseDups).foldl (fun (s : State) p => s.contain p 8 (first p)) u
      s.setCtl die ctl { s.ctl die ctl with held := [], stall := false }
    else s)

/-- RSPILL_SIZE written (R407): a smaller value is ignored. -/
def State.spillSize (s : State) (d : Nat) (v : DWord) : State :=
  let x := s.die d
  if v.toNat < (x.reg 0x21D).toNat then s else s.setDie d (x.setReg 0x21D v)

/-- RSPILL_EXTEND (R407). -/
def execRspillExtend (die size : Nat) (s : State) : Res := .next (s.spillSize die (BitVec.ofNat 64 size))

/-- SPILL_TIMEOUT: a RED.det has waited on a full spill area for CMP_TIMEOUT counts: its process is contained (R104, R407). -/
def execSpillTimeout (team entry : Nat) (s : State) : Res :=
  .next (
    match s.team team with
    | none => s
    | some t =>
      (match t.activeEntry entry with
       | some e =>
         let x := s.die t.die
         (match e.work with
          | .redDet _ since =>
            if since ≠ 0 ∧ since + (x.reg 0x21B).toNat ≤ x.rclk.toNat then s.containTeam t 9 else s
          | _ => s)
       | none => s))

end Sys2Proof.Machine
end

