-- ==== Sys2Proof/Machine/Clause.lean ====
section
/-!
DEFINITION. Machine/Clause: reading code and the clauses in it (R107 to R109, R111, R125, R289), and where a lane that waits in
WAITM goes on (R157).
-/

namespace Sys2Proof.Machine

/-- What reading code answers: a value, a page fault, a refusal with its log cause, data held at a controller, or words that
are no clause. -/
inductive Fetched (α : Type) where
  | ok (v : α)
  | fault (va level : Nat)
  | refuse (va cause : Nat)
  | hold
  | bad
  deriving DecidableEq, Repr

/-- A fetched value passed on. -/
def Fetched.bind {α β : Type} (x : Fetched α) (f : α → Fetched β) : Fetched β :=
  match x with
  | .ok v => f v
  | .fault a l => .fault a l
  | .refuse a c => .refuse a c
  | .hold => .hold
  | .bad => .bad

/-- A code word, read at .dv through the process's tables (R125, R400). After the driver overwrites code, R125 lets a fetch see the old
or the new contents of each 8-byte unit until the invalidation; DESIGN CHOICE (log entry 52): the model holds no instruction buffer, and a
fetch reads the newest bytes at home. -/
def State.codeWord (s : State) (t : Team) (va : BitVec 57) : Fetched Word :=
  match s.translate t.die t.core t.proc t.priv kindFetch (va.setWidth 64) with
  | .ok pa c =>
    if c && s.blockHeld pa then .hold
    else if s.readBad .home pa then .refuse va.toNat 9
    else .ok (BitVec.ofNat 32 (s.homeNum pa 4))
  | .fault lv => .fault va.toNat lv
  | .refuse c => .refuse va.toNat c

/-- An instruction of a clause: where it starts, with its PFX, the PFX before it, and its words. -/
structure Item where
  start : BitVec 57
  pfx : Option Word
  w0 : Word
  w1 : Word
  /-- Address after it. -/
  next : BitVec 57
  deriving DecidableEq, Repr

/-- A word is a PFX of one word (R121). -/
def isPfx (w : Word) : Bool := decide (bitsN w 24 8 = 0x1E)

/-- The instruction at an address, a prefix word before it (R289). -/
def State.itemAt (s : State) (t : Team) (a : BitVec 57) : Fetched Item :=
  (s.codeWord t a).bind (fun w =>
    let body := fun (p : Option Word) (a' : BitVec 57) (w0 : Word) =>
      if bit w0 31 then (s.codeWord t (a' + 4)).bind (fun w1 => .ok { start := a, pfx := p, w0 := w0, w1 := w1, next := a' + 8 })
      else .ok ({ start := a, pfx := p, w0 := w0, w1 := 0, next := a' + 4 } : Item)
    if isPfx w then (s.codeWord t (a + 4)).bind (fun w0 => body (some w) (a + 4) w0) else body none a w)

/-- The n instructions from an address (R289). -/
def State.itemsAt (s : State) (t : Team) : Nat → BitVec 57 → Fetched (List Item)
  | 0, _ => .ok []
  | n + 1, a => (s.itemAt t a).bind (fun i => (s.itemsAt t n i.next).bind (fun l => .ok (i :: l)))

/-- A clause: its header word, instructions, trailing PFX and pad word, and the address of the next clause (R107). -/
structure Clause where
  h : Word
  items : List Item
  trail : Option (BitVec 57 × Word)
  pad : Word
  next : BitVec 57
  deriving DecidableEq, Repr

/-- Fields of the header (R108). -/
def clauseCount (h : Word) : Nat := bitsN h 25 4
def clauseClass (h : Word) : Nat := bitsN h 22 3
def clauseWait (h : Word) : Nat := bitsN h 10 12
def clauseSetA (h : Word) : Nat := bitsN h 6 4
def clauseSetB (h : Word) : Nat := bitsN h 2 4

/-- The header's fields are legal (R108). -/
def headerLegal (h : Word) : Bool :=
  decide (bitsN h 29 3 = 5) && decide (clauseCount h ≠ 0) && decide (clauseClass h ≠ 7) &&
    (decide (clauseSetA h < 12) || decide (clauseSetA h = 15)) && (decide (clauseSetB h < 12) || decide (clauseSetB h = 15)) &&
    (decide (clauseSetA h ≠ clauseSetB h) || decide (clauseSetA h = 15))

/-- The words of a clause at a header address (R107, R289). -/
def State.readClause (s : State) (t : Team) (a : BitVec 57) : Fetched Clause :=
  if a.toNat % 8 ≠ 0 then .bad
  else (s.codeWord t a).bind (fun h =>
    if !headerLegal h then .bad
    else (s.itemsAt t (clauseCount h) (a + 4)).bind (fun items =>
      let e := (items.getLastD { start := a, pfx := none, w0 := 0, w1 := 0, next := a + 4 }).next
      (s.codeWord t e).bind (fun w =>
        let trail := if isPfx w then some (e, w) else none
        let e' := if isPfx w then e + 4 else e
        if e'.toNat % 8 = 0 then .ok { h := h, items := items, trail := trail, pad := 0, next := e' }
        else (s.codeWord t e').bind (fun p => .ok { h := h, items := items, trail := trail, pad := p, next := e' + 4 }))))

/-- A control-transfer instruction (R111). -/
def isTransfer (w0 : Word) : Bool := decide (1 ≤ bitsN w0 24 7 ∧ bitsN w0 24 7 ≤ 7)

/-- The checks of R109: pad word zero, control transfers in the last place only. -/
def Clause.legal (c : Clause) : Bool := decide (c.pad = 0) && (c.items.dropLast).all (fun i => !isTransfer i.w0)

/-- The clause at a header address, checked (R108, R109). -/
def State.clauseAt (s : State) (t : Team) (a : BitVec 57) : Fetched Clause :=
  (s.readClause t a).bind (fun c => if c.legal then .ok c else .bad)

/-- Where the group stands after the i-th instruction of a clause (R107): at the next one, and after the last at a trailing PFX or at the
next clause; a control transfer's other lanes go on at the next clause (R150, R153). -/
def Clause.after (c : Clause) (h : BitVec 57) (i : Nat) (x : Item) : BitVec 57 × BitVec 57 :=
  if i + 1 ≠ c.items.length then (x.next, h)
  else match c.trail, isTransfer x.w0 with
    | some (a, _), false => (a, h)
    | _, _ => (c.next, c.next)

/-- Address after the last instruction of a clause. -/
def Clause.itemsEnd (c : Clause) (h : BitVec 57) : BitVec 57 :=
  (c.items.getLastD { start := h, pfx := none, w0 := 0, w1 := 0, next := h + 4 }).next

/-- The address after the WAITM at which a lane waits, read from its clause (R157); the lane's own address where the code cannot be read
or nothing starts there. -/
def State.afterWait (s : State) (t : Team) (pc hdr : BitVec 57) : BitVec 57 × BitVec 57 :=
  match s.clauseAt t hdr with
  | .ok c =>
    (match indexOf (fun (x : Item) => decide (x.start = pc)) c.items with
     | some i => c.after hdr i (c.items.getD i { start := pc, pfx := none, w0 := 0, w1 := 0, next := pc })
     | none => (pc, hdr))
  | _ => (pc, hdr)

end Sys2Proof.Machine
end

