-- ==== Sys2Proof/Machine/Preempt.lean ====
section
/-!
DEFINITION. Machine/Preempt: barriers as exits see them (R228), restoring a team (R416), pre-emption and resume (R417 to
R420), partition stops (R423 to R428), single step (R430), the photo-finish stop (R422), parking by the handler limit (R415).
-/

namespace Sys2Proof.Machine

/-! ## Barriers (R227, R228) -/

/-- The teams of a block. -/
def State.teamsOf (s : State) (blk : Nat) : List Team := s.allTeams.filter (fun t => decide (t.block = blk) && !t.agent)

/-- The phase of a thread's last counted arrival at an object. -/
def Thread.lastAt (th : Thread) (n : Nat) : Option Word := tabGet th.last n

/-- Threads of a block that arrived in a phase or have not exited, those of retired teams among them (R227). -/
def State.expected (s : State) (blk n : Nat) (phase : Word) : Nat :=
  ((s.teamsOf blk).map (fun t => (t.threads.filter (fun th => decide (th.lastAt n = some phase) || !th.exited)).length)).foldl (· + ·) 0 +
  (((s.block blk).getD Block.none).past.map (fun p => (p.2.filter (fun last => decide (tabGet last n = some phase))).length)).foldl (· + ·) 0

/-- The arrivals that an object's phase expects, once an arrival has fixed its count code (R227, R228). -/
def State.barNeed (s : State) (b : Block) (n : Nat) : Option Nat :=
  let x := b.bars.getD n Barrier.reset
  x.code.map (fun code => if code = 0 then s.expected b.id n x.phase else 8 * code)

/-- complete() of R228; the CPS counted on the next phase are pending in it (R302). -/
def State.barComplete (s : State) (blk n : Nat) : State :=
  match s.block blk with
  | none => s
  | some b =>
    let x := b.bars.getD n Barrier.reset
    match s.barNeed b n with
    | none => s
    | some need =>
      if need ≤ x.arrivals ∧ x.cps = 0 then
        s.setBlock { b with bars := setAt b.bars n { x with phase := x.phase + 1, arrivals := 0, code := none, cps := x.later, later := 0 } }
      else s

/-- complete() run for every object of a block, as when a thread exits. -/
def State.barCompleteAll (s : State) (blk : Nat) : State := (List.range 16).foldl (fun s n => s.barComplete blk n) s

/-- Lanes of a team exit (R153): WAITM and the block's barriers are evaluated. -/
def State.exitLanes (s : State) (id : Nat) (m : Mask) : State :=
  match s.team id with
  | none => s
  | some t =>
    let t := t.mapThreads m (fun th => { th with exited := true, waiting := false, pc := 0, hdr := 0 })
    (s.setTeam t.evalWaits).barCompleteAll t.block

/-! ## Restoring a team (R416) -/

/-- Bytes of a team's own frame area, image or save area read as privileged. -/
def State.readOwn (s : State) (t : Team) (va n : Nat) : Acc (List Byte) := s.readVirt t.die t.core t.proc true va n

/-- One lane restored from its record: two 8-byte words; a PC that the handler changed begins a clause (R124, R413). A lane that waits goes
on, once released, after its WAITM: where it was to go on, or where its clause says (R157). -/
def State.restoreLane (s : State) (t : Team) (th : Thread) (saved : BitVec 57) (wait : Option (BitVec 57 × BitVec 57)) (w0 w1 : DWord) : Thread :=
  if th.exited then th
  else
    let pc := bits w0 0 57
    let wm := bits w0 59 4
    let waits := bit w0 63 && decide (wm.toNat ≤ 11)
    let th := { th with pc := pc, hdr := if pc = saved then bits w1 0 57 else pc, waiting := waits, wmask := wm }
    if !waits then th
    else
      let go := match wait with
        | some g => if pc = saved then g else s.afterWait t pc (bits w1 0 57)
        | none => s.afterWait t pc (bits w1 0 57)
      { th with rpc := go.1, rhdr := go.2 }

/-- An answer passed on. -/
def Acc.bind {α β : Type} (x : Acc α) (f : α → Acc β) : Acc β :=
  match x with
  | .ok v => f v
  | .fault a l => .fault a l
  | .refuse a c => .refuse a c

/-- 32-bit words of bytes. -/
def wordsOf (n : Nat) (bs : List Byte) : List Word := (List.range n).map (fun i => BitVec.ofNat 32 (fieldAt bs (4 * i) 4))

/-- Registers of a run in an entry's destination (R58). -/
def Work.dstRun : Work → Nat
  | .load m => m.cnt
  | _ => 1

/-- The busy windows of an entry whose targets are given: those it had, and those that a handler has named (R414, R416). -/
def Entry.windows (e : Entry) (tgt : List (List Nat)) : List Nat :=
  if e.busy = [] ∨ tgt = e.tgt then e.busy
  else (e.busy ++ (lanesOf e.lmask).flatMap (fun l => (List.range e.work.dstRun).map (fun i => (tgt.getD l []).headD 0 + i))).eraseDups

/-- An entry with its capture block read back (R414). -/
def Entry.recapture (e : Entry) (w : Nat) (bs : List Byte) : Entry :=
  if e.work.perLane then
    let tgt := mapIx (fun l (g : List Nat) => (List.range g.length).map (fun i => (bs.getD (4 * l + i) 0).toNat)) e.tgt
    { e with
      tgt := tgt, busy := e.windows tgt
      addr := (List.range w).map (fun l => BitVec.ofNat 64 (fieldAt bs (4 * w + 8 * l) 8))
      data := mapIx (fun l d => wordsOf d.length (bs.drop (12 * w + 52 * l))) e.data }
  else
    let e := { e with cap := bs.take e.cap.length }
    match e.work with
    | .sload .. => { e with addr := e.addr.map (fun _ => BitVec.ofNat 64 (fieldAt bs 0 8)) }
    | .sstore .. =>
      { e with addr := e.addr.map (fun _ => BitVec.ofNat 64 (fieldAt bs 0 8)), data := e.data.map (fun d => wordsOf d.length (bs.drop 8)) }
    | _ => e

/-- The i-th entry of a frame with its capture slot, and its A values where they come from registers, read back (R414). -/
def State.readEntry (s : State) (t : Team) (i : Nat) (e : Entry) : Acc Entry :=
  (s.readOwn t (t.frameVa.toNat + captureOff t.width i) (64 * t.width + 384)).bind (fun bs =>
    let e := e.recapture t.width bs
    if e.regA then
      let n := (e.data.headD []).length
      (s.readOwn t (t.frameVa.toNat + aStore t i) (4 * n)).bind (fun vs => .ok { e with data := [wordsOf n vs] })
    else .ok e)

/-- The first n entries of a frame read back, and those after them as they stand. -/
def State.readEntries (s : State) (t : Team) (n : Nat) : Acc (List Entry) :=
  (mapIx (fun i (e : Entry) => (i, e)) (t.entries.take n)).foldl (fun (a : Acc (List Entry)) p =>
    a.bind (fun l => (s.readEntry t p.1 p.2).bind (fun e => .ok (l ++ [e])))) (.ok [])

/-- The operand latch as the latch store gives it (R243, R414): the values of a register run in their order; values read from memory are those
written, and where a handler has changed them, whatever the device reads in them. -/
def State.readLatch (s : State) (t : Team) (f : Latch) : Acc Latch :=
  let at_ := t.frameVa.toNat + 0x4000 + 2560 * t.width
  (s.readOwn t at_ 16).bind (fun h =>
    let b := fun i => (h.getD i 0).toNat
    let l : Latch := { valid := true, asrc := decide (b 0 = 1), a := b 1, afmt := b 2, m := b 3, c := b 4, vals := [] }
    if b 5 = 0 then .ok Latch.reset
    else
      let run := ceilDiv (32 * 2 ^ (l.m % 4)) t.width * (8 * (l.c + 1)) * t.width
      let n := if h = latchHead f then (latchBytes f).length - 16 else if l.asrc then 4 * run else 2 * (32 * 2 ^ (l.m % 4)) * (16 * (l.c + 1))
      (s.readOwn t (at_ + 16) n).bind (fun bs =>
        .ok { l with vals := if l.asrc then wordsOf (n / 4) bs else if h ++ bs = latchBytes f then f.vals else Config.latchRead (h ++ bs) }))

/-- A team restored from its frame (R416), the lanes named exiting as well: `fault` when a page of the frame area faults; a refused one
contains the process. -/
def State.restore (s : State) (t : Team) (f : Frame) (priv : Bool) (cls : Nat) (ex : Mask) : Acc State :=
  let w := t.width
  (s.readOwn t (t.frameVa.toNat + 0x80) 1024).bind (fun recs =>
  (s.readEntries t f.nrq).bind (fun es =>
  (if f.unlatched then .ok Latch.reset else s.readLatch t f.latch).bind (fun latch =>
    let rec64 := fun o => BitVec.ofNat 64 (fieldAt recs o 8)
    let threads := mapIx (fun l th => s.restoreLane t th (f.pcs.getD l 0) (f.waits.getD l none) (rec64 (16 * l)) (rec64 (16 * l + 8))) t.threads
    let exits := ex ||| maskOf w (fun l => bit (rec64 (16 * l)) 58 && !(t.thread l).exited)
    let keep := (es.filter (fun e => !e.dropped)).map (fun (e : Entry) => { e with faulted := false, waits := [] })
    let gone := es.filter (fun e => e.dropped && !e.final)
    let flags := gone.foldl (fun fs e => decCounts fs e.fla e.flb) f.flags
    let t' := { t with
      threads := threads, entries := keep, flags := flags, frame := none, priv := priv, cls := cls, run := .running, latch := latch
      kids := t.kids.map (fun k => { k with held := false }) }
    let s := gone.foldl (fun s e => s.dropSide t e) (s.setTeam t')
    let s := s.exitLanes t.id exits
    match s.team t.id with
    | some t => .ok (s.setTeam t.evalWaits)
    | none => .ok s)))

/-! ## Writing a stopped team out -/

/-- The depth of a team's grid. -/
def State.depthOf (s : State) (t : Team) : Nat :=
  match s.block t.block with
  | some b => (match s.grid b.grid with | some g => g.depth | none => 0)
  | none => 0

/-- A team's register lines written back to its image (R46). -/
def State.writeImage (s : State) (t : Team) : Acc State := s.writePieces t t.image.toNat (imagePieces t (s.depthOf t))

/-- Bytes of the register cache that a register of a team of width w takes by its tag (R283). -/
def VReg.cacheBytes (w : Nat) (v : VReg) : Nat :=
  match v.tag with
  | .unset => 0
  | .uniform => 8
  | .affine => 8
  | .general => 4 * w + (if v.elems.any (fun e => e.pois) then w / 8 else 0)

/-- Registers of a team that stand in the register cache. -/
def Team.cached (t : Team) : List (Nat × VReg) := t.vregs.filter (fun p => !t.absent.contains p.1)

/-- Bytes of the register cache that a resident team takes: its header lines and thread records, and its registers (R46, R283). -/
def Team.cacheBytes (t : Team) : Nat := t.cached.foldl (fun n p => n + p.2.cacheBytes t.width) (512 + 64 * t.width)

/-- Bytes of a partition's register cache: 2048 lines of 128 bytes (R46). -/
def cacheSize : Nat := 262144

/-- A team is resident and not pre-empted: an agent, or one whose block is not away (R283). -/
def State.onCore (s : State) (t : Team) : Bool := t.agent || (match s.block t.block with | some b => decide (b.run ≠ .away) | none => false)

/-- The registers that may be evicted from the caches of the partitions that hold more than their size: team and register. Which of them goes
is open: DESIGN CHOICE (log entry 64). The lines of a frozen team are written back and stay as they are (R426), and a register that an entry is to
write, one held in the frame among them, is kept. -/
def State.evictable (s : State) (d c : Nat) : List (Nat × Nat) :=
  let ts := s.allTeams.filter (fun t => decide (t.die = d ∧ t.core = c) && s.onCore t)
  (List.range 4).flatMap (fun p =>
    let us := ts.filter (fun t => decide (t.part = p))
    let most := us.foldl (fun n t => n + 512 + 64 * t.width + t.vregs.length * (5 * t.width)) 0
    if most ≤ cacheSize ∨ us.foldl (fun n t => n + t.cacheBytes) 0 ≤ cacheSize then []
    else (us.filter (fun t => !t.agent && decide (t.run ≠ .frozen))).flatMap (fun t =>
      (t.cached.filter (fun r => decide (r.2.cacheBytes t.width ≠ 0) && !t.entries.any (fun e => e.busy.contains r.1))).map (fun r => (t.id, r.1))))

/-- An element's bytes of a team's own image; none where its line is uncorrectable (R447). -/
def State.readOwnNum (s : State) (t : Team) (va n : Nat) : Acc (Option Nat) :=
  match s.readOwn t va n with
  | .ok bs => .ok (some (ofLeBytes bs))
  | .refuse a c => if c = 9 then .ok none else .refuse a c
  | .fault a lv => .fault a lv

/-- A register as its slot and poison row in the image give it under the tag that the cached header holds (R44, R46). DEDUCED (log entry 64): elements
whose bytes or poison bits lie in an uncorrectable line are poisoned, their values open. -/
def State.readReg (s : State) (t : Team) (n : Nat) : Acc VReg :=
  let w := t.width
  let row := t.image.toNat + 0x200 + 64 * w + n * (w / 8)
  let slot := t.image.toNat + 0x200 + 96 * w + n * 4 * w
  let tag := (t.vreg n).tag
  let parts := match tag with | .unset => [] | .uniform => [(0, 4)] | .affine => [(0, 8)] | .general => (List.range w).map (fun l => (4 * l, 4))
  let vals := parts.foldl (fun (a : Acc (List (Option Nat))) p => a.bind (fun vs => (s.readOwnNum t (slot + p.1) p.2).bind (fun v => .ok (vs ++ [v])))) (.ok [])
  vals.bind (fun vs => (if tag = .general then s.readOwnNum t row (w / 8) else .ok (some 0)).bind (fun pr =>
    let elem := fun (l : Nat) =>
      let v : Option Nat := match tag with
        | .unset => some 0
        | .uniform => vs.headD none
        | .affine => (vs.headD none).map (fun x => x + l * (x / 2 ^ 32))
        | .general => vs.getD l none
      match v, pr with
      | some x, some p => ({ val := BitVec.ofNat 32 x, pois := decide (p / 2 ^ l % 2 = 1) } : Elem)
      | some x, none => { val := BitVec.ofNat 32 x, pois := true }
      | none, _ => { val := Config.freeWord (4 * s.fresh + l), pois := true }
    let es := (List.range w).map elem
    .ok { tag := if es.any (fun e => e.pois) then .general else tag, elems := es }))

/-- A register's line evicted: written back to its slot, and absent from then on (R46); the page may fault or be refused (R408). -/
def State.evictRegister (s : State) (team reg : Nat) : State :=
  match s.team team with
  | none => s
  | some t =>
    match t.cached.find? (fun r => decide (r.1 = reg)) with
    | none => s
    | some r =>
      match s.writePieces t t.image.toNat (regPieces t.width r) with
      | .ok s => s.setTeam { t with absent := reg :: t.absent }
      | .fault va lv => s.devFault t.die t.core t.proc va kindWrite lv 0
      | .refuse va c => s.refusedTeam t va c kindWrite

/-- A frame with CAUSE 0x00 (R412, R417, R426) and the image of a team that stands in no frame; a team that stands in one keeps
it. -/
def State.saveTeam (s : State) (t : Team) : Acc State :=
  match t.frame with
  | some f => (s.writeImage t).bind (fun s => .ok (s.setTeam { t with frame := some { f with wrote := t.flags } }))
  | none =>
    let k : Trap := { cause := 0, sub := 0, tpc := 0, thdr := 0, lanes := 0, info := 0, faddr := 0, next := false }
    match s.writePieces t t.frameVa.toNat (framePieces t k 0) with
    | .ok s =>
      let f := { frameOf t k 0 (s.die t.die).rclk with inHandler := false }
      let t := t.intoFrame f
      (match s.writeImage t with
       | .ok s => .ok (s.setTeam t)
       | .fault a lv => .fault a lv
       | .refuse a r => .refuse a r)
    | .fault a lv => .fault a lv
    | .refuse a r => .refuse a r

/-- Something done for every team of a list in turn, all or nothing: the state after it, or the state as it was with the page fault of the team
that met it recorded, or with that team's process contained (R402, R408). -/
def State.forTeams (s : State) (kind : Nat) (f : State → Team → Acc State) (ids : List Nat) : Except State State :=
  ids.foldl (fun (a : Except State State) i =>
    match a with
    | .error e => .error e
    | .ok u =>
      match u.team i with
      | none => .ok u
      | some t =>
        match f u t with
        | .ok u => .ok u
        | .fault va lv => .error (s.devFault t.die t.core t.proc va kind lv 0)
        | .refuse va c => .error (s.refusedTeam t va c kind)) (.ok s)

/-- ARRIVED (R420): two bits for each thread and object. -/
def arrivedBytes (b : Block) (ts : List Team) : List Byte :=
  let w := (ts.headD Team.reset).width
  let last := fun (j : Nat) =>
    match ts.find? (fun t => decide (t.index = j / w)) with
    | some t => (t.thread (j % w)).last
    | none => ((b.past.find? (fun p => decide (p.1 = j / w))).getD (0, [])).2.getD (j % w) []
  let code := fun (j k : Nat) =>
    match tabGet (last j) k with
    | none => 0
    | some p => if p = (b.bars.getD k Barrier.reset).phase then 2 else 1
  (List.range 1024).flatMap (fun j => (List.range 4).map (fun q =>
    BitVec.ofNat 8 (((List.range 4).map (fun i => code j (4 * q + i) * 4 ^ i)).foldl (· + ·) 0)))

/-- One poison bit for each 4-byte word of n bytes. -/
def poisBytes (b : Bank) (n : Nat) : List Byte :=
  bitBytes (n / 32) ((List.range (n / 4)).map (fun i => defGet false b.pois i))

/-- The tile memory that a block's own descriptor declares; a fragment block declares none (R312, R420). -/
def State.ownTile (s : State) (b : Block) : Bank :=
  match s.grid b.grid with
  | some g => if g.kd.tmem = 0 then Bank.zero 0 else s.bankOf b .tile
  | none => Bank.zero 0

/-- The pieces of a block save area from 0x100 onward (R420). -/
def bsavePieces (s : State) (b : Block) : List (Nat × List Byte) :=
  let sz := roundUp b.scratch.size 256
  let tm := s.ownTile b
  let o := 0x1400 + 33 * sz / 32
  let f := o + 33 * tm.size / 32
  [(0x100, b.bars.flatMap (fun x => w32Bytes [x.phase, BitVec.ofNat 32 x.arrivals,
      (match x.code with | some c => BitVec.ofNat 32 c | none => 0xFFFFFFFF), BitVec.ofNat 32 x.cps])),
   (0x200, b.tags.flatMap (fun t => leBytes 4 ((if t.done then 1 else 0) + t.status * 16))),
   (0x400, arrivedBytes b (s.teamsOf b.id)),
   (0x1400, b.scratch.read 0 sz), (0x1400 + sz, poisBytes b.scratch sz),
   (o, tm.read 0 tm.size), (o + tm.size, poisBytes tm tm.size)]
  ++ mapIx (fun k q => (0x300 + 16 * k, leBytes 8 (q.length * 2 ^ 32))) b.fifos
  ++ mapIx (fun k q => (f + 49152 * k, w32Bytes (q.map (fun e => e.val)))) b.fifos

/-- A bank of a size from its bytes and its poison bits, one for each 4-byte word (R331, R420). -/
def Bank.ofImage (size : Nat) (bs ps : List Byte) : Bank :=
  { size := size
    bytes := (mapIx (fun o b => (o, b)) (bs.take size)).filter (fun ob => decide (ob.2 ≠ emptyByte))
    pois := (mapIx (fun i b => (i, b)) (ps.take ((size + 31) / 32))).flatMap (fun ib =>
      (List.range 8).filterMap (fun j => if bit ib.2 j then some (8 * ib.1 + j, true) else none)) }

/-- A barrier object as its 16 bytes give it (R420). -/
def barOf (bs : List Byte) (k later : Nat) : Barrier :=
  let f := fun o => fieldAt bs (0x100 + 16 * k + o) 4
  { phase := BitVec.ofNat 32 (f 0), arrivals := f 4, code := if f 8 ≤ 128 then some (f 8) else none, cps := f 12, later := later }

/-- A thread's last arrivals as ARRIVED gives them for the phases of the objects: one that ARRIVED names as before stays (R420). -/
def arrivedAs (last : List (Nat × Word)) (phase code : Nat → Nat) : List (Nat × Word) :=
  (List.range 16).foldl (fun t k =>
    let p := BitVec.ofNat 32 (phase k)
    let now := match tabGet t k with | none => 0 | some q => if q = p then 2 else 1
    if code k = now then t
    else if code k = 0 then tabDel t k
    else if code k = 2 then tabSet t k p else tabSet t k (p - 1)) last

/-- A block with its barriers, tags and FIFO elements, and, where its banks were saved, its scratchpad, as the bytes of its save area give them (R420). -/
def Block.unsave (b : Block) (bs : List Byte) (tmem : Nat) : Block :=
  let sz := roundUp b.scratch.size 256
  let f := 0x1400 + 33 * sz / 32 + 33 * tmem / 32
  { b with
    hold := .held
    bars := mapIx (fun k (x : Barrier) => barOf bs k x.later) b.bars
    tags := mapIx (fun k t => { t with done := decide (fieldAt bs (0x200 + 4 * k) 1 % 2 = 1), status := fieldAt bs (0x200 + 4 * k) 1 / 16 }) b.tags
    fifos := mapIx (fun k q => (List.range (min 12288 (fieldAt bs (0x304 + 16 * k) 4))).map (fun i =>
      { val := BitVec.ofNat 32 (fieldAt bs (f + 49152 * k + 4 * i) 4), pois := (q.getD i Elem.zero).pois })) b.fifos
    scratch := if b.hold = .held then b.scratch else Bank.ofImage b.scratch.size (bs.drop 0x1400) (bs.drop (0x1400 + sz)) }

/-- What a block's save area holds from 0x100 onward read back (R420). Scratchpad and tile memory that copies or a CPS wrote while the block was away
still stand in its banks, which had not been saved (R418). -/
def State.unsave (s : State) (b : Block) : Acc State :=
  match s.grid b.grid with
  | none => .ok s
  | some g =>
    match s.readOwn ((s.teamsOf b.id).headD Team.reset) b.bsave.toNat (bsaveSize g.kd) with
    | .fault a lv => .fault a lv
    | .refuse a r => .refuse a r
    | .ok bs =>
      let o := 0x1400 + 33 * roundUp b.scratch.size 256 / 32
      let s := s.setBlock (b.unsave bs g.kd.tmem)
      let s := if g.kd.tmem = 0 ∨ b.hold = .held then s
        else { s with tmems := tabSet s.tmems b.tmem (Bank.ofImage g.kd.tmem (bs.drop o) (bs.drop (o + g.kd.tmem))) }
      let w := ((s.teamsOf b.id).headD Team.reset).width
      let arrive := fun (i l : Nat) (last : List (Nat × Word)) => arrivedAs last (fun k => fieldAt bs (0x100 + 16 * k) 4) (fun k =>
        let at_ := 16 * (i * w + l) + k
        fieldAt bs (0x400 + at_ / 4) 1 / 4 ^ (at_ % 4) % 4)
      let s := { s with blocks := s.blocks.map (fun (x : Block) =>
        if x.id = b.id then { x with past := x.past.map (fun (q : Nat × List (List (Nat × Word))) => (q.1, mapIx (fun l r => arrive q.1 l r) q.2)) } else x) }
      .ok (s.mapTeams (fun t =>
        if t.block = b.id ∧ !t.agent then { t with threads := mapIx (fun l (th : Thread) => { th with last := arrive t.index l th.last }) t.threads }
        else t))

/-! ## Pre-emption (R417 to R420) -/

/-- An accepted copy, or a CPS that is not performed, writes the banks of a block: they stay held (R418). -/
def State.banksBusy (s : State) (blk : Nat) : Bool :=
  s.jobs.any (fun j => decide (j.block = blk)) ||
    (s.teamsOf blk).any (fun t => t.entries.any (fun e => !e.dropped && (match e.work with | .cps .. => true | _ => false)))

/-- The block in a slot of a core. -/
def State.blockIn (s : State) (d c slot : Nat) : Option Block := (s.blocksOn d c).find? (fun b => decide (b.slot = slot))

/-- The mass start that a grid is: its queue and packet index (R372). -/
def State.massOf (s : State) (lseq : Nat) : Option (Nat × Nat) :=
  match s.rootOf 1 lseq with
  | some (q, i) =>
    if (s.queue q).any (fun x => x.staged.any (fun p => decide (p.index = i ∧ fieldAt p.bytes 0 1 = 2))) then some (q, i) else none
  | none => none

/-- The blocks that are resident only together with a block: its block cluster, or its mass start (R35, R36, R37). -/
def State.unitOf (s : State) (b : Block) : List Block :=
  match s.grid b.grid with
  | none => [b]
  | some g => s.blocks.filter (fun x => decide (x.grid = b.grid) && (decide ((g.clusterOf x.lin).1 = (g.clusterOf b.lin).1) || (s.massOf g.lseq).isSome))

/-- A team that a pre-emption waits for: it runs its handler (R419), or is frozen by a stop (R427), or waits to write a frame. -/
def Team.holdsPreempt (t : Team) : Bool :=
  (match t.frame with | some f => f.inHandler && decide (t.run = .running) | none => false) || decide (t.run = .frozen) || t.pend.isSome

/-- A block that is asked to leave its core and has not begun to (R417). -/
def State.asked (s : State) (b : Block) : Bool := decide (b.run = .resident) && (s.core b.die b.core).moving.contains b.id

/-- A block's unit leaves now: one of its blocks is asked to, and no team holds it back (R419, R427). Its teams issue nothing from here on. -/
def State.leaving (s : State) (b : Block) : Bool :=
  (s.unitOf b).any s.asked && (s.unitOf b).all (fun x => !(s.teamsOf x.id).any Team.holdsPreempt)

/-- PREEMPT_STAT of an accepted request: BUSY, REFUSED 0, SLOT (R417). -/
def preStat (busy : Bool) (slot : Nat) : DWord := BitVec.ofNat 64 ((if busy then 2 ^ 31 else 0) + slot % 128)

/-- PREEMPT or RESUME refused: REFUSED is set and nothing else changes (R417). -/
def State.preRefuse (s : State) (d c : Nat) : State := s.setCore d c ((s.core d c).setReg 0x114 ((s.core d c).reg 0x114 ||| 0x100))

/-- The unit of a block asked to leave, for a reason of Block.away: a block cluster and a mass start leave together (R35, R37, R372), so BUSY rises
on the cores of all their blocks. -/
def State.askUnit (s : State) (why : Nat) (b : Block) : State :=
  (s.unitOf b).foldl (fun (s : State) x =>
    if x.run ≠ .resident ∨ s.asked x then s
    else
      let s := s.setBlock { x with away := why }
      let k := s.core x.die x.core
      s.setCore x.die x.core { k.setReg 0x114 (preStat true x.slot) with moving := k.moving ++ [x.id] }) s

/-- A write of PREEMPT with GO (R417): the block's unit leaves, as soon as no team of it is in its handler or frozen (R419, R427). -/
def State.preempt (s : State) (d c slot : Nat) : State :=
  match s.blockIn d c slot with
  | some b =>
    if b.run = .resident ∧ !s.asked b then
      let s := s.askUnit 0 b
      s.setCore d c ((s.core d c).setReg 0x114 (preStat true slot))
    else s.preRefuse d c
  | none => s.preRefuse d c

/-- PREEMPT_GO (R417). -/
def execPreemptGo (die core slot : Nat) (s : State) : Res := .next (s.preempt die core slot)

/-! ## Firmware makes room (R35, R37, R296, R372) -/

/-- The youngest block that a condition picks among those whose unit is resident and not asked to leave. -/
def State.youngest (s : State) (ok : Block → Bool) : Option Block :=
  (s.blocks.filter (fun b => ok b && (s.unitOf b).all (fun x => decide (x.run = .resident) && !s.asked x))).foldl (fun (m : Option Block) b =>
    match m with
    | none => some b
    | some a => if s.launchOf a < s.launchOf b ∨ (s.launchOf a = s.launchOf b ∧ a.lin < b.lin) then some b else some a) none

/-- The banks of blocks that are away and saved, among those a condition picks, handed on to work that waits (R296). -/
def State.releaseAway (s : State) (at_ : Block → Bool) : State :=
  let out := s.blocks.filter (fun b => at_ b && decide (b.run = .away ∧ b.hold = .saved))
  out.foldl (fun s b => (s.freeBanks b.die b.core [b.id]).setBlock { b with hold := .released }) s

/-- Work waits for room at places: banks of blocks away are handed on, or else the youngest unit that may be is pre-empted. -/
def State.makeRoom (s : State) (at_ : Block → Bool) (why : Nat) (ok : Block → Bool) : State :=
  if s.blocks.any (fun b => at_ b && decide (b.run = .away ∧ b.hold = .saved)) then s.releaseAway at_
  else if s.blocks.any (fun b => at_ b && (decide (b.run = .saving) || s.asked b)) then s
  else match s.youngest (fun b => at_ b && ok b) with
    | some b => s.askUnit why b
    | none => s

/-- A team waits on an LNCH flag: a group of it stands at a clause whose wait mask names a flag that an outstanding child counts on
(R27, R37). -/
def State.waitsOnChild (s : State) (t : Team) : Bool :=
  t.threads.any (fun th => !th.exited && decide (th.pc = th.hdr) &&
    (match s.clauseAt t th.hdr with
     | .ok c => t.kids.any (fun k => (clauseWait c.h).testBit k.fla || (clauseWait c.h).testBit k.flb)
     | _ => false))

/-- A child grid lacks room: one of its block entries stands in a queue (R37, R376). -/
def State.childLacksRoom (s : State) : Bool :=
  s.cores.any (fun (p : Nat × Core) => p.2.queue.any (fun e => (s.grid e.grid).any (fun g => match g.origin with | .child .. => true | _ => false)))

/-- Some block of a block's unit waits on an LNCH flag (R37). -/
def State.unitWaits (s : State) (b : Block) : Bool := (s.unitOf b).any (fun y => (s.teamsOf y.id).any s.waitsOnChild)

/-- Firmware may bring back a block that it pre-empted: its children have retired or no child lacks room; no mass start
reserves; no flush runs (R37, R317, R372). -/
def State.mayReturn (s : State) (b : Block) : Bool :=
  decide (b.run = .away) &&
    (match b.away with
     | 0 => false
     | 1 => (s.unitOf b).all (fun x => (s.teamsOf x.id).all (fun t => decide (t.kids = []))) || !s.childLacksRoom
     | 2 => !s.queues.any (fun q => q.staged.any (fun p => decide (p.stage = 1)))
     | _ => !s.passes.any (fun p => p.flushing))

/-- A unit of a core that leaves now stops issue in one cycle; a mass start will start again (R372, R417). -/
def State.startSaves (s : State) (d c : Nat) : State :=
  match (s.blocksOn d c).find? (fun b => s.asked b && s.leaving b) with
  | none => s
  | some b =>
    let s' := (s.unitOf b).foldl (fun (u : State) x => if s.asked x then u.setBlock { x with run := .saving } else u) s
    match s.massOf b.grid with
    | none => s'
    | some (q, i) =>
      { s' with
        queues := s'.queues.map (fun x => if x.qid = q then { x with staged := x.staged.map (fun p => if p.index = i then { p with stage := 4 } else p) } else x)
        grids := s'.grids.map (fun g => if g.lseq = b.grid then { g with start := 2 ^ 64 } else g) }

/-- A block is away: its teams have left, and its request is done; BUSY falls with the last of the core (R417, R418). -/
def State.sentAway (s : State) (b : Block) : State :=
  let s := s.mapTeams (fun t => if t.block = b.id ∧ !t.agent ∧ t.run = .running then { t with run := .away } else t)
  let s := s.setBlock { b with run := .away, hold := if s.banksBusy b.id then .held else .saved }
  s.setCore b.die b.core ((s.core b.die b.core).leave [b.id])

/-- PREEMPT_DONE: a unit of the core that no team holds back stops issue; the frames, images and save area of a block that leaves are written, and
it leaves the core (R417 to R420). -/
def execPreemptDone (die core : Nat) (s : State) : Res :=
  .next (
    let s := s.startSaves die core
    match (s.blocksOn die core).find? (fun b => decide (b.run = .saving)) with
    | none => s
    | some b =>
      let ts := s.teamsOf b.id
      match s.forTeams kindWrite (fun s t => s.saveTeam t) (ts.map (fun t => t.id)) with
      | .error s => s
      | .ok u =>
        match u.forTeams kindWrite (fun u t => u.writePieces t b.bsave.toNat (bsavePieces u b)) ((ts.take 1).map (fun t => t.id)) with
        | .error u => u
        | .ok u => u.sentAway b)

/-- A team with its register lines as its image in memory gives them, and the lanes that the image says have exited (R45). -/
def State.readImage (s : State) (t : Team) : Acc (Team × Mask) :=
  (s.readOwn t t.image.toNat (imageSize t.width)).bind (fun im =>
    let rd := fun o n => (im.drop o).take n
    .ok (loadImage t rd, imageExits t rd))

/-- FLAGS of an image (R42). -/
def imageFlags (rd : Nat → Nat → List Byte) : List (BitVec 4) := (List.range 12).map (fun i => BitVec.ofNat 4 (fieldAt (rd 0x108 8) 0 8 / 16 ^ i))

/-- A team that stands in a handler or is parked, with its lines read back: its PCs and what waits in WAITM come from its thread records, its
live TEAM_* words stay (R45, R426, R427). Its flags are the live ones, which its operations went on to count, unless FLAGS of the image was
written since. -/
def State.reload (s : State) (t : Team) (run : Run) : Acc State :=
  (s.readOwn t t.image.toNat (imageSize t.width)).bind (fun im =>
    let rd := fun o n => (im.drop o).take n
    let u := loadPcs (loadImage t rd) rd
    let flags := if t.frame.any (fun f => decide (imageFlags rd ≠ f.wrote)) then imageFlags rd else t.flags
    let u := { u with run := run, flags := flags, threads := mapIx (fun l (th : Thread) =>
      if th.waiting ∧ (!(t.thread l).waiting ∨ th.pc ≠ (t.thread l).pc) then let g := s.afterWait t th.pc th.hdr; { th with rpc := g.1, rhdr := g.2 } else th) u.threads }
    let s := (s.setTeam u).exitLanes t.id (imageExits t rd)
    match s.team t.id with
    | some u => .ok (s.setTeam u.evalWaits)
    | none => .ok s)

/-- A team with its saved TEAM_* words read back (R410, R427). -/
def State.readWords (s : State) (t : Team) : Acc Team :=
  (s.readOwn t (t.frameVa.toNat + 0xC80) 24).bind (fun sv =>
    let w := fun i => BitVec.ofNat 64 (fieldAt sv (8 * i) 8)
    .ok { t with handler := w 0, scratch0 := w 1, scratch1 := w 2 })

/-- One team of a block coming back: its registers from its image, those that an entry is to write in the register cache at once (R46), its saved
TEAM_* words, then R416, in the resume class; a parked one stays
parked in its frame (R417, R419). -/
def State.resumeTeam (s : State) (t : Team) : Acc State :=
  match t.frame with
  | none => .ok s
  | some f =>
    if t.run = .parked then s.reload t .parked
    else (s.readImage t).bind (fun te => (s.readWords te.1).bind (fun t =>
      s.restore { t with absent := (t.vregs.map (fun p => p.1)).filter (fun n => !t.entries.any (fun e => e.busy.contains n)) } f t.priv (if t.agent then 0 else 1) te.2))

/-- Granules, units and FIFO banks that a block holds as its own (R292). -/
def State.banksOwn (s : State) (b : Block) : Nat × Nat × Nat :=
  (ceilDiv b.scratch.size 256, if b.tmem = b.id then (s.ownTile b).size / 8192 else 0, b.fifos.length)

/-- The banks that a block away needs are free where they were handed on (R296). -/
def State.banksBack (s : State) (b : Block) : Bool :=
  decide (b.hold ≠ .released) || (let n := s.banksOwn b; s.banksHold b.die b.core n.1 n.2.1 n.2.2)

/-- The teams of a list resumed in turn. -/
def State.resumeTeams (s : State) (ids : List Nat) : Acc State :=
  ids.foldl (fun (a : Acc State) i => a.bind (fun s => match s.team i with | some t => s.resumeTeam t | none => .ok s)) (.ok s)

/-- A block brought back with its tags from `tb` and its teams on the partitions given: the save area read back, every team restored, TB
rewritten (R296, R303, R417, R420). -/
def State.bringBack (s : State) (b : Block) (tb : Nat) (parts : List Nat) : Acc State :=
  let ts := s.teamsOf b.id
  (s.unsave b).bind (fun s =>
    let s := (mapIx (fun i (t : Team) => (i, t)) ts).foldl (fun (s : State) it =>
      match s.team it.2.id with
      | some t => s.setTeam { t with part := parts.getD it.1 0 }
      | none => s) s
    (s.resumeTeams (ts.map (fun t => t.id))).bind (fun s =>
      let s := s.setBlock { (s.block b.id).getD b with run := .resident, tb := tb, hold := .held, away := 0 }
      let s := if b.hold = .released then (let n := s.banksOwn b; s.takeBanks b.die b.core b.id n.1 n.2.1 n.2.2) else s
      s.writePieces (ts.headD Team.reset) b.bsave.toNat [(0x10, leBytes 4 (tb + b.tags.length * 2 ^ 8 + b.slot * 2 ^ 16))]))

/-- RESUME written (R417): the block comes back on partitions with room and possibly other copy tags and banks (R21). While a page faults it is
in progress, and it is tried again; a refused page contains the process (R408). -/
def State.resume (s : State) (d c slot : Nat) : State :=
  match s.blockIn d c slot with
  | none => s.preRefuse d c
  | some b =>
    let ts := s.teamsOf b.id
    let t0 := ts.headD Team.reset
    match b.run, s.freeTags d c b.tags.length, placeTeams ts.length t0.width ((List.range 4).map (s.partLoad d c)) with
    | .away, some tb, some parts =>
      if !s.banksBack b then s.preRefuse d c
      else match s.bringBack b tb parts with
        | .ok s =>
          let k := s.core d c
          s.setCore d c { k.setReg 0x114 (preStat (decide (k.moving ≠ [])) slot) with waking := k.waking.filter (fun i => decide (i ≠ b.id)) }
        | .fault va lv =>
          let s := s.devFault d c t0.proc va kindRead lv 0
          let k := s.core d c
          s.setCore d c { k with waking := if k.waking.contains b.id then k.waking else k.waking ++ [b.id] }
        | .refuse va r => s.refusedTeam t0 va r kindRead
    | _, _, _ => s.preRefuse d c

/-- RESUME_GO (R417, R416). -/
def execResumeGo (die core slot : Nat) (s : State) : Res := .next (s.resume die core slot)

/-! ## Partition stops (R424 to R428) -/

/-- DBG_STAT as the core's stop state gives it (R423). -/
def State.dbgStat (s : State) (d c : Nat) : DWord :=
  let k := s.core d c
  BitVec.ofNat 64 (k.stopped.toNat + (k.stopping ||| k.resuming).toNat * 16)

/-- DBG_STOP_GO (R424, R426); a PMASK of 0 is ignored. -/
def execDbgStopGo (die core : Nat) (pmask : BitVec 4) (s : State) : Res := .next (s.freeze die core pmask)

/-- DBG_STOP_DONE: the frames and lines of every frozen team are in memory: STOPPED set, BUSY falls (R426). -/
def execDbgStopDone (die core : Nat) (s : State) : Res :=
  let k := s.core die core
  .next (
    if k.stopping = 0 then s
    else
      let ts := s.allTeams.filter (fun t => decide (t.die = die ∧ t.core = core ∧ t.run = .frozen) && !t.agent && k.stopping.getLsbD t.part)
      if ts.any (fun t => t.pend.isSome) then s
      else match s.forTeams kindWrite (fun s t => s.saveTeam t) (ts.map (fun t => t.id)) with
        | .ok s =>
          let k := s.core die core
          s.setCore die core { k with stopped := k.stopped ||| k.stopping, stopping := 0 }
        | .error s => s)

/-- One frozen team goes on (R428), its lines read back (R45, R427): in its handler at its PC; else restored under R416, privilege unchanged,
class PCLASS. An agent's team, which has no frame area, goes on where it stands. -/
def State.thaw (s : State) (t : Team) : Acc State :=
  if t.agent then .ok (s.setTeam { t with run := .running })
  else match t.frame with
  | none => s.reload t .running
  | some f =>
    if f.inHandler then s.reload t .running
    else (s.readImage t).bind (fun te => (s.readWords te.1).bind (fun t => s.restore t f t.priv f.pcls te.2))

/-- DBG_STOP with RESUME (R428): the frozen teams of the stopped partitions named go on together; while a page of a frame or image faults, the
resume is in progress, and it is tried again (R423). -/
def State.dbgResume (s : State) (d c : Nat) (pm : BitVec 4) : State :=
  let k := s.core d c
  let which := (pm ||| k.resuming) &&& k.stopped
  let ts := s.allTeams.filter (fun t => decide (t.die = d ∧ t.core = c ∧ t.run = .frozen) && which.getLsbD t.part)
  match s.forTeams kindRead (fun s t => s.thaw t) (ts.map (fun t => t.id)) with
  | .ok s => let k := s.core d c; s.setCore d c { k with stopped := k.stopped &&& ~~~ which, resuming := 0 }
  | .error s => s.setCore d c { s.core d c with resuming := which }

/-- DBG_STOP_RESUME (R424, R428). -/
def execDbgStopResume (die core : Nat) (pmask : BitVec 4) (s : State) : Res := .next (s.dbgResume die core pmask)

/-- A write of DBG_STOP (R424): GO and RESUME together, or PMASK 0, ignored. -/
def State.dbgStop (s : State) (d c : Nat) (v : DWord) : State :=
  match bit v 31, bit v 30 with
  | true, false => s.freeze d c (bits v 0 4)
  | false, true => s.dbgResume d c (bits v 0 4)
  | _, _ => s

/-! ## Single step, photo-finish stop, handler limit -/

/-- A team checked out as the one that issues. -/
def State.checkOut (s : State) (id : Nat) : State :=
  if s.me.id = id then s
  else match s.teams.find? (fun t => decide (t.id = id)) with
    | none => s
    | some t => { s with me := t, teams := s.teams.filter (fun u => decide (u.id ≠ id)) ++ (if s.me.id = 0 then [] else [s.me]) }

/-- Something done by a team as the one that issues; the team that was checked out stands there again afterwards. -/
def State.asTeam (s : State) (id : Nat) (f : State → State) : State :=
  match s.team id with
  | none => s
  | some _ => (f (s.checkOut id)).checkOut s.me.id

/-- A trap taken by a team that may not be the one at issue. -/
def State.trapTeam (s : State) (id : Nat) (k : Trap) : State := s.asTeam id (fun s => s.takeTrap k)

/-- The team that DBG_CTL names is stepped (R425, R430). -/
def State.stepped (s : State) (t : Team) : Bool :=
  let ctl := (s.core t.die t.core).reg 0x502
  match s.block t.block with
  | some b => bit ctl 0 && decide (bitsN ctl 16 7 = b.slot) && decide (bitsN ctl 24 4 = t.index) && !t.priv && !t.agent
  | none => false

/-- The instructions whose step ends at their completion, or at their acceptance, and not at issue (R273, R430). -/
def Work.endsLate : Work → Bool
  | .copy .. => true
  | .twait .. => true
  | .bin => true
  | .tileq _ => true
  | _ => false

/-- The step end of a stepped instruction is not reached (R273, R430): its entry has still to be accepted or to complete; with STEP_DRAIN, its
entry, its child grid or its copy has not completed. -/
def State.stepWaits (s : State) (t : Team) (m : StepMark) : Bool :=
  let drain := bit ((s.core t.die t.core).reg 0x502) 1
  let mine := fun (e : Entry) => decide (some e.order = m.entry) && !e.dropped
  t.entries.any (fun e => mine e && (drain || e.work.endsLate)) ||
    (drain && (t.kids.any (fun k => decide (some k.lseq = m.kid)) ||
      (match m.tag, s.block t.block with | some n, some b => (b.tags.getD n CopyTag.reset).busy | _, _ => false)))

/-- The step of a stepped team may end now: it runs and stands in no frame, and its block is resident (R419, R430). -/
def State.stepReady (s : State) (t : Team) (m : StepMark) : Bool :=
  s.stepped t && decide (t.run = .running) && decide (t.frame = none) && t.pend.isNone && decide (t.live ≠ 0) &&
    (match s.block t.block with | some b => decide (b.run = .resident) | none => false) && !s.stepWaits t m

/-- SINGLE_STEP: the step end of an instruction of the stepped team has been reached: the trap names the instruction and the group that issued
it (R411, R430). -/
def execSingleStep (team : Nat) (s : State) : Res :=
  .next (
    match s.team team with
    | some t =>
      (match t.stepAt with
       | some m =>
         if s.stepReady t m then
           (s.setTeam { t with stepAt := none }).trapTeam team
             { cause := 0x10, sub := 0, tpc := m.pc, thdr := m.hdr, lanes := m.mask, info := 0, faddr := 0, next := false }
         else s
       | none => s)
    | none => s)

/-- The step mark of a team whose stepped instruction raises a trap of its own is gone (R430). -/
def Team.dropStep (t : Team) (order : Nat) : Team :=
  { t with stepAt := t.stepAt.filter (fun m => decide (m.entry ≠ some order)) }

/-- The trap record of a handler that has run past its limit (R415). -/
def Trap.limit : Trap := { cause := 0xFF, sub := 0, tpc := 0, thdr := 0, lanes := 0, info := 0, faddr := 0, next := false }

/-- HANDLER_LIMIT_EXPIRE: a handler that has not issued TRET within 2^LIMIT counts parks its team (R415). -/
def execHandlerLimitExpire (team : Nat) (s : State) : Res :=
  .next (
    match s.team team with
    | some t =>
      (match t.frame with
       | some f =>
         let lim := bitsN ((s.core t.die t.core).reg 0x115) 0 5
         if f.inHandler ∧ t.run = .running ∧ t.pend.isNone ∧ f.since.toNat + 2 ^ lim ≤ (s.die t.die).rclk.toNat then
           s.asTeam team (fun s => s.parkNested Trap.limit)
         else s
       | none => s)
    | none => s)

/-- ARM of PFS_CTL written 1 (R422): LATE when PFS_AT is less than RCLK_NOW + 4096. -/
def State.pfsArm (s : State) (d c : Nat) : State :=
  let k := s.core d c
  let late := decide ((k.reg 0x118).toNat < (s.die d).rclk.toNat + 4096)
  s.setCore d c (k.setReg 0x119 (if late then 5 else 1))

/-- PFS_ARM (R422). -/
def execPfsArm (die core : Nat) (s : State) : Res := .next (s.pfsArm die core)

/-- The count PFS_AT has come with ARM set (R422). -/
def State.pfsReached (s : State) (d c : Nat) : Bool :=
  decide ((s.core d c).reg 0x119 = 1 ∧ ((s.core d c).reg 0x118).toNat ≤ (s.die d).rclk.toNat)

/-- The engines of a core stand at a photo-finish stop for the partitions given: the count has come, and the stop of those has not ended
(R422). -/
def State.pfsHolds (s : State) (d c : Nat) (pm : BitVec 4) : Bool :=
  s.pfsReached d c || (decide ((s.core d c).reg 0x119 = 3) && decide (((s.core d c).stopped ||| (s.core d c).stopping) &&& pm ≠ 0))

/-- PFS_HIT: the count PFS_AT has come with ARM set: every partition of the core stops (R422, R426). -/
def execPfsHit (die core : Nat) (s : State) : Res :=
  let k := s.core die core
  .next (
    if s.pfsReached die core then
      (s.setCore die core (k.setReg 0x119 3)).freeze die core 0xF
    else s)

end Sys2Proof.Machine
end

