-- ==== Sys2Proof/Machine/Issue.lean ====
section
/-!
DEFINITION. Machine/Issue: how an instruction issues. The checks of R123 in their order, the waits of R28 and R211, guards
(R148), index resolution (R54), reads of unset registers (R51), the FP exception trap (R195), and entering the replay queue
(R113, R211). Every meaning of an encoded instruction goes through here.
-/

namespace Sys2Proof.Machine

/-- What an instruction's own part answers. -/
inductive Out where
  /-- It traps precisely, with no effect: cause, lanes, INFO, FADDR, SUB. -/
  | trap (cause : Nat) (lanes : Mask) (info faddr : DWord) (sub : Nat)
  /-- Its lanes' targets have an address bit above 56 set: refused by protection and trapped precisely (R152, R405). -/
  | far (lanes : Mask) (va : DWord)
  /-- It is not ready and issues later. -/
  | wait
  /-- It has issued; the group goes on at the next instruction. -/
  | go (s : State)
  /-- It has issued and has set the PCs of the group's lanes itself. -/
  | jump (s : State)
  deriving DecidableEq, Repr

/-- The group moved to the next instruction, or to the next clause (R107). -/
def State.advance (s : State) : State :=
  { s with me := s.me.mapThreads s.grp (fun th => { th with pc := s.ctx.npc, hdr := s.ctx.nhdr }) }

/-- The step that an instruction's part gives. -/
def State.close (s : State) : Out → Res
  | .trap c m i f sub => .next (s.trapNow c m i f sub)
  | .far m va => .next ((s.logViolation s.me.die s.me.core va.toNat s.ctx.pc.toNat s.me.proc 7 kindFetch 0 (lowLane m)).trapNow 0x0B m 0 va 7)
  | .wait => .next s
  | .go s' => .next s'.advance
  | .jump s' => .next s'

/-- A page of the team's own pool faults, or is refused: the team stalls, or its process is contained (R408). -/
def State.frameHalt (s : State) (va level kind : Nat) : State :=
  let t := s.me
  if t.stallRefused.contains (pageOf va) then s.refusedTeam t va 10 kind else
  let s := s.pageFault t.die t.core t.proc va kind level 0
  { s with me := { s.me with stall := [pageOf va] } }

/-! ## Checks of R123 -/

/-- The prefix word before an instruction is legal for it (R121, R122). -/
def Ctx.pfxOk (c : Ctx) (rnd sat : Bool) : Bool :=
  decide (c.pfxw = 0) ||
  (decide (bitsN c.pfxw 0 20 = 0) && decide (c.rnd ≤ 5) && (decide (c.rnd ≠ 0) || c.sat) &&
   (decide (c.rnd = 0) || rnd) && (!c.sat || sat))

/-- Steps 2 to 4 of R123: the cause of the trap, if any. Class 7 stands for an instruction of any class and for a control
transfer, whose place the clause's fetch has checked (R109, R111). -/
def State.refusal (s : State) (cls : Nat) (ok rnd sat : Bool) : Option Nat :=
  if cls ≠ 7 ∧ cls ≠ s.ctx.cls then some 0x04
  else if cls = 6 ∧ ¬ s.me.priv then some 0x13
  else if ok && s.ctx.pfxOk rnd sat then none else some 0x01

/-- An instruction with no vector operand and no guard: its part runs when the checks pass. -/
def State.issuePlain (s : State) (cls : Nat) (ok : Bool) (body : State → Out) : Res :=
  match s.refusal cls ok false false with
  | some c => .next (s.trapGroup c)
  | none => s.close (body s)

/-- Index registers modified and the sticky UNINIT set, as an instruction that does not trap leaves them (R51, R54). -/
def State.settle (s : State) (r : Reg) (e : Mask) (unset : Bool) : State :=
  let t := s.me
  let t := if r.inds.any (fun p => decide (p.2 ≠ 0)) then t.mapThreads e r.modified else t
  { s with me := if unset then { t with sticky := t.sticky ||| 1 } else t }

/-- Lanes and operands of a register-form instruction that has passed R123 steps 1 to 4. The part receives the state with its
index registers and UNINIT settled, the executing lanes and the resolved registers; what it traps with leaves `s` as it was. -/
def State.issueLanes (s : State) (F : Form) (r : Reg) (body : State → Mask → List (List Nat) → Out) : Res :=
  let gp := r.guardPois s.me s.grp
  if gp ≠ 0 then .next (s.trapNow 0x08 gp 0 0 0)
  else
    let e := r.lanes s.me s.grp
    if e = 0 then .next s.advance
    else if s.me.mustWait F r e s.grp then .next s
    else
      let bad := s.me.failLanes F r e s.grp
      if bad ≠ 0 then .next (s.trapNow 0x07 bad 0 0 0)
      else
        let tg := s.me.targets F r
        match s.me.unsetRead (F.reads r e s.grp tg) with
        | none => s.close (body (s.settle r e false) e tg)
        | some n =>
          if bit s.me.trapEn 0 then .next (s.trapNow 0x11 s.grp (BitVec.ofNat 64 n) 0 0)
          else s.close (body (s.settle r e true) e tg)

/-- A register-form instruction: R123, then its lanes. -/
def State.issue (s : State) (F : Form) (r : Reg) (body : State → Mask → List (List Nat) → Out) : Res :=
  match s.refusal F.cls (F.ok r) F.rnd F.sat with
  | some c => .next (s.trapGroup c)
  | none => s.issueLanes F r body

/-- An instruction that issues only when the team or the group is as `fit` says, else traps with `cause` (R27, R31, R32, R256). With no
executing lane it raises none of that (R148). -/
def State.issueFit (s : State) (F : Form) (r : Reg) (fit : Bool) (cause : Nat) (body : State → Mask → List (List Nat) → Out) : Res :=
  match s.refusal F.cls (F.ok r) F.rnd F.sat with
  | some c => .next (s.trapGroup c)
  | none =>
    if r.guardPois s.me s.grp = 0 ∧ r.lanes s.me s.grp ≠ 0 ∧ fit = false then .next (s.trapGroup cause)
    else s.issueLanes F r body

/-! ## Results -/

/-- One 32-bit result in each executing lane, into D. -/
def State.putLanes (s : State) (e : Mask) (tg : List (List Nat)) (f : Nat → Elem) : Out :=
  .go { s with me := s.me.dst tg 0 0 e f }

/-- A predicate written in each executing lane. -/
def Team.putPreds (t : Team) (n : Nat) (e : Mask) (v p : Nat → Bool) : Team :=
  (lanesOf e).foldl (fun t l => t.setPred n l (v l) (p l)) t

/-- The FP exceptions of an instruction (R195): the trap when an enabled one was signalled, else its result with TEAM_STICKY
set. `exc` gives each lane's set. -/
def State.fpDone (s : State) (e : Mask) (exc : Nat → Exc) (done : State → Out) : Out :=
  let en := BitVec.ofNat 6 s.me.trapEn.toNat &&& 0x3E
  let all := (lanesOf e).foldl (fun m l => m ||| exc l) (0 : Exc)
  if all &&& en ≠ 0 then
    .trap 0x12 (e &&& maskOf 64 (fun l => decide (exc l &&& en ≠ 0))) (all.zeroExtend 64) 0 0
  else done { s with me := { s.me with sticky := s.me.sticky ||| all.zeroExtend 32 } }

/-! ## Entering the replay queue -/

/-- Flags of a selection: bit 0 for A, bit 1 for B (R113). -/
def Ctx.selA (c : Ctx) (sel : Nat) : Nat := if sel % 2 = 1 then c.seta else 15
def Ctx.selB (c : Ctx) (sel : Nat) : Nat := if sel / 2 % 2 = 1 then c.setb else 15

/-- No selected flag stands at 15 (R28, R113). -/
def State.flagsRoom (s : State) (sel : Nat) : Bool :=
  let full := fun (f : Nat) => decide (f < 12) && decide (s.me.flag f = 15)
  !full (s.ctx.selA sel) && !full (s.ctx.selB sel)

/-- An operation that can stand in the replay queue may issue: flags below 15, fewer than 32 entries (R410). -/
def State.queueRoom (s : State) (sel : Nat) : Bool := s.flagsRoom sel && decide (s.me.entries.length < 32)

/-- An entry of the instruction at issue, with nothing captured. -/
def State.entry (s : State) (sel : Nat) (e : Mask) (tg : List (List Nat)) (w : Work) : Entry :=
  { order := s.me.nextOrder, w0 := s.ctx.w0, w1 := s.ctx.w1, pfxw := s.ctx.pfxw, fla := s.ctx.selA sel, flb := s.ctx.selB sel,
    pc := s.ctx.pc, hdr := s.ctx.hdr, lmask := e, progress := 0, dropped := false, final := false, faulted := false, work := w,
    tgt := tg, busy := [], sbusy := [], addr := [], data := [], cap := [], gmask := s.grp, emask := e, priv := s.me.priv,
    waits := [], refused := 0, refAddr := 0, refCause := 0, kept := [] }

/-- The entry joins the queue and its flags count it (R113, R211). -/
def State.pushEntry (s : State) (e : Entry) : State :=
  { s with me := { (s.me.incFlags e.fla e.flb) with entries := s.me.entries ++ [e], nextOrder := s.me.nextOrder + 1 } }

/-- The registers that a pending write of D keeps busy: its runs, or the windows of the executing lanes (R56). -/
def Team.dstBusy (t : Team) (r : Reg) (e : Mask) (n : Nat) (tg : List (List Nat)) : List Nat :=
  if r.id then t.span e .vec true r.d
  else ((lanesOf e).flatMap (fun l => (List.range n).map (fun j => tgAt tg l 0 + j))).eraseDups

/-- An entry that writes memory. -/
def Work.writes : Work → Bool
  | .store _ => true
  | .atomic .. => true
  | .redDet .. => true
  | .sig .. => true
  | .sstore .. => true
  | .fifoPush .. => true
  | .cps .. => true
  | _ => false

/-- An entry whose refused lanes drop it with a trap as soon as a refusal is known (R213). The lanes of a CPS that are refused so are those of
its source, which are poisoned (R212 row 5, R229). -/
def Work.refusable (w : Work) : Bool := w.writes && (match w with | .cps .. => false | _ => true)

end Sys2Proof.Machine
end

