-- ==== Sys2Proof/Machine/Control.lean ====
section
/-!
DEFINITION. Machine/Control: control, reconvergence, lane and predicate instructions (R148 to R164) and the index instructions
(R175 to R177).
-/

namespace Sys2Proof.Machine

/-! ## NOP and PFX (R154, R121, R122) -/

/-- NOP (R154): its unused bits are zero. -/
def execNop (z : BitVec 24) (s : State) : Res := s.issuePlain 7 (decide (z = 0)) (fun s => .go s)
/-- NOP.l (R154). -/
def execNopLong (z : BitVec 24) (w1 : Word) (s : State) : Res :=
  s.issuePlain 7 (decide (z = 0) && decide (w1 = 0)) (fun s => .go s)

/-- PFX (R122): at the end of the clause it is an orphan, whatever its fields (DESIGN CHOICE, log entry 53: the spec gives no order between an
orphan and a malformed one), before another PFX it is illegal; else it stands latched for the
instruction that follows, whose checks it is part of. `s.ctx.last` says that it trails its clause, `s.ctx.w1` is the next word. -/
def execPfx (rnd : BitVec 3) (sat : Bool) (z : BitVec 20) (s : State) : Res :=
  if s.ctx.last then .next (s.trapGroup 0x03)
  else if bitsN s.ctx.w1 24 8 = 0x1E then .next (s.trapGroup 0x01)
  else .next { s with ctx := { s.ctx with
    pfxw := 0x1E000000 ||| put 32 21 rnd ||| putB 32 20 sat ||| put 32 0 z, rnd := rnd.toNat, sat := sat } }

/-! ## Branches and calls (R150, R151) -/

/-- Target of a branch of n offset bits from the header of its clause (R112). -/
def State.branchTo (s : State) {n : Nat} (off : BitVec n) : BitVec 57 := s.ctx.hdr + BitVec.ofInt 57 (8 * off.toInt)

/-- Lanes of the group sent to a clause, the others to the next one (R150). -/
def State.sendLanes (s : State) (m : Mask) (dest : BitVec 57) : State :=
  let s := s.advance
  { s with me := s.me.mapThreads m (fun th => { th with pc := dest, hdr := dest }) }

/-- BRA: every lane of the group. -/
def State.bra (s : State) {n : Nat} (ok : Bool) (off : BitVec n) : Res :=
  s.issuePlain 7 ok (fun s => .jump (s.sendLanes s.grp (s.branchTo off)))

/-- BRA. -/
def execBra (off : BitVec 24) (s : State) : Res := s.bra true off
/-- BRA.l: the W0 offset bits are zero. -/
def execBraLong (z : BitVec 24) (w1 : Word) (s : State) : Res := s.bra (decide (z = 0)) w1

/-- BRC (R150): lanes whose predicate holds; a poisoned one traps and no lane moves. -/
def State.brc (s : State) {n : Nat} (ok : Bool) (p : BitVec 5) (neg : Bool) (off : BitVec n) : Res :=
  s.issuePlain 7 (ok && decide (p.toNat < 24)) (fun s =>
    let bad := s.grp &&& maskOf s.me.width (fun l => s.me.predPois p.toNat l)
    if bad ≠ 0 then .trap 0x08 bad 0 0 0
    else .jump (s.sendLanes (s.grp &&& maskOf s.me.width (fun l => s.me.pred p.toNat l != neg)) (s.branchTo off)))

/-- BRC. -/
def execBrc (p : BitVec 5) (neg : Bool) (off : BitVec 18) (s : State) : Res := s.brc true p neg off
/-- BRC.l. -/
def execBrcLong (p : BitVec 5) (neg : Bool) (z : BitVec 18) (w1 : Word) (s : State) : Res := s.brc (decide (z = 0)) p neg w1

/-- Condition codes of BRS and SSEL (R151). -/
def scalarCond (cc : Nat) (v : Word) : Bool :=
  match cc with
  | 0 => decide (v = 0)
  | 1 => decide (v ≠ 0)
  | 2 => decide (v.toInt < 0)
  | 3 => decide (0 ≤ v.toInt)
  | 4 => decide (0 < v.toInt)
  | _ => decide (v.toInt ≤ 0)

/-- BRS (R150, R151): one condition for the whole group. -/
def State.brs (s : State) {n : Nat} (ok : Bool) (sr : BitVec 5) (cc : BitVec 3) (off : BitVec n) : Res :=
  s.issuePlain 7 (ok && decide (sr.toNat < 24) && decide (cc.toNat < 6)) (fun s =>
    let v := s.me.sreg sr.toNat
    if s.me.scalarsBusy [sr.toNat] then .wait
    else if v.pois then .trap 0x08 s.grp 0 0 0
    else .jump (s.sendLanes (if scalarCond cc.toNat v.val then s.grp else 0) (s.branchTo off)))

/-- BRS. -/
def execBrs (sr : BitVec 5) (cc : BitVec 3) (off : BitVec 16) (s : State) : Res := s.brs true sr cc off
/-- BRS.l. -/
def execBrsLong (sr : BitVec 5) (cc : BitVec 3) (z : BitVec 16) (w1 : Word) (s : State) : Res := s.brs (decide (z = 0)) sr cc w1

/-- CALL (R150): v254 and v255 receive the address of the next clause; it waits until both are free. -/
def State.call (s : State) {n : Nat} (ok : Bool) (off : BitVec n) : Res :=
  s.issuePlain 7 ok (fun s =>
    if (s.me.busyVec ++ s.me.absent).any (fun v => decide (254 ≤ v)) then .wait
    else
      let ra := s.ctx.npc.zeroExtend 64
      let tg := List.replicate 64 [254]
      let dest := s.branchTo off
      let s := { s with me := s.me.dstPair tg 0 s.grp (fun _ => ra) (fun _ => false) }
      .jump (s.sendLanes s.grp dest))

/-- CALL. -/
def execCall (off : BitVec 24) (s : State) : Res := s.call true off
/-- CALL.l. -/
def execCallLong (z : BitVec 24) (w1 : Word) (s : State) : Res := s.call (decide (z = 0)) w1

/-! ## Indirect jumps (R152) -/

/-- Fields of RET and JMPI; a control transfer's place in the clause is checked at fetch. -/
def formJump (r : Reg) : Form := { cls := 7, a := .pair, x := decide (r.x = 0) }

/-- RET and JMPI (R152). DESIGN CHOICE (log entry 54): where lanes meet different conditions, the trap is the first of poison, misaligned and
protection that any lane meets, and names the lanes that meet it. -/
def jumpBody (s : State) (e : Mask) (tg : List (List Nat)) : Out :=
  let dest := fun l => s.me.srcPair tg 1 l
  let pick := fun (f : Nat → Bool) => e &&& maskOf s.me.width f
  let bad := pick (fun l => s.me.srcPairPois tg 1 l)
  let mis := pick (fun l => decide (bitsN (dest l) 0 3 ≠ 0))
  let far := pick (fun l => decide (bitsN (dest l) 57 7 ≠ 0))
  if bad ≠ 0 then .trap 0x08 bad 0 0 0
  else if mis ≠ 0 then .trap 0x09 mis 0 (dest (lowLane mis)) 0
  else if far ≠ 0 then .far far (dest (lowLane far))
  else
    let s := s.advance
    .jump { s with me := s.me.mapLanes (fun l th =>
      if e.getLsbD l then { th with pc := bits (dest l) 0 57, hdr := bits (dest l) 0 57 } else th) }

/-- RET. -/
def execRet (o : ShortOps) (s : State) : Res := let r := Reg.ofShort 0 o; s.issue (formJump r) r jumpBody
/-- RET, long form. -/
def execRetLong (o : LongOps) (s : State) : Res := let r := Reg.ofLong o; s.issue (formJump r) r jumpBody
/-- JMPI. -/
def execJmpi (o : ShortOps) (s : State) : Res := let r := Reg.ofShort 0 o; s.issue (formJump r) r jumpBody
/-- JMPI, long form. -/
def execJmpiLong (o : LongOps) (s : State) : Res := let r := Reg.ofLong o; s.issue (formJump r) r jumpBody

/-! ## EXIT, TRAP, BRK, YIELD (R153 to R155) -/

/-- Fields of EXIT. -/
def formExit (r : Reg) : Form := { cls := 7, x := decide (r.x = 0) }

/-- EXIT (R153): the lanes of E exit, the others of the group go on. -/
def exitBody (s : State) (e : Mask) (_ : List (List Nat)) : Out := .jump (s.advance.exitLanes s.me.id e)

/-- EXIT. -/
def execExit (o : ShortOps) (s : State) : Res := let r := Reg.ofShort 0 o; s.issue (formExit r) r exitBody
/-- EXIT, long form. -/
def execExitLong (o : LongOps) (s : State) : Res := let r := Reg.ofLong o; s.issue (formExit r) r exitBody

/-- Fields of TRAP and BRK. -/
def formCode (r : Reg) : Form := { cls := 0, a := .any, b := .any, x := decide (r.x = 0) }

/-- TRAP and BRK (R155): the trap with the code and the mask of E; the group resumes after the instruction. -/
def codeBody (cause : Nat) (r : Reg) (s : State) (e : Mask) (_ : List (List Nat)) : Out :=
  .jump (s.takeTrap { cause := cause, sub := 0, tpc := s.ctx.pc, thdr := s.ctx.hdr, lanes := e,
                      info := BitVec.ofNat 64 (r.a * 256 + r.b), faddr := 0, next := true })

/-- TRAP. -/
def execTrap (o : ShortOps) (s : State) : Res := let r := Reg.ofShort 0 o; s.issue (formCode r) r (codeBody 0x0F r)
/-- TRAP, long form. -/
def execTrapLong (o : LongOps) (s : State) : Res := let r := Reg.ofLong o; s.issue (formCode r) r (codeBody 0x0F r)
/-- BRK. -/
def execBrk (o : ShortOps) (s : State) : Res := let r := Reg.ofShort 0 o; s.issue (formCode r) r (codeBody 0x0E r)
/-- BRK, long form. -/
def execBrkLong (o : LongOps) (s : State) : Res := let r := Reg.ofLong o; s.issue (formCode r) r (codeBody 0x0E r)

/-- Fields of YIELD. -/
def formYield (r : Reg) : Form := { cls := 0, x := decide (r.x = 0) }

/-- YIELD (R154): the team stands behind the other ready teams of its class for the next selection. -/
def yieldBody (s : State) (_ : Mask) (_ : List (List Nat)) : Out := .go { s with me := { s.me with yielded := true } }

/-- YIELD. -/
def execYield (o : ShortOps) (s : State) : Res := let r := Reg.ofShort 0 o; s.issue (formYield r) r yieldBody
/-- YIELD, long form. -/
def execYieldLong (o : LongOps) (s : State) : Res := let r := Reg.ofLong o; s.issue (formYield r) r yieldBody

/-! ## Mask registers and WAITM (R156, R157) -/

/-- Fields of JOIN, LEAVE and WAITM. -/
def formMask (r : Reg) : Form := { cls := 0, d := .num 12, x := decide (r.x = 0) }

/-- A mask register written, and WAITM on it evaluated (R157). -/
def State.writeMask (s : State) (n : Nat) (v : Mask) : State := { s with me := (s.me.setMreg n v).evalWait n }

/-- JOIN. -/
def joinBody (r : Reg) (s : State) (e : Mask) (_ : List (List Nat)) : Out := .go (s.writeMask r.d (s.me.mreg r.d ||| e))
/-- LEAVE. -/
def leaveBody (r : Reg) (s : State) (e : Mask) (_ : List (List Nat)) : Out := .go (s.writeMask r.d (s.me.mreg r.d &&& ~~~ e))

/-- WAITM (R157): lanes that the mask names wait at the WAITM, with where they go on; the rest continue. -/
def waitmBody (r : Reg) (s : State) (e : Mask) (_ : List (List Nat)) : Out :=
  let held := e &&& s.me.mreg r.d
  let c := s.ctx
  let t := s.me.mapThreads (s.grp &&& ~~~ held) (fun th => { th with pc := c.npc, hdr := c.nhdr })
  let t := t.mapThreads held (fun th =>
    { th with waiting := true, wmask := BitVec.ofNat 4 r.d, pc := c.pc, hdr := c.hdr, rpc := c.npc, rhdr := c.nhdr })
  .jump { s with me := t.evalWait r.d }

/-- JOIN. -/
def execJoin (o : ShortOps) (s : State) : Res := let r := Reg.ofShort 0 o; s.issue (formMask r) r (joinBody r)
/-- JOIN, long form. -/
def execJoinLong (o : LongOps) (s : State) : Res := let r := Reg.ofLong o; s.issue (formMask r) r (joinBody r)
/-- LEAVE. -/
def execLeave (o : ShortOps) (s : State) : Res := let r := Reg.ofShort 0 o; s.issue (formMask r) r (leaveBody r)
/-- LEAVE, long form. -/
def execLeaveLong (o : LongOps) (s : State) : Res := let r := Reg.ofLong o; s.issue (formMask r) r (leaveBody r)
/-- WAITM. -/
def execWaitm (o : ShortOps) (s : State) : Res := let r := Reg.ofShort 0 o; s.issue (formMask r) r (waitmBody r)
/-- WAITM, long form. -/
def execWaitmLong (o : LongOps) (s : State) : Res := let r := Reg.ofLong o; s.issue (formMask r) r (waitmBody r)

/-- Fields of MSET: form in X[1:0]. -/
def formMset (r : Reg) : Form := { cls := 0, d := .num 12, a := if r.x = 1 then .spair else .zero, x := decide (r.x < 3) }

/-- MSET.g. -/
def msetGBody (r : Reg) (s : State) (e : Mask) (_ : List (List Nat)) : Out := .go (s.writeMask r.d e)
/-- MSET.s: poison consumed if either register is poisoned. -/
def msetSBody (r : Reg) (s : State) (e : Mask) (_ : List (List Nat)) : Out :=
  if s.me.scalarsBusy [r.a, r.a + 1] then .wait
  else if s.me.spairPois r.a then .trap 0x08 e 0 0 0
  else .go (s.writeMask r.d (s.me.spair r.a))
/-- MSET.z. -/
def msetZBody (r : Reg) (s : State) (_ : Mask) (_ : List (List Nat)) : Out := .go (s.writeMask r.d 0)

/-- MSET.g. -/
def execMsetG (o : ShortOps) (s : State) : Res := let r := Reg.ofShort 0 o; s.issue (formMset r) r (msetGBody r)
/-- MSET.g, long form. -/
def execMsetGLong (o : LongOps) (s : State) : Res := let r := Reg.ofLong o; s.issue (formMset r) r (msetGBody r)
/-- MSET.s. -/
def execMsetS (o : LongOps) (s : State) : Res := let r := Reg.ofLong o; s.issue (formMset r) r (msetSBody r)
/-- MSET.z. -/
def execMsetZ (o : LongOps) (s : State) : Res := let r := Reg.ofLong o; s.issue (formMset r) r (msetZBody r)

/-- Fields of MGET: destination kind in X[0]. -/
def formMget (r : Reg) : Form :=
  { cls := 0, d := if r.x = 1 then .vec else .spair, a := .num 12, x := decide (r.x < 2) }

/-- MGET.s. -/
def mgetSBody (r : Reg) (s : State) (_ : Mask) (_ : List (List Nat)) : Out :=
  if s.me.scalarsBusy [r.d, r.d + 1] then .wait
  else .go { s with me := s.me.setSpair r.d (s.me.mreg r.a) false }
/-- MGET.v. -/
def mgetVBody (r : Reg) (s : State) (e : Mask) (tg : List (List Nat)) : Out :=
  s.putLanes e tg (fun l => Elem.ofWord (if (s.me.mreg r.a).getLsbD l then 1 else 0))

/-- MGET.s. -/
def execMgetS (o : ShortOps) (s : State) : Res := let r := Reg.ofShort 0 o; s.issue (formMget r) r (mgetSBody r)
/-- MGET.s, long form. -/
def execMgetSLong (o : LongOps) (s : State) : Res := let r := Reg.ofLong o; s.issue (formMget r) r (mgetSBody r)
/-- MGET.v. -/
def execMgetV (o : LongOps) (s : State) : Res := let r := Reg.ofLong o; s.issue (formMget r) r (mgetVBody r)

/-! ## CENSUS, MATCH, PEEK, LANE (R159 to R162) -/

/-- Fields of CENSUS; a reserved mode is refused in a clause of any class (R123 step 1). -/
def formCensus (r : Reg) : Form :=
  { cls := if 6 ≤ r.xf 0 3 then 7 else 1, d := if r.xf 0 3 = 3 then .num 12 else .num 24, a := .num 24, x := decide (r.x < 16) && decide (r.xf 0 3 < 6) }

/-- CENSUS (R159). -/
def censusBody (r : Reg) (s : State) (e : Mask) (_ : List (List Nat)) : Out :=
  let t := s.me
  let q := fun l => t.pred r.a l != r.xb 3
  let ones := e &&& maskOf t.width q
  let bad := e &&& maskOf t.width (fun l => t.predPois r.a l)
  let v := fun l => match r.xf 0 3 with
    | 0 => decide (ones = e)
    | 1 => decide (ones ≠ 0)
    | 2 => decide (ones = e) || decide (ones = 0)
    | 4 => decide (lowLane ones = l)
    | _ => decide (popMask ones % 2 = 1)
  if r.xf 0 3 = 3 then
    (if bad ≠ 0 then .trap 0x08 bad 0 0 0 else .go (s.writeMask r.d ones))
  else .go { s with me := t.putPreds r.d e v (fun _ => decide (bad ≠ 0)) }

/-- CENSUS. -/
def execCensus (o : ShortOps) (s : State) : Res := let r := Reg.ofShort 0 o; s.issue (formCensus r) r (censusBody r)
/-- CENSUS, long form. -/
def execCensusLong (o : LongOps) (s : State) : Res := let r := Reg.ofLong o; s.issue (formCensus r) r (censusBody r)

/-- Fields of MATCH. -/
def formMatch (r : Reg) : Form := { cls := 1, d := .pair, a := .vec, x := decide (r.x = 0) }

/-- MATCH (R160). -/
def matchBody (s : State) (e : Mask) (tg : List (List Nat)) : Out :=
  let t := s.me
  let bad := (lanesOf e).any (fun l => (t.src tg 1 l).pois)
  let v := fun l => e &&& maskOf t.width (fun k => decide ((t.src tg 1 k).val = (t.src tg 1 l).val))
  .go { s with me := t.dstPair tg 0 e v (fun _ => bad) }

/-- MATCH. -/
def execMatchV (o : ShortOps) (s : State) : Res := let r := Reg.ofShort 0 o; s.issue (formMatch r) r matchBody
/-- MATCH, long form. -/
def execMatchVLong (o : LongOps) (s : State) : Res := let r := Reg.ofLong o; s.issue (formMatch r) r matchBody

/-- Fields of PEEK in a team of width w. -/
def formPeek (w : Nat) (r : Reg) : Form :=
  { cls := 1, d := .vec, a := .vec, aAll := true, b := if r.xb 2 then .any else .vec
    x := decide (r.x < 64) && decide (r.xf 3 3 ≠ 7) && (decide (r.xf 3 3 = 0) || decide (2 ^ r.xf 3 3 ≤ w)) }

/-- The lane that lane l reads (R161). -/
def peekLane (mode span l n : Nat) : Nat :=
  let b := l - l % span
  let r := l % span
  let k := n % span
  match mode with
  | 0 => b + k
  | 1 => b + (r + span - k) % span
  | 2 => b + (r + k) % span
  | _ => b + Nat.xor r k

/-- PEEK (R161): a source lane outside the group is not read. -/
def peekBody (r : Reg) (s : State) (e : Mask) (tg : List (List Nat)) : Out :=
  let t := s.me
  let span := if r.xf 3 3 = 0 then t.width else 2 ^ r.xf 3 3
  s.putLanes e tg (fun l =>
    let n := if r.xb 2 then Elem.ofWord (BitVec.ofNat 32 r.b) else t.src tg 2 l
    let j := peekLane (r.xf 0 2) span l n.val.toNat
    let v := t.src tg 1 (if s.grp.getLsbD j then j else l)
    { v with pois := v.pois || n.pois })

/-- PEEK. -/
def execPeek (o : ShortOps) (s : State) : Res := let r := Reg.ofShort 0 o; s.issue (formPeek s.me.width r) r (peekBody r)
/-- PEEK, long form. -/
def execPeekLong (o : LongOps) (s : State) : Res := let r := Reg.ofLong o; s.issue (formPeek s.me.width r) r (peekBody r)

/-- Fields of LANE. -/
def formLane (r : Reg) : Form :=
  { cls := 1, d := if 3 ≤ r.x ∧ r.x ≤ 8 then .pair else .vec, x := decide (r.x < 10) }

/-- The value of a LANE selector in lane l (R162). -/
def laneValue (s : State) (e : Mask) (sel l : Nat) : DWord :=
  let w := s.me.width
  match sel with
  | 0 => BitVec.ofNat 64 l
  | 1 => BitVec.ofNat 64 w
  | 2 => BitVec.ofNat 64 (8 * s.me.sec + l)
  | 3 => maskOf w (fun k => decide (k < l))
  | 4 => maskOf w (fun k => decide (k ≤ l))
  | 5 => maskOf w (fun k => decide (l < k))
  | 6 => maskOf w (fun k => decide (l ≤ k))
  | 7 => s.grp
  | 8 => e
  | _ => BitVec.ofNat 64 (popMask (e &&& maskOf w (fun k => decide (k < l))))

/-- LANE (R162). -/
def laneBody (r : Reg) (s : State) (e : Mask) (tg : List (List Nat)) : Out :=
  if 3 ≤ r.x ∧ r.x ≤ 8 then .go { s with me := s.me.dstPair tg 0 e (laneValue s e r.x) (fun _ => false) }
  else s.putLanes e tg (fun l => Elem.ofWord (bits (laneValue s e r.x l) 0 32))

/-- LANE. -/
def execLane (o : ShortOps) (s : State) : Res := let r := Reg.ofShort 0 o; s.issue (formLane r) r (laneBody r)
/-- LANE, long form. -/
def execLaneLong (o : LongOps) (s : State) : Res := let r := Reg.ofLong o; s.issue (formLane r) r (laneBody r)

/-! ## Predicates (R163, R164) -/

/-- Fields of PSET. -/
def formPset (r : Reg) : Form :=
  { cls := 7, d := .num 24
    a := match r.xf 0 2 with | 0 => .vec | 2 => .vec | 3 => .num 12 | _ => .zero
    b := if r.xf 0 2 = 2 then .num 32 else .zero
    x := decide (r.x < 8) && (decide (r.xf 0 2 = 1) || !r.xb 2) }

/-- PSET (R163). -/
def psetBody (r : Reg) (s : State) (e : Mask) (tg : List (List Nat)) : Out :=
  let t := s.me
  let v := fun l => match r.xf 0 2 with
    | 0 => decide ((t.src tg 1 l).val ≠ 0)
    | 1 => r.xb 2
    | 2 => (t.src tg 1 l).val.getLsbD r.b
    | _ => (t.mreg r.a).getLsbD l
  let p := fun l => decide (r.xf 0 2 = 0 ∨ r.xf 0 2 = 2) && (t.src tg 1 l).pois
  .go { s with me := t.putPreds r.d e v p }

/-- PSET. -/
def execPset (o : ShortOps) (s : State) : Res := let r := Reg.ofShort 0 o; s.issue (formPset r) r (psetBody r)
/-- PSET, long form. -/
def execPsetLong (o : LongOps) (s : State) : Res := let r := Reg.ofLong o; s.issue (formPset r) r (psetBody r)

/-- Fields of PLOP: X is the truth table. -/
def formPlop (_ : Reg) : Form := { cls := 7, d := .num 24, a := .num 24, b := .num 24, c := .num 24 }

/-- PLOP (R164). -/
def plopBody (r : Reg) (s : State) (e : Mask) (_ : List (List Nat)) : Out :=
  let t := s.me
  let n := fun (b : Bool) (k : Nat) => if b then k else 0
  let v := fun l => r.xb (n (t.pred r.a l) 4 + n (t.pred r.b l) 2 + n (t.pred r.c l) 1)
  let p := fun l => t.predPois r.a l || t.predPois r.b l || t.predPois r.c l
  .go { s with me := t.putPreds r.d e v p }

/-- PLOP. -/
def execPlop (o : ShortOps) (s : State) : Res := let r := Reg.ofShort 0 o; s.issue (formPlop r) r (plopBody r)
/-- PLOP, long form. -/
def execPlopLong (o : LongOps) (s : State) : Res := let r := Reg.ofLong o; s.issue (formPlop r) r (plopBody r)

/-! ## Index registers (R175 to R177) -/

/-- Fields of XSET. -/
def formXset (r : Reg) : Form :=
  { cls := 0, d := .num 8, a := if r.xb 3 then .zero else .vec, b := if r.xb 3 then .any else .zero
    x := decide (r.x < 16) && decide (r.xf 0 3 < 6) && !(r.xb 3 && decide (r.xf 0 3 = 0)) }

/-- A field of an index register written (R176). -/
def xsetField (fld : Nat) (x v : Word) : Word :=
  match fld with
  | 0 => v &&& 0x1FFFFFFF
  | 1 => (x &&& 0xFFFFFF00) ||| put 32 0 (bits v 0 8)
  | 2 => (x &&& 0xFFFF00FF) ||| put 32 8 (bits v 0 8)
  | 3 => (x &&& 0xFF00FFFF) ||| put 32 16 (bits v 0 8)
  | 4 => (x &&& 0xF0FFFFFF) ||| put 32 24 (bits v 0 4)
  | _ => (x &&& 0xEFFFFFFF) ||| put 32 28 (bits v 0 1)

/-- A field of an index register read (R176). -/
def xgetField (fld : Nat) (x : Word) : Word :=
  match fld with
  | 0 => x
  | 1 => BitVec.ofNat 32 (bitsN x 0 8)
  | 2 => BitVec.ofNat 32 (bitsN x 8 8)
  | 3 => BitVec.ofNat 32 (bitsN x 16 8)
  | 4 => BitVec.ofInt 32 (sextN 4 (bitsN x 24 4))
  | _ => BitVec.ofNat 32 (bitsN x 28 1)

/-- Lanes of E where a vector source is poisoned. -/
def Team.poisLanes (t : Team) (e : Mask) (tg : List (List Nat)) (k : Nat) : Mask :=
  e &&& maskOf t.width (fun l => (t.src tg k l).pois)

/-- Index register n of the lanes of a mask given a value computed from what it held before the instruction, whose modification of that
register, if any, sets INDEX last (R54, R176). -/
def Team.operateIndex (t old : Team) (r : Reg) (n : Nat) (m : Mask) (f : Nat → Word → Word) : Team :=
  t.mapLanes (fun l th =>
    if m.getLsbD l then
      let v := f l ((old.thread l).x.getD n 0)
      { th with x := putAt 8 0 th.x n (if r.modeOf n = 0 then v else xSetIndex v (bitsN (th.x.getD n 0) 16 8)) }
    else th)

/-- XSET (R176). -/
def xsetBody (r : Reg) (old : Team) (s : State) (e : Mask) (tg : List (List Nat)) : Out :=
  let t := s.me
  let bad := if r.xb 3 then 0 else t.poisLanes e tg 1
  if bad ≠ 0 then .trap 0x08 bad 0 0 0
  else .go { s with me := t.operateIndex old r r.d e (fun l x =>
    xsetField (r.xf 0 3) x (if r.xb 3 then BitVec.ofNat 32 r.b else (t.src tg 1 l).val)) }

/-- XSET. -/
def execXset (o : ShortOps) (s : State) : Res := let r := Reg.ofShort 0 o; s.issue (formXset r) r (xsetBody r s.me)
/-- XSET, long form. -/
def execXsetLong (o : LongOps) (s : State) : Res := let r := Reg.ofLong o; s.issue (formXset r) r (xsetBody r s.me)

/-- Fields of XGET. -/
def formXget (r : Reg) : Form := { cls := 0, d := .vec, a := .num 8, x := decide (r.x < 6) }

/-- XGET (R176): the index register as it stood before an indirect destination modifies it. -/
def xgetBody (r : Reg) (old : Team) (s : State) (e : Mask) (tg : List (List Nat)) : Out :=
  s.putLanes e tg (fun l => Elem.ofWord (xgetField r.x ((old.thread l).x.getD r.a 0)))

/-- XGET. -/
def execXget (o : ShortOps) (s : State) : Res := let r := Reg.ofShort 0 o; s.issue (formXget r) r (xgetBody r s.me)
/-- XGET, long form. -/
def execXgetLong (o : LongOps) (s : State) : Res := let r := Reg.ofLong o; s.issue (formXget r) r (xgetBody r s.me)

/-- Fields of XADD. -/
def formXadd (r : Reg) : Form :=
  { cls := 0, d := .num 8, a := if r.xb 3 then .zero else .vec, b := if r.xb 3 then .any else .zero
    x := decide (r.x = 0) || decide (r.x = 8) }

/-- XADD (R176). -/
def xaddBody (r : Reg) (old : Team) (s : State) (e : Mask) (tg : List (List Nat)) : Out :=
  let t := s.me
  let bad := if r.xb 3 then 0 else t.poisLanes e tg 1
  if bad ≠ 0 then .trap 0x08 bad 0 0 0
  else .go { s with me := t.operateIndex old r r.d e (fun l x =>
    let add : Int := if r.xb 3 then sextN 8 r.b else (t.src tg 1 l).val.toInt
    xSetIndex x (xAdjust x ((bitsN x 16 8 : Nat) + add))) }

/-- XADD. -/
def execXadd (o : ShortOps) (s : State) : Res := let r := Reg.ofShort 0 o; s.issue (formXadd r) r (xaddBody r s.me)
/-- XADD, long form. -/
def execXaddLong (o : LongOps) (s : State) : Res := let r := Reg.ofLong o; s.issue (formXadd r) r (xaddBody r s.me)

end Sys2Proof.Machine
end

