-- ==== Sys2Proof/Machine/Scalar.lean ====
section
/-!
DEFINITION. Machine/Scalar: the scalar pipe (R165 to R174) and the system values (R171, R172).
-/

namespace Sys2Proof.Machine

/-- A scalar-pipe instruction: R123, then convergence (R31, R165), then its scalar registers free. -/
def State.issueScalar (s : State) (cls : Nat) (ok : Bool) (regs : List Nat) (body : State → Out) : Res :=
  match s.refusal cls ok false false with
  | some c => .next (s.trapGroup c)
  | none =>
    if !s.me.converged s.grp then .next (s.trapGroup 0x05)
    else if s.me.scalarsBusy regs then .next s
    else s.close (body s)

/-- The operations of SOP with two operands (R167). -/
inductive Sop where
  | add | sub | mul | and | or | xor | shl | shr | sar | min | max
  deriving DecidableEq, Repr

/-- f of R167. -/
def Sop.eval (k : Sop) (a b : Word) : Word :=
  match k with
  | .add => a + b
  | .sub => a - b
  | .mul => a * b
  | .and => a &&& b
  | .or => a ||| b
  | .xor => a ^^^ b
  | .shl => if 32 ≤ b.toNat then 0 else a <<< b.toNat
  | .shr => if 32 ≤ b.toNat then 0 else a >>> b.toNat
  | .sar => a.sshiftRight (Nat.min b.toNat 32)
  | .min => if a.toInt ≤ b.toInt then a else b
  | .max => if a.toInt ≤ b.toInt then b else a

/-- Scalar result written with its poison (R169). -/
def State.setScalar (s : State) (n : Nat) (e : Elem) : State := { s with me := s.me.setSreg n e }

/-- Fields of a one-word SOP (R167). -/
def sopOk (o : SOps) : Bool :=
  decide (o.sd.toNat < 24) && decide (o.sa.toNat < 24) && (decide (o.sb.toNat = 31) || (decide (o.sb.toNat < 24) && decide (o.imm = 0)))

/-- Fields of a two-word SOP (R119, R167). -/
def sopLongOk (o : SOps) : Bool :=
  decide (o.sd.toNat < 24) && decide (o.sa.toNat < 24) && decide (o.sb.toNat = 31) && decide (o.imm = 0)

/-- A one-word SOP: sb 31 gives the 4-bit immediate, another sb a register with a zero immediate (R167). -/
def State.sop (s : State) (k : Sop) (o : SOps) : Res :=
  let sd := o.sd.toNat
  let sa := o.sa.toNat
  let sb := o.sb.toNat
  s.issueScalar 0 (sopOk o) [sd, sa, sb] (fun s =>
    let a := s.me.sreg sa
    let b := if sb = 31 then Elem.ofWord (o.imm.zeroExtend 32) else s.me.sreg sb
    .go (s.setScalar sd { val := k.eval a.val b.val, pois := a.pois || b.pois }))

/-- A two-word SOP: sb 31 and the immediate W1 (R167, R119). -/
def State.sopLong (s : State) (k : Sop) (o : SOps) (w1 : Word) : Res :=
  let sd := o.sd.toNat
  let sa := o.sa.toNat
  s.issueScalar 0 (sopLongOk o) [sd, sa] (fun s =>
    let a := s.me.sreg sa
    .go (s.setScalar sd { val := k.eval a.val w1, pois := a.pois }))

/-- SADD. -/
def execSadd (o : SOps) (s : State) : Res := s.sop .add o
/-- SADD, long form. -/
def execSaddLong (o : SOps) (w1 : Word) (s : State) : Res := s.sopLong .add o w1
/-- SSUB. -/
def execSsub (o : SOps) (s : State) : Res := s.sop .sub o
/-- SSUB, long form. -/
def execSsubLong (o : SOps) (w1 : Word) (s : State) : Res := s.sopLong .sub o w1
/-- SMUL. -/
def execSmul (o : SOps) (s : State) : Res := s.sop .mul o
/-- SMUL, long form. -/
def execSmulLong (o : SOps) (w1 : Word) (s : State) : Res := s.sopLong .mul o w1
/-- SAND. -/
def execSand (o : SOps) (s : State) : Res := s.sop .and o
/-- SAND, long form. -/
def execSandLong (o : SOps) (w1 : Word) (s : State) : Res := s.sopLong .and o w1
/-- SOR. -/
def execSor (o : SOps) (s : State) : Res := s.sop .or o
/-- SOR, long form. -/
def execSorLong (o : SOps) (w1 : Word) (s : State) : Res := s.sopLong .or o w1
/-- SXOR. -/
def execSxor (o : SOps) (s : State) : Res := s.sop .xor o
/-- SXOR, long form. -/
def execSxorLong (o : SOps) (w1 : Word) (s : State) : Res := s.sopLong .xor o w1
/-- SSHL. -/
def execSshl (o : SOps) (s : State) : Res := s.sop .shl o
/-- SSHL, long form. -/
def execSshlLong (o : SOps) (w1 : Word) (s : State) : Res := s.sopLong .shl o w1
/-- SSHR. -/
def execSshr (o : SOps) (s : State) : Res := s.sop .shr o
/-- SSHR, long form. -/
def execSshrLong (o : SOps) (w1 : Word) (s : State) : Res := s.sopLong .shr o w1
/-- SSAR. -/
def execSsar (o : SOps) (s : State) : Res := s.sop .sar o
/-- SSAR, long form. -/
def execSsarLong (o : SOps) (w1 : Word) (s : State) : Res := s.sopLong .sar o w1
/-- SMIN. -/
def execSmin (o : SOps) (s : State) : Res := s.sop .min o
/-- SMIN, long form. -/
def execSminLong (o : SOps) (w1 : Word) (s : State) : Res := s.sopLong .min o w1
/-- SMAX. -/
def execSmax (o : SOps) (s : State) : Res := s.sop .max o
/-- SMAX, long form. -/
def execSmaxLong (o : SOps) (w1 : Word) (s : State) : Res := s.sopLong .max o w1

/-- Fields of SMOV (R167). -/
def smovOk (o : SOps) : Bool := decide (o.sd.toNat < 24) && decide (o.sa.toNat < 24) && decide (o.sb = 0) && decide (o.imm = 0)

/-- SMOV (R167). -/
def execSmov (o : SOps) (s : State) : Res :=
  s.issueScalar 0 (smovOk o) [o.sd.toNat, o.sa.toNat] (fun s => .go (s.setScalar o.sd.toNat (s.me.sreg o.sa.toNat)))

/-- Conditions of SCMP (R168). -/
def scalarCmp (cc : Nat) (a b : Word) : Bool :=
  match cc with
  | 0 => decide (a = b)
  | 1 => decide (a ≠ b)
  | 2 => decide (a.toInt < b.toInt)
  | 3 => decide (a.toInt ≤ b.toInt)
  | 4 => decide (b.toInt < a.toInt)
  | 5 => decide (b.toInt ≤ a.toInt)
  | 6 => decide (a.toNat < b.toNat)
  | 7 => decide (a.toNat ≤ b.toNat)
  | 8 => decide (b.toNat < a.toNat)
  | _ => decide (b.toNat ≤ a.toNat)

/-- Three registers of SCMP and SSEL below 24. -/
def sopRegsOk (o : SOps) : Bool := decide (o.sd.toNat < 24) && decide (o.sa.toNat < 24) && decide (o.sb.toNat < 24)

/-- SCMP (R168). -/
def execScmp (o : SOps) (s : State) : Res :=
  s.issueScalar 0 (sopRegsOk o && decide (o.imm.toNat < 10)) [o.sd.toNat, o.sa.toNat, o.sb.toNat] (fun s =>
    let a := s.me.sreg o.sa.toNat
    let b := s.me.sreg o.sb.toNat
    .go (s.setScalar o.sd.toNat { val := if scalarCmp o.imm.toNat a.val b.val then 1 else 0, pois := a.pois || b.pois }))

/-- SSEL (R168, R169): poisoned by old sd and the chosen input only. DEDUCED (log entry 8): codes 6 and 7 are refused where a field is checked, after the
class of R123, as CMP's and CENSUS's are; R145 and R168 leave the step open. -/
def execSsel (o : SOps) (s : State) : Res :=
  s.issueScalar 0 (sopRegsOk o && decide (o.imm.toNat < 6)) [o.sd.toNat, o.sa.toNat, o.sb.toNat] (fun s =>
    let old := s.me.sreg o.sd.toNat
    let v := if scalarCond o.imm.toNat old.val then s.me.sreg o.sa.toNat else s.me.sreg o.sb.toNat
    .go (s.setScalar o.sd.toNat { v with pois := v.pois || old.pois }))

/-- SMOVI (R170, R120). -/
def execSmovi (sd : BitVec 5) (z : BitVec 3) (imm : BitVec 16) (s : State) : Res :=
  s.issueScalar 0 (decide (sd.toNat < 24) && decide (z = 0)) [sd.toNat] (fun s =>
    .go (s.setScalar sd.toNat (Elem.ofWord (imm.signExtend 32))))
/-- SMOVI, long form. -/
def execSmoviLong (sd : BitVec 5) (z : BitVec 19) (w1 : Word) (s : State) : Res :=
  s.issueScalar 0 (decide (sd.toNat < 24) && decide (z = 0)) [sd.toNat] (fun s =>
    .go (s.setScalar sd.toNat (Elem.ofWord w1)))

/-! ## System values -/

/-- The grid of a team; one with nothing in it where the team has none. -/
def Grid.none : Grid :=
  { lseq := 0, proc := 0, args := 0, gx := 1, gy := 1, gz := 1, depth := 0, cls := 3, pin := false, origin := .packet 0 0, pre := [],
    left := 0, start := 0
    kd := { entry := 0, width := 8, teams := 1, cx := 1, cy := 1, cz := 1, acc := 0, accMax := 0, regs := 0, bars := 0, tags := 0,
            scratch := 0, tmem := 0, fifo := 0, trapEn := 0 } }

/-- Grid of the issuing team. -/
def State.myGrid (s : State) : Grid := (s.grid s.myBlock.grid).getD Grid.none

/-- The value of an SSYS selector (R171). -/
def State.sysValue (s : State) (sel : Nat) : DWord :=
  let t := s.me
  let g := s.myGrid
  let lin := s.myBlock.lin
  let bx := lin % g.gx
  let by_ := lin / g.gx % g.gy
  let bz := lin / g.gx / g.gy
  let n := fun (x : Nat) => BitVec.ofNat 64 x
  match sel with
  | 0 => n t.width
  | 1 => n t.index
  | 2 => n bx
  | 3 => n by_
  | 4 => n bz
  | 5 => n (bx % g.kd.cx + g.kd.cx * (by_ % g.kd.cy + g.kd.cy * (bz % g.kd.cz)))
  | 6 => n (bx / g.kd.cx)
  | 7 => n (by_ / g.kd.cy)
  | 8 => n (bz / g.kd.cz)
  | 9 => n g.gx
  | 10 => n g.gy
  | 11 => n g.gz
  | 12 => n (g.kd.cx + g.kd.cy * 2 ^ 8 + g.kd.cz * 2 ^ 16)
  | 13 => n g.depth
  | 14 => n g.number
  | 15 => n t.die
  | 16 => n (s.logicalOf t.die t.core)
  | 17 => n (t.part + t.sec * 2 ^ 4)
  | 18 => (s.die t.die).rclk
  | 19 => t.trapEn.zeroExtend 64
  | _ => t.sticky.zeroExtend 64

/-- Selectors that write a pair: 14 and 18 (R171). -/
def ssysWide (sel : BitVec 5) : Bool := decide (sel.toNat = 14) || decide (sel.toNat = 18)

/-- Fields of SSYS (R171). -/
def ssysOk (sd sa sb sel : BitVec 5) (z : BitVec 4) : Bool :=
  decide (sd.toNat < 24) && decide (sa = 0) && decide (sb = 0) && decide (z = 0) && decide (sel.toNat < 21) &&
    (!ssysWide sel || decide (sd.toNat % 2 = 0))

/-- SSYS (R171). -/
def execSsys (sd sa sb sel : BitVec 5) (z : BitVec 4) (s : State) : Res :=
  let wide := ssysWide sel
  let d := sd.toNat
  s.issueScalar 0 (ssysOk sd sa sb sel z) (if wide then [d, d + 1] else [d]) (fun s =>
    let v := s.sysValue sel.toNat
    .go (if wide then { s with me := s.me.setSpair d v false } else s.setScalar d (Elem.ofWord (bits v 0 32))))

/-! ## Scalar loads and stores (R173, R174) -/

/-- Fields of SLD and SST (R173, R174): the data register, even for 64 bits, the base pair, the unused field 0, the scope. -/
def scalarMemOk (store : Bool) (o : MemSOps) : Bool :=
  let reg := if store then o.sb.toNat else o.sd.toNat
  let other := if store then o.sd.toNat else o.sb.toNat
  decide (o.sa.toNat < 24) && decide (o.sa.toNat % 2 = 0) && decide (reg < 24) && (!o.size || decide (reg % 2 = 0)) &&
    decide (other = 0) && decide (o.scope.toNat ≠ 7)

/-- SLD and SST: fields, base and data checked, and the access put into the queue as one by the team's lowest live lane. DESIGN CHOICE (log entry
67): a trap of poison or of alignment names the issue group. -/
def State.scalarMem (s : State) (store : Bool) (o : MemSOps) (ok : Bool) (off : Int) : Res :=
  let n := if o.size then 8 else 4
  let reg := if store then o.sb.toNat else o.sd.toNat
  let sa := o.sa.toNat
  let regs := if o.size then [reg, reg + 1] else [reg]
  s.issueScalar 3 (ok && scalarMemOk store o) ([sa, sa + 1] ++ regs) (fun s =>
    if !s.queueRoom 1 then .wait
    else
      let t := s.me
      let bad := t.spairPois sa || (store && regs.any (fun i => (t.sreg i).pois))
      let addr := t.spair sa + BitVec.ofInt 64 off
      if bad then .trap 0x08 s.grp 0 0 0
      else if addr.toNat % n ≠ 0 then .trap 0x09 s.grp 0 addr 0
      else
        let lane := lowLane t.live
        let data := regs.map (fun i => (t.sreg i).val)
        let w := if store then Work.sstore o.size o.scope.toNat o.ord else Work.sload reg o.size o.scope.toNat o.ord
        let e := { s.entry 1 (maskPut 0 lane true) [] w with
          sbusy := if store then [] else regs
          addr := List.replicate t.width addr
          data := if store then List.replicate t.width data else []
          cap := leBytes 8 addr.toNat ++ leBytes 8 (if store then ofLeBytes (w32Bytes data) else 0) }
        .go (s.pushEntry e))

/-- SLD. -/
def execSld (o : MemSOps) (s : State) : Res := s.scalarMem false o true ((o.imm.toNat * (if o.size then 8 else 4) : Nat) : Int)
/-- SLD, long form. -/
def execSldLong (o : MemSOps) (w1 : Word) (s : State) : Res := s.scalarMem false o (decide (o.imm = 0)) w1.toInt
/-- SST. -/
def execSst (o : MemSOps) (s : State) : Res := s.scalarMem true o true ((o.imm.toNat * (if o.size then 8 else 4) : Nat) : Int)
/-- SST, long form. -/
def execSstLong (o : MemSOps) (w1 : Word) (s : State) : Res := s.scalarMem true o (decide (o.imm = 0)) w1.toInt

end Sys2Proof.Machine
end

