-- ==== Sys2Proof/Machine/Memory.lean ====
section
/-!
DEFINITION. Machine/Memory: issue of the MEM block (R208 to R233): fields, addresses, rows 1 and 2 of R212, and the entries
that the accesses leave in the replay queue. What an entry does afterwards stands in Machine/Perform.
-/

namespace Sys2Proof.Machine

/-! ## Fields (R208 to R210) -/

/-- Types of LD, ST, LDS, STS, LDT and STT. -/
def memTypes : List Nat := List.range 13

/-- A[4:0]: the base. -/
def Reg.base (r : Reg) : Nat := r.a % 32

/-- VO of A[5]. -/
def Reg.vo (r : Reg) : Bool := decide (r.a / 32 % 2 = 1)

/-- Count code of A[7:6]. -/
def Reg.cc (r : Reg) : Nat := r.a / 64 % 4

/-- Elements of a run. -/
def Reg.run (r : Reg) : Nat := 2 ^ r.cc

/-- op of A[7:5] (R221). -/
def Reg.aop (r : Reg) : Nat := r.a / 32 % 8

/-- A base is 31 or a register, even where it names a pair (R209, R217). -/
def Reg.baseOk (r : Reg) (pair : Bool) : Bool := decide (r.base = 31) || (decide (r.base < 24) && (!pair || decide (r.base % 2 = 0)))

/-- B holds an offset under VO, else zero (R209). -/
def Reg.offFld (r : Reg) : Fld := if r.vo then .vec else .zero

/-- A scope other than code 7. -/
def Reg.scopeOk (r : Reg) : Bool := decide (r.xf 0 3 ≠ 7)

/-- Scalar registers of a base. -/
def Reg.baseRegs (r : Reg) (pair : Bool) : List Nat :=
  if 24 ≤ r.base then [] else if pair then [r.base, r.base + 1] else [r.base]

/-- The base address. -/
def Team.baseOf (t : Team) (r : Reg) (pair : Bool) : Nat :=
  if 24 ≤ r.base then 0 else if pair then (t.spair r.base).toNat else (t.sreg r.base).val.toNat

/-- The address of a lane (R209): modulo 2^64 in global memory, modulo 2^32 as an offset (R217). -/
def Team.address (t : Team) (r : Reg) (tg : List (List Nat)) (glob vo : Bool) (imm : Int) (l : Nat) : DWord :=
  let b := (t.src tg 2 l).val
  let off : Int := if vo then (if glob then b.toInt else (b.toNat : Int)) else 0
  let a : Int := (t.baseOf r glob : Int) + off + imm
  if glob then BitVec.ofInt 64 a else BitVec.ofInt 64 (a % 2 ^ 32)

/-- Lanes of E with a poisoned element in a run of operand k. -/
def Team.poisRun (t : Team) (e : Mask) (tg : List (List Nat)) (k n : Nat) : Mask :=
  e &&& maskOf t.width (fun l => (List.range n).any (fun j => (t.srcAt tg k j l).pois))

/-- The words that a run of operand k holds in each executing lane. -/
def Team.dataOf (t : Team) (e : Mask) (tg : List (List Nat)) (k n : Nat) : List (List Word) :=
  (List.range t.width).map (fun l => if e.getLsbD l then (List.range n).map (fun j => (t.srcAt tg k j l).val) else [])

/-- Addresses and data of an entry, a list over the team's lanes. -/
def Entry.withAddr (e : Entry) (w : Nat) (addr : Nat → DWord) : Entry := { e with addr := (List.range w).map addr }

/-- Rows 1 and 2 of R212, the waits of R28 and R113, then the entry joins the queue. -/
def State.access (s : State) (r : Reg) (e : Mask) (bregs : List Nat) (bad : Mask) (addr : Nat → DWord) (align : Nat) (ent : Entry) : Out :=
  if s.me.scalarsBusy bregs || !s.queueRoom r.fsel then .wait
  else
    let bad := if bregs.any (fun i => (s.me.sreg i).pois) then e else bad
    let mis := e &&& maskOf s.me.width (fun l => decide ((addr l).toNat % align ≠ 0))
    if bad ≠ 0 then .trap 0x08 bad 0 0 0
    else if mis ≠ 0 then .trap 0x09 mis 0 (addr (lowLane mis)) 0
    else .go (s.pushEntry (ent.withAddr s.me.width addr))

/-- Lanes whose offset register is poisoned. -/
def Team.offPois (t : Team) (e : Mask) (tg : List (List Nat)) (vo : Bool) : Mask := if vo then t.poisRun e tg 2 1 else 0

/-! ## LD and ST (R214 to R216) -/

/-- Fields of LD: scope 7 is the constant space, without .acq and .fmt; .fmt takes f32, f16 and bf16. -/
def formLd (r : Reg) : Form :=
  { cls := 3, d := .aligned r.run, a := .any, b := r.offFld, c := .any, types := memTypes
    x := r.baseOk true && decide (r.cc ≠ 3) && (r.scopeOk || decide (r.xf 3 2 = 0)) && (!r.xb 4 || decide (2 ≤ r.t ∧ r.t ≤ 4)) }

/-- Fields of ST. -/
def formSt (r : Reg) : Form :=
  { cls := 3, d := .aligned r.run, dread := true, a := .any, b := r.offFld, c := .any, types := memTypes
    x := r.baseOk true && decide (r.cc ≠ 3) && r.scopeOk && decide (r.xf 4 2 = 0) }

/-- Immediate of R209 in bytes. -/
def Reg.imm (r : Reg) (size : Nat) : Int := sextN 8 r.c * (size : Int)

/-- A load of a run from an address space with a base and an offset. -/
def loadBody (glob : Bool) (m : MemOp) (r : Reg) (s : State) (e : Mask) (tg : List (List Nat)) : Out :=
  let t := s.me
  let size := m.esz * m.cnt
  let ent := { s.entry r.fsel e tg (.load m) with busy := t.dstBusy r e m.cnt tg }
  s.access r e (r.baseRegs glob) (t.offPois e tg r.vo) (t.address r tg glob r.vo (r.imm size)) size ent

/-- A store of a run; its data is read at issue (R211). -/
def storeBody (glob : Bool) (m : MemOp) (r : Reg) (s : State) (e : Mask) (tg : List (List Nat)) : Out :=
  let t := s.me
  let size := m.esz * m.cnt
  let ent := { s.entry r.fsel e tg (.store m) with data := t.dataOf e tg 0 m.cnt }
  s.access r e (r.baseRegs glob) (t.offPois e tg r.vo ||| t.poisRun e tg 0 m.cnt) (t.address r tg glob r.vo (r.imm size)) size ent

/-- What LD asks for. -/
def ldOp (r : Reg) : MemOp :=
  { space := if r.xf 0 3 = 7 then .const else .global, scope := r.xf 0 3, acq := r.xb 3, rel := false, esz := esize r.t,
    cnt := r.run, ty := r.t, fmt := r.xb 4, nf := r.xb 5 }

/-- What ST asks for. -/
def stOp (r : Reg) : MemOp :=
  { space := .global, scope := r.xf 0 3, acq := false, rel := r.xb 3, esz := esize r.t, cnt := r.run, ty := r.t, fmt := false, nf := false }

/-- LD. -/
def execLd (o : ShortOps) (s : State) : Res := let r := Reg.ofShort 1 o; s.issue (formLd r) r (loadBody true (ldOp r) r)
/-- LD, long form. -/
def execLdLong (o : LongOps) (s : State) : Res := let r := Reg.ofLong o; s.issue (formLd r) r (loadBody true (ldOp r) r)
/-- ST. -/
def execSt (o : ShortOps) (s : State) : Res := let r := Reg.ofShort 1 o; s.issue (formSt r) r (storeBody true (stOp r) r)
/-- ST, long form. -/
def execStLong (o : LongOps) (s : State) : Res := let r := Reg.ofLong o; s.issue (formSt r) r (storeBody true (stOp r) r)

/-! ## LDS and STS (R217); scopes .cl and wider act as .co (R82) -/

/-- Fields of LDS and STS without .q. -/
def formSpad (store : Bool) (r : Reg) : Form :=
  { cls := 3, d := .aligned r.run, dread := store, a := .any, b := r.offFld, c := .any, types := memTypes
    x := r.baseOk false && decide (r.cc ≠ 3) && r.scopeOk && decide (r.xf 4 2 = 0) }

/-- A scope as an on-chip memory takes it. -/
def bankScope (c : Nat) : Nat := if c ≤ 2 then c else 0

/-- What LDS asks for. -/
def ldsOp (r : Reg) : MemOp := { ldOp r with space := .scratch, scope := bankScope (r.xf 0 3), fmt := false, nf := false }
/-- What STS asks for. -/
def stsOp (r : Reg) : MemOp := { stOp r with space := .scratch, scope := bankScope (r.xf 0 3) }

/-- LDS. -/
def execLds (o : ShortOps) (s : State) : Res := let r := Reg.ofShort 1 o; s.issue (formSpad false r) r (loadBody false (ldsOp r) r)
/-- LDS, long form. -/
def execLdsLong (o : LongOps) (s : State) : Res := let r := Reg.ofLong o; s.issue (formSpad false r) r (loadBody false (ldsOp r) r)
/-- STS. -/
def execSts (o : ShortOps) (s : State) : Res := let r := Reg.ofShort 1 o; s.issue (formSpad true r) r (storeBody false (stsOp r) r)
/-- STS, long form. -/
def execStsLong (o : LongOps) (s : State) : Res := let r := Reg.ofLong o; s.issue (formSpad true r) r (storeBody false (stsOp r) r)

/-! ## FIFO banks (R218) -/

/-- Fields of LDS.q and STS.q, in a block with n FIFO banks. -/
def formFifo (push : Bool) (n : Nat) (r : Reg) : Form :=
  { cls := 3, d := .vec, dread := push, a := .any, b := .zero, c := .num n, types := [0, 1, 2, 11, 12]
    x := decide (r.a = 0x1F) && r.scopeOk && !r.xb 3 && !r.xb 5 }

/-- STS.q: the elements of the executing lanes, in increasing rank. -/
def pushBody (r : Reg) (s : State) (e : Mask) (tg : List (List Nat)) : Out :=
  let t := s.me
  if !s.queueRoom r.fsel then .wait
  else
    let bad := t.poisRun e tg 0 1
    if bad ≠ 0 then .trap 0x08 bad 0 0 0
    else .go (s.pushEntry { s.entry r.fsel e tg (.fifoPush r.c 0) with data := t.dataOf e tg 0 1 })

/-- LDS.q. -/
def popBody (r : Reg) (s : State) (e : Mask) (tg : List (List Nat)) : Out :=
  if !s.queueRoom r.fsel then .wait
  else .go (s.pushEntry { s.entry r.fsel e tg (.fifoPop r.c 0) with busy := s.me.dstBusy r e 1 tg })

/-- LDS.q. -/
def execLdsQ (o : LongOps) (s : State) : Res :=
  let r := Reg.ofLong o; s.issue (formFifo false s.myBlock.fifos.length r) r (popBody r)
/-- STS.q. -/
def execStsQ (o : LongOps) (s : State) : Res :=
  let r := Reg.ofLong o; s.issue (formFifo true s.myBlock.fifos.length r) r (pushBody r)

/-! ## LDT and STT (R219, R220) -/

/-- Fields of LDT and STT; .ordered in fragment teams only. -/
def formTile (store frag : Bool) (r : Reg) : Form :=
  { cls := 3, d := .aligned r.run, dread := store, a := .any, b := .vec, c := .any, types := memTypes
    x := r.vo && r.baseOk false && decide (r.cc ≠ 3) && r.scopeOk && !r.xb 5 && (!r.xb 4 || frag) }

/-- The pass and tile of a fragment or tile-kernel block. -/
def State.tileOf (s : State) (b : Block) : Option (Pass × TileSt) :=
  match s.grid b.grid with
  | none => none
  | some g =>
    let at_ := match g.origin with | .fragment p t => some (p, t) | .tileKernel p t => some (p, t) | _ => none
    match at_ with
    | none => none
    | some (p, t) =>
      match s.pass p with
      | none => none
      | some x => (x.tiles.find? (fun (y : TileSt) => decide (y.tile = t))).map (fun y => (x, y))

/-- A lane has exited and every access it issued has been performed: a later fragment reads what it stored (R220). -/
def Team.laneDone (t : Team) (l : Nat) : Bool :=
  (t.thread l).exited && t.entries.all (fun x => x.dropped || !x.lmask.getLsbD l)

/-- The fragment of a formed team at a pixel has exited, or there is none (R220). -/
def State.fragExited (s : State) (f : Frag) (px : Nat) : Bool :=
  match indexOf (fun (p : Nat × Nat) => decide (p.1 = px)) f.px with
  | none => true
  | some k => f.retired || (f.launched && (s.teamsOf f.block).all (fun t => t.laneDone k))

/-- Every fragment earlier than the lane's own at its pixel has exited (R328). -/
def State.orderedReady (s : State) (t : Team) (l : Nat) : Bool :=
  match s.block t.block with
  | none => true
  | some b =>
    match s.tileOf b with
    | none => true
    | some (_, y) => (y.frags.take t.fragRank).all (fun f => s.fragExited f (t.frag.getD l (4096, 0)).1)

/-- Address of element 0 of a lane (R219); bit 63 marks a pixel beyond the tile, which lies outside every allocation. -/
def tileAddr (u pl px : Nat) : DWord := BitVec.ofNat 64 ((8192 * pl + 2 * u * px) % 2 ^ 57 + (if 4096 ≤ px then 2 ^ 63 else 0))

/-- Channel width of a type in 16-bit units. -/
def tileUnit (t : Nat) : Nat := if esize t = 4 then 2 else 1

/-- LDT and STT. -/
def tileBody (store : Bool) (r : Reg) (s : State) (e : Mask) (tg : List (List Nat)) : Out :=
  let t := s.me
  let u := tileUnit r.t
  if r.xb 4 && (lanesOf e).any (fun l => !s.orderedReady t l) then .wait
  else
    let pl := r.c + t.baseOf r false
    let addr := fun l => tileAddr u pl (t.src tg 2 l).val.toNat
    let m : MemOp := { space := .tile, scope := bankScope (r.xf 0 3), acq := !store && r.xb 3, rel := store && r.xb 3, esz := 2 * u,
                       cnt := r.run, ty := r.t, fmt := false, nf := false }
    let bad := t.poisRun e tg 2 1 ||| (if store then t.poisRun e tg 0 r.run else 0)
    let ent := if store then { s.entry r.fsel e tg (.store m) with data := t.dataOf e tg 0 r.run }
               else { s.entry r.fsel e tg (.load m) with busy := t.dstBusy r e r.run tg }
    if bad = 0 ∧ !(r.baseRegs false).any (fun i => (t.sreg i).pois) ∧ u = 2 ∧ pl % 2 = 1 ∧ !t.scalarsBusy (r.baseRegs false) then
      .trap 0x09 e 0 (addr (lowLane e)) 0
    else s.access r e (r.baseRegs false) bad addr 1 ent

/-- The issuing team is a fragment team. -/
def State.isFrag (s : State) : Bool := match s.myGrid.origin with | .fragment _ _ => true | _ => false

/-- LDT. -/
def execLdt (o : ShortOps) (s : State) : Res := let r := Reg.ofShort 1 o; s.issue (formTile false s.isFrag r) r (tileBody false r)
/-- LDT, long form. -/
def execLdtLong (o : LongOps) (s : State) : Res := let r := Reg.ofLong o; s.issue (formTile false s.isFrag r) r (tileBody false r)
/-- STT. -/
def execStt (o : ShortOps) (s : State) : Res := let r := Reg.ofShort 1 o; s.issue (formTile true s.isFrag r) r (tileBody true r)
/-- STT, long form. -/
def execSttLong (o : LongOps) (s : State) : Res := let r := Reg.ofLong o; s.issue (formTile true s.isFrag r) r (tileBody true r)

/-! ## ATOM, RED and CAS (R221 to R225) -/

/-- The base of an atomic: a pair, none, or 30 for the scratchpad (R225). -/
def Reg.atomBase (r : Reg) : Bool := r.baseOk true || decide (r.base = 30)

/-- Types of an op of R221. -/
def atomTypes (red : Bool) (op : Nat) : List Nat :=
  if op ≤ 2 then (if red then [0, 1, 2, 3, 4] else [0, 1, 2])
  else if op ≤ 5 then [0, 1]
  else if red then [] else if op = 6 then [0, 1, 2] else [0, 1]

/-- Fields of ATOM. -/
def formAtom (r : Reg) : Form :=
  { cls := 3, d := .vec, a := .any, b := .vec, c := .vec, types := atomTypes false r.aop, x := r.atomBase && r.scopeOk && !r.xb 5 }

/-- Fields of RED without .det: order .rlx or .rel. -/
def formRed (r : Reg) : Form :=
  { cls := 3, a := .any, b := .vec, c := .vec, types := atomTypes true r.aop
    x := r.atomBase && r.scopeOk && !r.xb 5 && !r.xb 3 }

/-- Fields of RED.det (R224): .add, .rlx, .dv, not the scratchpad. -/
def formRedDet (r : Reg) : Form :=
  { cls := 3, a := .any, b := .vec, c := .vec, types := [2, 3, 4]
    x := r.baseOk true && decide (r.aop = 0) && decide (r.xf 3 2 = 0) && decide (r.xf 0 3 = 5) }

/-- Fields of CAS: vC an even pair. -/
def formCas (r : Reg) : Form :=
  { cls := 3, d := .vec, a := .any, b := .vec, c := .pair, types := [0, 1, 2]
    x := r.atomBase && decide (r.aop = 0) && r.scopeOk && !r.xb 5 }

/-- What an atomic asks for: order code 0 .rlx, 1 .acq, 2 .rel, 3 .ar. -/
def atomOp (r : Reg) : MemOp :=
  let spad := decide (r.base = 30)
  { space := if spad then .scratch else .global, scope := if spad then bankScope (r.xf 0 3) else r.xf 0 3, acq := r.xb 3, rel := r.xb 4,
    esz := esize r.t, cnt := 1, ty := r.t, fmt := false, nf := false }

/-- ATOM, RED, RED.det and CAS: `n` registers of data, a result under `res`. -/
def atomBody (n : Nat) (res : Bool) (w : Work) (r : Reg) (s : State) (e : Mask) (tg : List (List Nat)) : Out :=
  let t := s.me
  let glob := decide (r.base ≠ 30)
  let ent := { s.entry r.fsel e tg w with data := t.dataOf e tg 3 n, busy := if res then t.dstBusy r e 1 tg else [] }
  s.access r e (r.baseRegs glob) (t.poisRun e tg 2 1 ||| t.poisRun e tg 3 n) (t.address r tg glob true 0) (esize r.t) ent

/-- ATOM of one op. -/
def State.atom (s : State) (r : Reg) : Res := s.issue (formAtom r) r (atomBody 1 true (.atomic (atomOp r) .atom r.aop) r)
/-- RED of one op. -/
def State.red (s : State) (r : Reg) : Res := s.issue (formRed r) r (atomBody 1 false (.atomic (atomOp r) .red r.aop) r)
/-- CAS. -/
def State.cas (s : State) (r : Reg) : Res := s.issue (formCas r) r (atomBody 2 true (.atomic (atomOp r) .cas 0) r)

/-- ATOM.add. -/
def execAtomAdd (o : ShortOps) (s : State) : Res := s.atom (Reg.ofShort 1 o)
/-- ATOM.add, long form. -/
def execAtomAddLong (o : LongOps) (s : State) : Res := s.atom (Reg.ofLong o)
/-- ATOM.min. -/
def execAtomMin (o : ShortOps) (s : State) : Res := s.atom (Reg.ofShort 1 o)
/-- ATOM.min, long form. -/
def execAtomMinLong (o : LongOps) (s : State) : Res := s.atom (Reg.ofLong o)
/-- ATOM.max. -/
def execAtomMax (o : ShortOps) (s : State) : Res := s.atom (Reg.ofShort 1 o)
/-- ATOM.max, long form. -/
def execAtomMaxLong (o : LongOps) (s : State) : Res := s.atom (Reg.ofLong o)
/-- ATOM.and. -/
def execAtomAnd (o : ShortOps) (s : State) : Res := s.atom (Reg.ofShort 1 o)
/-- ATOM.and, long form. -/
def execAtomAndLong (o : LongOps) (s : State) : Res := s.atom (Reg.ofLong o)
/-- ATOM.or. -/
def execAtomOr (o : ShortOps) (s : State) : Res := s.atom (Reg.ofShort 1 o)
/-- ATOM.or, long form. -/
def execAtomOrLong (o : LongOps) (s : State) : Res := s.atom (Reg.ofLong o)
/-- ATOM.xor. -/
def execAtomXor (o : ShortOps) (s : State) : Res := s.atom (Reg.ofShort 1 o)
/-- ATOM.xor, long form. -/
def execAtomXorLong (o : LongOps) (s : State) : Res := s.atom (Reg.ofLong o)
/-- ATOM.exch. -/
def execAtomExch (o : ShortOps) (s : State) : Res := s.atom (Reg.ofShort 1 o)
/-- ATOM.exch, long form. -/
def execAtomExchLong (o : LongOps) (s : State) : Res := s.atom (Reg.ofLong o)
/-- ATOM.inc. -/
def execAtomInc (o : ShortOps) (s : State) : Res := s.atom (Reg.ofShort 1 o)
/-- ATOM.inc, long form. -/
def execAtomIncLong (o : LongOps) (s : State) : Res := s.atom (Reg.ofLong o)
/-- RED.add. -/
def execRedAdd (o : ShortOps) (s : State) : Res := s.red (Reg.ofShort 1 o)
/-- RED.add, long form. -/
def execRedAddLong (o : LongOps) (s : State) : Res := s.red (Reg.ofLong o)
/-- RED.min. -/
def execRedMin (o : ShortOps) (s : State) : Res := s.red (Reg.ofShort 1 o)
/-- RED.min, long form. -/
def execRedMinLong (o : LongOps) (s : State) : Res := s.red (Reg.ofLong o)
/-- RED.max. -/
def execRedMax (o : ShortOps) (s : State) : Res := s.red (Reg.ofShort 1 o)
/-- RED.max, long form. -/
def execRedMaxLong (o : LongOps) (s : State) : Res := s.red (Reg.ofLong o)
/-- RED.and. -/
def execRedAnd (o : ShortOps) (s : State) : Res := s.red (Reg.ofShort 1 o)
/-- RED.and, long form. -/
def execRedAndLong (o : LongOps) (s : State) : Res := s.red (Reg.ofLong o)
/-- RED.or. -/
def execRedOr (o : ShortOps) (s : State) : Res := s.red (Reg.ofShort 1 o)
/-- RED.or, long form. -/
def execRedOrLong (o : LongOps) (s : State) : Res := s.red (Reg.ofLong o)
/-- RED.xor. -/
def execRedXor (o : ShortOps) (s : State) : Res := s.red (Reg.ofShort 1 o)
/-- RED.xor, long form. -/
def execRedXorLong (o : LongOps) (s : State) : Res := s.red (Reg.ofLong o)
/-- RED.det. -/
def execRedDet (o : LongOps) (s : State) : Res :=
  let r := Reg.ofLong o; s.issue (formRedDet r) r (atomBody 1 false (.redDet r.t 0) r)
/-- CAS. -/
def execCas (o : ShortOps) (s : State) : Res := s.cas (Reg.ofShort 1 o)
/-- CAS, long form. -/
def execCasLong (o : LongOps) (s : State) : Res := s.cas (Reg.ofLong o)

/-! ## FENCE (R91, R226) -/

/-- The selection counts on some flag. -/
def Ctx.counts (c : Ctx) (sel : Nat) : Bool := decide (c.selA sel < 12) || decide (c.selB sel < 12)

/-- Fields of FENCE; one that counts on no flag is illegal. -/
def formFence (c : Ctx) (r : Reg) : Form :=
  { cls := 3, x := !r.xb 5 && r.scopeOk && (decide (r.xf 3 2 ≠ 0) || decide (r.xf 0 3 = 0)) && c.counts r.fsel }

/-- FENCE: 0 .mx, 1 .acq, 2 .rel, 3 .ar. -/
def fenceBody (r : Reg) (s : State) (e : Mask) (tg : List (List Nat)) : Out :=
  if !s.queueRoom r.fsel then .wait else .go (s.pushEntry (s.entry r.fsel e tg (.fence (r.xf 3 2) (r.xf 0 3))))

/-- FENCE.mx. -/
def execFenceMx (o : ShortOps) (s : State) : Res := let r := Reg.ofShort 0 o; s.issue (formFence s.ctx r) r (fenceBody r)
/-- FENCE.mx, long form. -/
def execFenceMxLong (o : LongOps) (s : State) : Res := let r := Reg.ofLong o; s.issue (formFence s.ctx r) r (fenceBody r)
/-- FENCE.acq. -/
def execFenceAcq (o : LongOps) (s : State) : Res := let r := Reg.ofLong o; s.issue (formFence s.ctx r) r (fenceBody r)
/-- FENCE.rel. -/
def execFenceRel (o : LongOps) (s : State) : Res := let r := Reg.ofLong o; s.issue (formFence s.ctx r) r (fenceBody r)
/-- FENCE.ar. -/
def execFenceAr (o : LongOps) (s : State) : Res := let r := Reg.ofLong o; s.issue (formFence s.ctx r) r (fenceBody r)

/-! ## Barriers (R227, R228) -/

/-- Fields of BAR in a block with n barrier objects: sub-op 0 sync, 1 arrive, 2 wait. -/
def formBar (n : Nat) (r : Reg) : Form :=
  { cls := 3, d := .num n, b := .any
    x := decide (r.b ≤ 128) && (decide (r.xf 0 2 ≠ 2) || (decide (r.b = 0) && !r.xb 2)) && decide (r.xf 3 3 = 0) }

/-- Number a is after b, by 32-bit wrap. -/
def wrapAfter (a b : Word) : Bool := decide (0 < (a - b).toInt)

/-- An entry that accesses memory, or a submission that a release waits for (R89, R95). -/
def Work.accesses : Work → Bool
  | .fence .. => false
  | .bar .. => false
  | .pref _ => false
  | .cctl _ => false
  | .twait .. => false
  | .matrix .. => false
  | .tileq _ => false
  | _ => true

/-- Entries of the team that came before one, share a lane with it, and may make progress. -/
def Team.before (t : Team) (e : Entry) : List Entry :=
  (t.entries.drop t.suspended).filter (fun x => decide (x.order < e.order) && !x.dropped && decide (x.emask &&& e.emask ≠ 0))

/-- An entry that its thread's lane l has not been through: a per-lane access as long as the lane is still to be performed, another access, and a
BAR whose arrival is not counted. -/
def Entry.openFor (x : Entry) (l : Nat) : Bool :=
  x.emask.getLsbD l && (match x.work with
    | .bar _ sub _ _ arrived _ => decide (sub ≠ 2) && !arrived.getLsbD l
    | w => w.accesses && (!w.perLane || x.lmask.getLsbD l))

/-- Lanes of a BAR that arrive now: those whose arrival is not counted and whose earlier accesses are performed, so that their release is (R95,
R228). A lane's arrivals are counted in its program order. -/
def Team.arriving (t : Team) (e : Entry) (arrived : Mask) : Mask :=
  e.lmask &&& ~~~ arrived &&& maskOf t.width (fun l => !(t.before e).any (fun x => x.openFor l))

/-- arrive() of R228 for the lanes of a mask, in increasing rank. -/
def State.arrive (s : State) (id blk n code : Nat) (m : Mask) : State :=
  (lanesOf m).foldl (fun s l =>
    match s.block blk, s.team id with
    | some b, some t =>
      let x := b.bars.getD n Barrier.reset
      let th := t.thread l
      let t := t.setThread l { th with last := tabSet th.last n x.phase }
      let x := { x with arrivals := x.arrivals + 1, code := match x.code with | none => some code | c => c }
      ((s.setTeam t).setBlock { b with bars := setAt b.bars n x }).barComplete blk n
    | _, _ => s) s

/-- A BAR entry taken as far as it goes (R228): the lanes that arrive now counted, each by itself, then those that no phase holds released; with
the last the entry completes. BAR.wait finds its target when it is first taken, at issue. -/
def State.barStep (s : State) (id : Nat) (e : Entry) : State :=
  match e.work, s.team id with
  | .bar n sub mx code arrived target, some t =>
    let due := if sub = 2 then 0 else t.arriving e arrived
    let s := if mx then s.lanesReady id due false else s
    let s := s.arrive id t.block n code due
    match s.team id, s.block t.block with
    | some t, some b =>
      let ph := (b.bars.getD n Barrier.reset).phase
      let arrived := arrived ||| due
      let past := fun l => match (t.thread l).lastAt n with | some p => wrapAfter ph p | none => false
      let free := fun l => match sub, target with
        | 0, _ => arrived.getLsbD l && past l
        | 1, _ => arrived.getLsbD l
        | _, some p => wrapAfter ph p
        | _, none => past l
      let held := e.lmask &&& ~~~ maskOf t.width free
      if held = 0 then s.setTeam (t.finish e)
      else s.setTeam (t.setEntry { e with lmask := held, work := .bar n sub mx code arrived (some (target.getD ph)) })
    | _, _ => s
  | _, _ => s

/-- BAR (R228): the entry is pushed, and goes on at once where it can. -/
def barBody (r : Reg) (s : State) (e : Mask) (tg : List (List Nat)) : Out :=
  if !s.queueRoom r.fsel then .wait
  else
    let ent := s.entry r.fsel e tg (.bar r.d (r.xf 0 2) (r.xb 2) r.b 0 none)
    .go ((s.pushEntry ent).barStep s.me.id ent)

/-- Barrier objects that the block's kernel declares. -/
def State.barCount (s : State) : Nat := s.myGrid.kd.bars

/-- BAR.sync. -/
def execBarSync (o : ShortOps) (s : State) : Res := let r := Reg.ofShort 0 o; s.issue (formBar s.barCount r) r (barBody r)
/-- BAR.sync, long form. -/
def execBarSyncLong (o : LongOps) (s : State) : Res := let r := Reg.ofLong o; s.issue (formBar s.barCount r) r (barBody r)
/-- BAR.arrive. -/
def execBarArrive (o : LongOps) (s : State) : Res := let r := Reg.ofLong o; s.issue (formBar s.barCount r) r (barBody r)
/-- BAR.wait. -/
def execBarWait (o : LongOps) (s : State) : Res := let r := Reg.ofLong o; s.issue (formBar s.barCount r) r (barBody r)

/-! ## CPS (R229) -/

/-- Fields of CPS in a block with n barrier objects. DESIGN CHOICE (log entry 59): D names the scratchpad offsets, one register, so the limits
of R210 on a run of registers do not hold it. -/
def formCps (n : Nat) (r : Reg) : Form :=
  { cls := 3, d := .vec, dread := true, a := .any, b := r.offFld, c := .num n
    x := r.baseOk true && decide (r.cc ≠ 3) && r.scopeOk && decide (r.xf 3 3 = 0) }

/-- A CPS that issues counts on the object's current phase, or on the next one when every arrival that the phase expects has been counted
(R302): the object after it, and the number of the phase. -/
def State.cpsCount (s : State) (b : Block) (n : Nat) : Barrier × Word :=
  let x := b.bars.getD n Barrier.reset
  match s.barNeed b n with
  | some need => if need ≤ x.arrivals then ({ x with later := x.later + 1 }, x.phase + 1) else ({ x with cps := x.cps + 1 }, x.phase)
  | none => ({ x with cps := x.cps + 1 }, x.phase)

/-- CPS: counted on a phase of the barrier object at issue; its scratchpad offsets are kept as data. -/
def cpsBody (r : Reg) (s : State) (e : Mask) (tg : List (List Nat)) : Out :=
  let t := s.me
  let size := esize r.t * r.run
  let m := { ldOp r with space := .global, acq := false, fmt := false, nf := false }
  let ent := { s.entry r.fsel e tg (.cps m r.c (s.cpsCount s.myBlock r.c).2) with data := t.dataOf e tg 0 1 }
  let bad := t.offPois e tg r.vo ||| t.poisRun e tg 0 1
  let mis := e &&& maskOf t.width (fun l => decide ((t.src tg 0 l).val.toNat % size ≠ 0))
  match s.access r e (r.baseRegs true) bad (t.address r tg true r.vo 0) size ent with
  | .go s' =>
    if mis ≠ 0 then .trap 0x09 mis 0 ((t.src tg 0 (lowLane mis)).val.zeroExtend 64) 0
    else
      let b := s'.myBlock
      .go (s'.setBlock { b with bars := setAt b.bars r.c (s.cpsCount b r.c).1 })
  | x => x

/-- CPS. -/
def execCps (o : ShortOps) (s : State) : Res := let r := Reg.ofShort 0 o; s.issue (formCps s.barCount r) r (cpsBody r)
/-- CPS, long form. -/
def execCpsLong (o : LongOps) (s : State) : Res := let r := Reg.ofLong o; s.issue (formCps s.barCount r) r (cpsBody r)

/-! ## PREF, CCTL, SIG and RFLUSH (R230 to R233) -/

/-- Fields of an instruction that names lines or words: `n` is the number of allowed values of X[5:0]. -/
def formLine (n : Nat) (r : Reg) : Form :=
  { cls := 3, a := .any, b := r.offFld, c := .any, x := r.baseOk true && decide (r.cc = 0) && decide (r.xf 0 6 < n) }

/-- Fields of CCTL.invall and RFLUSH.all: no operand. -/
def formWhole (v : Nat) (r : Reg) : Form := { cls := 3, x := decide (r.xf 0 6 = v) }

/-- PREF, CCTL and RFLUSH with addresses; never misaligned (R210). -/
def lineBody (w : Work) (r : Reg) (s : State) (e : Mask) (tg : List (List Nat)) : Out :=
  let t := s.me
  s.access r e (r.baseRegs true) (t.offPois e tg r.vo) (t.address r tg true r.vo (r.imm 4)) 1 (s.entry r.fsel e tg w)

/-- CCTL.invall and RFLUSH.all. -/
def wholeBody (w : Work) (r : Reg) (s : State) (e : Mask) (tg : List (List Nat)) : Out :=
  if !s.queueRoom r.fsel then .wait else .go (s.pushEntry (s.entry r.fsel e tg w))

/-- PREF.l1. -/
def execPrefL1 (o : ShortOps) (s : State) : Res := let r := Reg.ofShort 0 o; s.issue (formLine 2 r) r (lineBody (.pref 0) r)
/-- PREF.l1, long form. -/
def execPrefL1Long (o : LongOps) (s : State) : Res := let r := Reg.ofLong o; s.issue (formLine 2 r) r (lineBody (.pref (r.xf 0 1)) r)
/-- PREF.dc. -/
def execPrefDc (o : LongOps) (s : State) : Res := let r := Reg.ofLong o; s.issue (formLine 2 r) r (lineBody (.pref (r.xf 0 1)) r)

/-- CCTL.wb. -/
def execCctlWb (o : ShortOps) (s : State) : Res := let r := Reg.ofShort 0 o; s.issue (formLine 2 r) r (lineBody (.cctl 0) r)
/-- CCTL.wb, long form. -/
def execCctlWbLong (o : LongOps) (s : State) : Res := let r := Reg.ofLong o; s.issue (formLine 2 r) r (lineBody (.cctl (r.xf 0 2)) r)
/-- CCTL.inv. -/
def execCctlInv (o : LongOps) (s : State) : Res := let r := Reg.ofLong o; s.issue (formLine 2 r) r (lineBody (.cctl (r.xf 0 2)) r)
/-- CCTL.invall. -/
def execCctlInvall (o : LongOps) (s : State) : Res := let r := Reg.ofLong o; s.issue (formWhole 2 r) r (wholeBody (.cctl 2) r)

/-- Fields of SIG: op in X[1:0], .irq in X[2]. -/
def formSig (r : Reg) : Form :=
  { cls := 3, a := .any, b := r.offFld, c := .pair
    x := r.baseOk true && decide (r.cc = 0) && decide (r.xf 0 2 ≠ 3) && decide (r.xf 3 3 = 0) }

/-- SIG: 0 .set, 1 .add, 2 .sub. DESIGN CHOICE (log entry 61): its address takes no immediate, since C names vC. -/
def sigBody (r : Reg) (s : State) (e : Mask) (tg : List (List Nat)) : Out :=
  let t := s.me
  let ent := { s.entry r.fsel e tg (.sig (r.xf 0 2) (r.xb 2)) with data := t.dataOf e tg 3 2 }
  s.access r e (r.baseRegs true) (t.offPois e tg r.vo ||| t.poisRun e tg 3 2) (t.address r tg true r.vo 0) 8 ent

/-- SIG.set. -/
def execSigSet (o : ShortOps) (s : State) : Res := let r := Reg.ofShort 0 o; s.issue (formSig r) r (sigBody r)
/-- SIG.set, long form. -/
def execSigSetLong (o : LongOps) (s : State) : Res := let r := Reg.ofLong o; s.issue (formSig r) r (sigBody r)
/-- SIG.add. -/
def execSigAdd (o : LongOps) (s : State) : Res := let r := Reg.ofLong o; s.issue (formSig r) r (sigBody r)
/-- SIG.sub. -/
def execSigSub (o : LongOps) (s : State) : Res := let r := Reg.ofLong o; s.issue (formSig r) r (sigBody r)

/-- RFLUSH. -/
def execRflush (o : ShortOps) (s : State) : Res := let r := Reg.ofShort 0 o; s.issue (formLine 1 r) r (lineBody (.rflush false) r)
/-- RFLUSH, long form. -/
def execRflushLong (o : LongOps) (s : State) : Res := let r := Reg.ofLong o; s.issue (formLine 1 r) r (lineBody (.rflush false) r)
/-- RFLUSH.all. -/
def execRflushAll (o : LongOps) (s : State) : Res := let r := Reg.ofLong o; s.issue (formWhole 1 r) r (wholeBody (.rflush true) r)

end Sys2Proof.Machine
end

