-- ==== Sys2Proof/Machine/Crypto.lean ====
section
/-!
DEFINITION. Machine/Crypto: the standards that R391 names: SHA-384 (FIPS 180-4), Ed25519 verification (RFC 8032) and ML-DSA-65
verification (FIPS 204) with SHAKE (FIPS 202). PRESUMED (log entry 69): the spec names them and does not write them out.
-/

namespace Sys2Proof.Machine

/-- Bytes in chunks of n; fuel counts chunks. -/
def chunks (n : Nat) : Nat → List Byte → List (List Byte)
  | 0, _ => []
  | k + 1, bs => if bs = [] then [] else bs.take n :: chunks n k (bs.drop n)

/-- Fields of w bits of little-endian bytes. -/
def fieldsOf (w n : Nat) (bs : List Byte) : List Nat := let x := ofLeBytes bs; (List.range n).map (fun i => x / 2 ^ (w * i) % 2 ^ w)

/-- The exponents of 256 bits from the highest: one power by squaring, in a monoid. -/
def powBits {α : Type} (op : α → α → α) (one b : α) (e : Nat) : α :=
  (List.range 256).foldl (fun r i => let r := op r r; if e.testBit (255 - i) then op r b else r) one

/-! ## SHA-384 and SHA-512 -/

/-- The largest number of at most `i` more bits whose k-th power does not exceed n. -/
def rootBits (k n : Nat) : Nat → Nat → Nat
  | 0, r => r
  | i + 1, r => rootBits k n i (if (r + 2 ^ i) ^ k ≤ n then r + 2 ^ i else r)

/-- The first 80 primes. -/
def shaPrimes : List Nat := (List.range 410).filter (fun n => decide (2 ≤ n) && (List.range n).all (fun d => decide (d < 2) || decide (n % d ≠ 0)))

/-- 64 bits of the fraction of the cube roots of the primes, and of the square roots. -/
def shaK : List DWord := shaPrimes.map (fun p => BitVec.ofNat 64 (rootBits 3 (p * 2 ^ 192) 72 0))
def shaH (ps : List Nat) : List DWord := ps.map (fun p => BitVec.ofNat 64 (rootBits 2 (p * 2 ^ 128) 72 0))

/-- Rotation right. -/
def rotr (x : DWord) (n : Nat) : DWord := x.rotateRight n

/-- One round on the eight working words. -/
def shaRound (v : List DWord) (kw : DWord) : List DWord :=
  match v with
  | [a, b, c, d, e, f, g, h] =>
    let t1 := h + (rotr e 14 ^^^ rotr e 18 ^^^ rotr e 41) + ((e &&& f) ^^^ (~~~ e &&& g)) + kw
    let t2 := (rotr a 28 ^^^ rotr a 34 ^^^ rotr a 39) + ((a &&& b) ^^^ (a &&& c) ^^^ (b &&& c))
    [t1 + t2, a, b, c, d + t1, e, f, g]
  | _ => v

/-- The message schedule of a block, newest word first. -/
def shaSchedule (blk : List Byte) : List DWord :=
  let w := (List.range 16).map (fun i => BitVec.ofNat 64 (ofLeBytes (((blk.drop (8 * i)).take 8).reverse)))
  (List.range 64).foldl (fun (r : List DWord) _ =>
    let a := r.getD 14 0
    let b := r.getD 1 0
    ((rotr b 19 ^^^ rotr b 61 ^^^ (b >>> 6)) + r.getD 6 0 + (rotr a 1 ^^^ rotr a 8 ^^^ (a >>> 7)) + r.getD 15 0) :: r) w.reverse

/-- The hash of a message from initial words. -/
def sha2 (h : List DWord) (m : List Byte) : List Byte :=
  let pad := m ++ [0x80] ++ List.replicate ((239 - m.length % 128) % 128) 0 ++ (leBytes 16 (8 * m.length)).reverse
  let k := shaK
  ((chunks 128 (pad.length / 128) pad).foldl (fun (h : List DWord) blk =>
    let v := (List.zipWith (· + ·) k (shaSchedule blk).reverse).foldl shaRound h
    List.zipWith (· + ·) h v) h).flatMap (fun w => (leBytes 8 w.toNat).reverse)

/-- SHA-384. -/
def sha384 (m : List Byte) : List Byte := (sha2 (shaH ((shaPrimes.drop 8).take 8)) m).take 48

/-- SHA-512. -/
def sha512 (m : List Byte) : List Byte := sha2 (shaH (shaPrimes.take 8)) m

/-! ## Ed25519 -/

/-- The field's prime, the group's order, the curve's constant. -/
def edP : Nat := 2 ^ 255 - 19
def edL : Nat := 2 ^ 252 + 27742317777372353535851937790883648493
def edMul (a b : Nat) : Nat := a * b % edP
def edPow (b e : Nat) : Nat := powBits edMul 1 b e
def edSub (a b : Nat) : Nat := (a + edP - b) % edP
def edD : Nat := edMul (edP - 121665) (edPow 121666 (edP - 2))

/-- A point in extended coordinates. -/
structure EdPoint where
  x : Nat
  y : Nat
  z : Nat
  t : Nat
  deriving DecidableEq, Repr

/-- The sum of two points. -/
def EdPoint.add (p q : EdPoint) : EdPoint :=
  let a := edMul (edSub p.y p.x) (edSub q.y q.x)
  let b := edMul (p.y + p.x) (q.y + q.x)
  let c := edMul (edMul (2 * p.t) edD) q.t
  let d := edMul (2 * p.z) q.z
  let e := edSub b a
  let f := edSub d c
  let g := (d + c) % edP
  let h := (b + a) % edP
  { x := edMul e f, y := edMul g h, z := edMul f g, t := edMul e h }

/-- A multiple of a point. -/
def EdPoint.mul (k : Nat) (p : EdPoint) : EdPoint := powBits EdPoint.add { x := 0, y := 1, z := 1, t := 0 } p k

/-- The same point. -/
def EdPoint.same (p q : EdPoint) : Bool := decide (edMul p.x q.z = edMul q.x p.z) && decide (edMul p.y q.z = edMul q.y p.z)

/-- The point of an encoding: y and the sign of x (RFC 8032, 5.1.3). -/
def edPoint (y : Nat) (sign : Bool) : Option EdPoint :=
  if edP ≤ y then none
  else
    let x2 := edMul (edSub (edMul y y) 1) (edPow (edMul edD (edMul y y) + 1) (edP - 2))
    let r := edPow x2 ((edP + 3) / 8)
    let x := if edMul r r = x2 then r else edMul r (edPow 2 ((edP - 1) / 4))
    if edMul x x ≠ x2 ∨ (x = 0 ∧ sign) then none
    else
      let x := if decide (x % 2 = 1) = sign then x else edP - x
      some { x := x, y := y, z := 1, t := edMul x y }

/-- Ed25519.verify of a key, a message and a signature: [8][S]B = [8]R + [8][k]A (RFC 8032, 5.1.7). -/
def edVerify (pk m sig : List Byte) : Bool :=
  let point := fun (bs : List Byte) => edPoint (ofLeBytes bs % 2 ^ 255) (decide (ofLeBytes bs / 2 ^ 255 = 1))
  let s := ofLeBytes (sig.drop 32)
  match point pk, point (sig.take 32), edPoint (edMul 4 (edPow 5 (edP - 2))) false with
  | some a, some r, some b =>
    let k := ofLeBytes (sha512 (sig.take 32 ++ pk ++ m)) % edL
    decide (pk.length = 32 ∧ sig.length = 64 ∧ s < edL) && ((b.mul s).mul 8).same ((r.mul 8).add ((a.mul k).mul 8))
  | _, _, _ => false

/-! ## SHAKE -/

/-- Bit t of the round constants' sequence. -/
def keccakBit (t : Nat) : Bool :=
  decide (((List.range (t % 255)).foldl (fun r _ => if 128 ≤ r then Nat.xor (2 * r) 0x171 else 2 * r) 1) % 2 = 1)

/-- The round constants. -/
def keccakRC : List DWord :=
  (List.range 24).map (fun i => (List.range 7).foldl (fun (w : DWord) j => if keccakBit (j + 7 * i) then w ||| BitVec.ofNat 64 (2 ^ (2 ^ j - 1)) else w) 0)

/-- Rotation of lane x + 5y, at that place. -/
def keccakRot : List Nat :=
  let path := (List.range 24).foldl (fun (a : (Nat × Nat) × List (Nat × Nat)) t =>
    ((a.1.2, (2 * a.1.1 + 3 * a.1.2) % 5), (a.1.1 + 5 * a.1.2, (t + 1) * (t + 2) / 2 % 64) :: a.2)) ((1, 0), [])
  (List.range 25).map (fun i => match path.2.find? (fun p => decide (p.1 = i)) with | some p => p.2 | none => 0)

/-- One round of Keccak-f[1600] on 25 lanes. -/
def keccakRound (rot : List Nat) (a : List DWord) (rc : DWord) : List DWord :=
  let col := (List.range 5).map (fun x => (List.range 5).foldl (fun (w : DWord) y => w ^^^ a.getD (x + 5 * y) 0) 0)
  let a := (List.range 25).map (fun i => (a.getD i 0) ^^^ (col.getD ((i + 4) % 5) 0) ^^^ ((col.getD ((i + 1) % 5) 0).rotateLeft 1))
  let b := (List.range 25).map (fun i => let j := (i % 5 + 3 * (i / 5)) % 5 + 5 * (i % 5); (a.getD j 0).rotateLeft (rot.getD j 0))
  (List.range 25).map (fun i =>
    let row := i / 5 * 5
    let x := (b.getD i 0) ^^^ (~~~ (b.getD (row + (i + 1) % 5) 0) &&& b.getD (row + (i + 2) % 5) 0)
    if i = 0 then x ^^^ rc else x)

/-- Keccak-f[1600]. -/
def keccakF (a : List DWord) : List DWord := let rot := keccakRot; keccakRC.foldl (keccakRound rot) a

/-- n output blocks of a rate. -/
def squeeze (rate : Nat) : Nat → List DWord → List Byte
  | 0, _ => []
  | n + 1, a => (a.flatMap (fun w => leBytes 8 w.toNat)).take rate ++ squeeze rate n (keccakF a)

/-- The first n blocks of SHAKE with a rate in bytes: 168 for SHAKE128, 136 for SHAKE256. -/
def shake (rate n : Nat) (m : List Byte) : List Byte :=
  let k := rate - m.length % rate
  let pad := m ++ (if k = 1 then [0x9F] else [0x1F] ++ List.replicate (k - 2) 0 ++ [0x80])
  let a := (chunks rate (pad.length / rate) pad).foldl (fun (a : List DWord) blk =>
    keccakF (mapIx (fun i w => w ^^^ BitVec.ofNat 64 (ofLeBytes ((blk.drop (8 * i)).take 8))) a)) (List.replicate 25 0)
  squeeze rate n a

/-- H of FIPS 204: n bytes of SHAKE256. -/
def shakeH (m : List Byte) (n : Nat) : List Byte := (shake 136 (n / 136 + 1) m).take n

/-! ## ML-DSA-65 -/

/-- Modulus; root of unity of order 512; γ1, γ2, τ, β, ω, k, l of ML-DSA-65. -/
def mlQ : Nat := 8380417
def mlG1 : Nat := 2 ^ 19
def mlG2 : Nat := (mlQ - 1) / 32
def mlMul (a b : Nat) : Nat := a * b % mlQ
def mlPow (b e : Nat) : Nat := powBits mlMul 1 b e

/-- The points of the number-theoretic transform, in its order. -/
def mlPoints : List Nat :=
  (List.range 256).map (fun i => mlPow 1753 (2 * ((List.range 8).foldl (fun r j => 2 * r + i / 2 ^ j % 2) 0) + 1))

/-- NTT: a polynomial at every point. -/
def mlNtt (pts w : List Nat) : List Nat := pts.map (fun x => w.foldr (fun c r => (r * x + c) % mlQ) 0)

/-- Inverse NTT from the inverses of the points. -/
def mlInv (inv w : List Nat) : List Nat :=
  let n := mlPow 256 (mlQ - 2)
  ((List.range 256).foldl (fun (a : List Nat × List Nat) _ => (List.zipWith mlMul a.1 inv, mlMul n (a.1.foldl (· + ·) 0) :: a.2)) (w, [])).2.reverse

/-- The coefficients that rejection sampling takes of a stream, three bytes each (RejNTTPoly). -/
def mlReject : List Byte → List Nat
  | a :: b :: c :: r =>
    let z := a.toNat + 256 * b.toNat + 65536 * (c.toNat % 128)
    if z < mlQ then z :: mlReject r else mlReject r
  | _ => []

/-- Entry (r, s) of the matrix, from SHAKE128; eight blocks give enough but for a chance that FIPS 204 lets be refused. -/
def mlEntry (rho : List Byte) (r s : Nat) : List Nat := (mlReject (shake 168 8 (rho ++ leBytes 1 s ++ leBytes 1 r))).take 256

/-- SampleInBall: one coefficient ±1 put at a place that the stream gives, for each place from 207 on. -/
def mlBall (seed : List Byte) : List Nat :=
  let bs := shake 136 8 seed
  let signs := ofLeBytes (bs.take 8)
  ((List.range 49).foldl (fun (a : List Nat × List Byte) t =>
    let i := 207 + t
    let rest := a.2.dropWhile (fun b => decide (i < b.toNat))
    let j := (rest.headD 0).toNat
    (setAt (setAt a.1 i (a.1.getD j 0)) j (if signs.testBit t then mlQ - 1 else 1), rest.drop 1)) (List.replicate 256 0, bs.drop 8)).1

/-- The hint of a signature: for each of six polynomials the places that are set; none where it is malformed (HintBitUnpack). -/
def mlHint (y : List Byte) : Option (List (List Nat)) :=
  let at_ := fun i => (y.getD i 0).toNat
  let ends := (List.range 7).map (fun i => if i = 0 then 0 else at_ (54 + i))
  let rising := fun (l : List Nat) => (List.range (l.length - 1)).all (fun i => decide (l.getD i 0 < l.getD (i + 1) 0))
  let runs := (List.range 6).map (fun i => (List.range (ends.getD (i + 1) 0 - ends.getD i 0)).map (fun j => at_ (ends.getD i 0 + j)))
  if (List.range 6).all (fun i => decide (ends.getD i 0 ≤ ends.getD (i + 1) 0 ∧ ends.getD (i + 1) 0 ≤ 55)) && runs.all rising &&
     (List.range (55 - ends.getD 6 0)).all (fun i => decide (at_ (ends.getD 6 0 + i) = 0)) then some runs else none

/-- UseHint: the high part of a coefficient, moved by its hint. -/
def mlUse (h : Bool) (r : Nat) : Nat :=
  let r0 := r % (2 * mlG2)
  let r0 : Int := if mlG2 < r0 then (r0 : Int) - 2 * mlG2 else r0
  let top := decide ((r : Int) - r0 = mlQ - 1)
  let r1 := if top then 0 else (((r : Int) - r0) / (2 * mlG2)).toNat
  let r0 := if top then r0 - 1 else r0
  if !h then r1 else if 0 < r0 then (r1 + 1) % 16 else (r1 + 15) % 16

/-- ML-DSA-65.verify of a key, a message and a signature with the empty context (FIPS 204, Algorithms 3 and 8). -/
def mlVerify (pk m sig : List Byte) : Bool :=
  let rho := pk.take 32
  let t1 := (List.range 6).map (fun i => fieldsOf 10 256 ((pk.drop (32 + 320 * i)).take 320))
  let z : List (List Int) := (List.range 5).map (fun i => (fieldsOf 20 256 ((sig.drop (48 + 640 * i)).take 640)).map (fun (v : Nat) => (mlG1 : Int) - (v : Int)))
  match mlHint (sig.drop 3248) with
  | none => false
  | some hint =>
    let mu := shakeH (shakeH pk 64 ++ [0, 0] ++ m) 64
    let pts := mlPoints
    let inv := pts.map (fun x => mlPow x (mlQ - 2))
    let zh := z.map (fun p => mlNtt pts (p.map (fun (v : Int) => (v % (mlQ : Int)).toNat)))
    let ch := mlNtt pts (mlBall (sig.take 48))
    let w1 := (List.range 6).map (fun r =>
      let az := (List.range 5).foldl (fun a s => List.zipWith (fun x y => (x + y) % mlQ) a (List.zipWith mlMul (mlEntry rho r s) (zh.getD s [])))
        (List.replicate 256 0)
      let ct := List.zipWith mlMul ch (mlNtt pts ((t1.getD r []).map (fun v => v * 2 ^ 13)))
      let w := mlInv inv (List.zipWith (fun x y => (x + mlQ - y) % mlQ) az ct)
      mapIx (fun i v => mlUse ((hint.getD r []).contains i) v) w)
    let packed := w1.flatMap (fun p => leBytes 128 (p.foldr (fun v a => 16 * a + v) 0))
    decide (pk.length = 1952 ∧ sig.length = 3309) && z.all (fun p => p.all (fun v => decide (v.natAbs < mlG1 - 196))) &&
      decide (sig.take 48 = shakeH (mu ++ packed) 48)

end Sys2Proof.Machine
end

