-- ==== Sys2Proof/Machine/Queues.lean ====
section
/-!
DEFINITION. Machine/Queues: doorbells (R363 to R365), the claim protocol (R383 to R385), packets and their checks (R366 to
R377), starting and completing them (R367, R368), mass starts (R372), reset of a queue (R379).
-/

namespace Sys2Proof.Machine

/-! ## The claim area (R383) -/

/-- Address of a queue's QST record. -/
def State.qst (s : State) (d q : Nat) : Nat := ((s.die d).reg 0x200).toNat + 0x10080 + 32 * q

/-- OWNER of a queue: 1 + the logical core number of the agent of its home die that holds it, 0 = none (R383). -/
def State.owner (s : State) (q : Queue) : Nat :=
  match indexOf (fun (c : Nat) => decide ((s.core q.home c).serving = some q.qid)) (s.logical q.home) with
  | some i => i + 1
  | none => 0

/-- A queue's QST record as the doorbell unit and the agents leave it. -/
def State.putQst (s : State) (q : Queue) : State :=
  let a := s.qst q.home q.qid
  ((((s.homePut a 8 q.wi).homePut (a + 8) 8 q.claim).homePut (a + 16) 4 (s.owner q)).homePut (a + 20) 4 (if q.pend then 1 else 0))

/-- Virtual pages of a process read by firmware on a die: agents are in privileged mode (R277, R380, R400). -/
def State.fwRead (s : State) (d p va n : Nat) : Acc (List Byte) := s.readVirt d 0xFF p true va n

/-- A queue error (R377, R378). -/
def State.queueError (s : State) (q : Queue) (err index : Nat) : State := s.contain q.proc err (some (q.qid, index))

/-! ## Doorbells (R363, R364, R384) -/

/-- A new arrival in the claim ring of a queue's home die, when none is outstanding (R384). -/
def State.ring (s : State) (q : Queue) : State :=
  let x := s.die q.home
  if q.pend then (s.setQueue q).putQst q
  else
    let q := { q with pend := true }
    let a := (x.reg 0x200).toNat + 0x80 + 16 * (x.arrivals % 4096)
    let s := (s.homePut (a + 8) 8 q.qid).homePut a 8 ((x.arrivals + 1) % 2 ^ 64)
    let s := s.setDie q.home { s.die q.home with arrivals := x.arrivals + 1 }
    (s.setQueue q).putQst q

/-- A RESET request (R379): claiming stops, and the started packets' work and its descendants end; RESET_DONE ends it. -/
def State.resetGo (s : State) (q : Queue) : State :=
  let pk := q.staged.filter (fun p => p.started && !p.done)
  let root := fun (l : Nat) => match s.rootOf 16 l with
    | some (qi, i) => decide (qi = q.qid) && pk.any (fun p => decide (p.index = i))
    | none => false
  let gs := (s.grids.filter (fun g => root g.lseq)).map (fun g => g.lseq)
  let s := s.discard (fun l => gs.contains l) (fun j => decide (j.block = 0 ∧ j.qid = q.qid))
    (fun n => (s.pass n).any (fun p => decide (p.qid = q.qid)))
  s.setQueue { q with resetting := true, staged := [] }

/-- A doorbell write (R363, R364). Writes are dropped until the device runs, and for a QID that no queue holds. DESIGN CHOICE (log entry 41): ERR_INDEX of
BAD_DOORBELL, for which no packet has failed, is the last write index. -/
def State.doorbell (s : State) (qid : Nat) (v : DWord) : State :=
  if s.bootState ≠ 3 then s
  else match s.queue qid with
  | none => s
  | some q =>
    if bit v 63 then
      if bitsN v 8 55 ≠ 0 then (if q.state = 2 then s else s.queueError q 5 q.wi)
      else match bitsN v 0 8 with
        | 1 => if q.state = 2 then s else s.flipQcb { q with state := 1 }
        | 2 => if q.state = 1 then s.flipQcb { q with state := 0 } else s
        | 3 => s.resetGo q
        | _ => if q.state = 2 then s else s.queueError q 5 q.wi
    else if q.state = 2 then s
    else if v.toNat < q.wi ∨ q.read + 2 ^ q.log2 < v.toNat then s.queueError q 5 q.wi
    else
      let q := { q with wi := v.toNat }
      if q.state = 3 then
        let s := s.flipQcb { q with state := 0, err := 0, errIx := 0 }
        match s.queue qid with | some q => s.ring q | none => s
      else s.ring q

/-- DOORBELL_WRITE (R363). -/
def execDoorbellWrite (qid : Nat) (v : DWord) (s : State) : Res := .next (s.doorbell qid (v &&& 0x7FFFFFFFFFFFFFFF))
/-- DOORBELL_STOP (R364). -/
def execDoorbellStop (qid : Nat) (s : State) : Res := .next (s.doorbell qid 0x8000000000000001)
/-- DOORBELL_GO (R364). -/
def execDoorbellGo (qid : Nat) (s : State) : Res := .next (s.doorbell qid 0x8000000000000002)
/-- DOORBELL_RESET (R364, R379). -/
def execDoorbellReset (qid : Nat) (s : State) : Res := .next (s.doorbell qid 0x8000000000000003)

/-- A RED sum of a process holds a share of work that was ended: it is performed with the grids that go on (R379). -/
def State.endedShare (s : State) (proc : Nat) : Bool :=
  s.reds.any (fun r => decide (r.proc = proc) && r.grids.any (fun l => (s.grid l).isNone))

/-- A flush write of a process waits at a controller (R101, R306). -/
def State.flushHeld (s : State) (proc : Nat) : Bool :=
  s.dies.any (fun (p : Nat × Die) => p.2.ctls.any (fun (c : Ctl) => c.held.any (fun h => h.flush && decide (h.proc = proc))))

/-- RESET_DONE: every write of the ended work has been performed or dropped, and what was performed is visible (R379). -/
def execResetDone (qid : Nat) (s : State) : Res :=
  .next (
    match s.queue qid with
    | some q =>
      if q.resetting ∧ !s.endedShare q.proc ∧ !s.flushHeld q.proc then s.publishAll.flipQcb { q with resetting := false, read := q.wi, doneIx := q.wi, claim := q.wi, state := 3 } else s
    | none => s)

/-! ## Partitions and placement (R375, R442, R443) -/

/-- PART_k (R441). -/
def State.part (s : State) (k : Nat) : DWord := defGet 0 s.parts k

/-- Dies of the partition that owns a process; none where no partition does (R443). -/
def State.diesOf (s : State) (p : Nat) : BitVec 8 :=
  match (List.range 8).find? (fun k => let v := s.part k
      bit v 63 && decide (bitsN v 16 16 ≤ p) && decide (p ≤ bitsN v 32 16)) with
  | some k => bits (s.part k) 0 8
  | none => 0

/-- Dies of a mask, lowest first. -/
def diesIn (m : BitVec 8) : List Nat := (List.range 8).filter (fun d => m.getLsbD d)

/-- The die of a unit (R375). -/
def Place.dieOf (p : Place) (k : Nat) : Nat :=
  if p.mode = 0 then p.die
  else if p.mode = 1 then
    let ds := diesIn p.mask
    ds.getD (k * ds.length / p.units) 0
  else p.dies.getD k 0

/-- Dies that a map names. -/
def Place.named (p : Place) : List Nat :=
  if p.mode = 0 then [p.die] else if p.mode = 1 then diesIn p.mask else p.dies.eraseDups

/-- Dies that have a share of the units (R375, R437). -/
def Place.sharing (p : Place) : List Nat :=
  if p.units < p.named.length then ((List.range p.units).map p.dieOf).eraseDups else p.named

/-- What reading part of a packet answers: its value, a page fault, or the errors found (R374, R377). -/
inductive Chk (α : Type) where
  | ok (v : α)
  | fault (va level : Nat)
  | err (code : Nat)
  /-- A read was refused: the queue error FAULT. -/
  | refuse (va cause : Nat)
  deriving Repr

/-- A device read as a check. -/
def Acc.chk {α : Type} : Acc α → Chk α
  | .ok v => .ok v
  | .fault a l => .fault a l
  | .refuse a r => .refuse a r

/-- Checks in sequence. -/
def Chk.bind {α β : Type} (c : Chk α) (f : α → Chk β) : Chk β :=
  match c with
  | .ok v => f v
  | .fault a l => .fault a l
  | .err e => .err e
  | .refuse a r => .refuse a r

/-- A condition that must hold, else an error. -/
def Chk.need (c : Bool) (e : Nat) : Chk Unit := if c then .ok () else .err e

/-- A misaligned address that stands in a descriptor or record makes that descriptor bad (R373, R377). -/
def Chk.inDesc {α : Type} (c : Chk α) : Chk α := match c with | .err 2 => .err 3 | c => c

/-- Of two checks on one packet: a fault waits; of two errors the lower code stands, so that a refused read, 6, comes after an error of the
packet's parts (R377). -/
def Chk.both {α β : Type} (a : Chk α) (b : Chk β) : Chk (α × β) :=
  match a, b with
  | .ok x, .ok y => .ok (x, y)
  | .err e, .err f => .err (min e f)
  | .fault v l, _ => .fault v l
  | _, .fault v l => .fault v l
  | .err e, _ => .err e
  | _, .err e => .err e
  | .refuse v r, _ => .refuse v r
  | _, .refuse v r => .refuse v r

/-- The header of the placement map at an address (R375), its count of units in `units`; 0 = every unit on the home die. -/
def State.placeHead (s : State) (q : Queue) (va : DWord) : Chk Place :=
  if va = 0 then .ok { mode := 0, die := q.home, mask := 0, units := 0, dies := [] }
  else if va.toNat % 64 ≠ 0 then .err 4
  else (s.fwRead q.home q.proc va.toNat 16).chk.bind (fun h =>
    let w := fieldAt h 0 8
    let base : Place := { mode := w % 256, die := w / 256 % 256, mask := BitVec.ofNat 8 (w / 65536), units := fieldAt h 8 8, dies := [] }
    (Chk.need (decide (w / 2 ^ 24 = 0) && decide (base.mode ≤ 2) && (decide (base.mode ≠ 1) || decide (base.mask ≠ 0))) 4).bind (fun _ => .ok base))

/-- The dies that an EXPLICIT map lists, as many as its own count says (R375). -/
def State.placeList (s : State) (q : Queue) (va : DWord) (h : Place) : Chk Place :=
  if va = 0 ∨ h.mode ≠ 2 then .ok h
  else (Chk.need (decide (h.units < 2 ^ 32)) 4).bind (fun _ => (s.fwRead q.home q.proc (va.toNat + 16) ((h.units + 1) / 2)).chk.bind (fun bs =>
    .ok { h with dies := (List.range h.units).map (fun k => (bs.getD (k / 2) 0).toNat / 16 ^ (k % 2) % 16) }))

/-- The map's count is that of the packet's units (R375). -/
def Place.counts (h : Place) (u : Nat) : Bool := if u < 2 ^ 32 then decide (h.units = u) else decide (h.units = 2 ^ 32 - 1 ∧ h.mode < 2)

/-- The placement map at an address for what a packet describes: every check that the parts known allow, so that of several errors the lowest code
stands: the map's own, its dies in the process's partition, its count, and what the cores of its dies can hold (R375, R377, R437, R443). -/
def State.withPlace {α : Type} (s : State) (q : Queue) (va : DWord) (c : Chk α) (units : α → Nat) (fits : α → Place → Bool) : Chk (α × Place) :=
  let head := s.placeHead q va
  let list := head.bind (s.placeList q va)
  let dies := list.bind (fun p => Chk.need (decide (va = 0) || p.named.all (fun d => decide (d < 8) && (s.diesOf q.proc).getLsbD d)) 4)
  let count := (Chk.both c head).bind (fun x => Chk.need (decide (va = 0) || x.2.counts (units x.1)) 4)
  let held := (Chk.both c list).bind (fun x =>
    let p : Place := { x.2 with units := units x.1 }
    (Chk.need (fits x.1 p) 3).bind (fun _ => .ok (x.1, p)))
  (Chk.both (Chk.both dies count) held).bind (fun x => .ok x.2)

/-! ## Launch checks -/

/-- The kernel descriptor at an address, checked (R137, R377). -/
def State.readKDesc (s : State) (q : Queue) (va : DWord) : Chk KDesc :=
  if va.toNat % 128 ≠ 0 then .err 2
  else (s.fwRead q.home q.proc va.toNat 128).chk.bind (fun bs =>
    match parseKDesc bs with
    | some k => .ok k
    | none => .err 3)

/-- The process's pool could hold one block cluster when empty, as the home die's lowest enabled core reads the table (R408). -/
def State.poolFits (s : State) (d p : Nat) (k : KDesc) : Bool := s.poolHolds d ((s.logical d).headD 0) p k

/-- The process's pool could hold every block of a grid, which a mass start has resident at once (R36, R408). -/
def State.gangPool (s : State) (q : Queue) (g : Grid) : Bool :=
  decide (g.units * g.kd.cluster * poolBytes g.kd ≤ (s.handlerEntry q.home ((s.logical q.home).headD 0) q.proc).2.2)

/-- A grid of a packet or grid record, or of a mass start, `gang`, checked whole; of several errors the lowest stands (R371, R373, R377). -/
def State.readGrid (s : State) (q : Queue) (kd args place : DWord) (gx gy gz : Nat) (cls : Nat) (pin gang : Bool)
    (pre : List (Nat × Word × Word)) : Chk (Grid × Place) :=
  let grid := (s.readKDesc q kd).bind (fun k =>
    let g : Grid := { lseq := 0, proc := q.proc, kd := k, args := args, gx := gx, gy := gy, gz := gz, depth := 0, cls := cls,
                      pin := pin, origin := .packet q.qid 0, pre := pre, left := 0, start := 0 }
    (Chk.need (extentsOk k gx gy gz && s.poolFits q.home q.proc k && (!gang || s.gangPool q g)) 3).bind (fun _ => .ok g))
  s.withPlace q place grid (fun g => g.units) (fun g p => p.sharing.all (fun d => s.clusterFits d g.kd))

/-- A preload slot (R369, R370). -/
def preSlot (w : Nat) : Nat × Word × Word :=
  (w % 256, BitVec.ofInt 32 (sextN 16 (w / 65536)), BitVec.ofInt 32 (sextN 8 (w / 256)))

/-- Does a die's share of a grid fit its cores all at once when they are empty (R372): dealt as R376 deals it. -/
def State.massFits (s : State) (g : Grid) (p : Place) : Bool :=
  p.named.all (fun d =>
    let share := (List.range g.units).filter (fun u => decide (p.dieOf u = d))
    let cores := (mapIx (fun j _ => (List.range g.kd.cluster).map (fun r => s.dealCore d g.kd.cluster j r)) share).flatten
    (s.logical d).all (fun c => fitsEmpty g.kd (cores.filter (fun x => decide (x = c))).length))

/-! ## Packets (R366, R369, R373, R374) -/

/-- The packet's type. -/
def Packet.type (p : Packet) : Nat := fieldAt p.bytes 0 1

/-- An 8-byte field of the packet. -/
def Packet.q (p : Packet) (o : Nat) : DWord := BitVec.ofNat 64 (fieldAt p.bytes o 8)

/-- A header flag of the packet (R366). -/
def Packet.flag (p : Packet) (i : Nat) : Bool := bit (p.q 0) i

/-- Class the packet's HIGH selects (R29). -/
def Packet.cls (p : Packet) : Nat := if p.flag 9 then 2 else 3

/-- Bytes of a packet that a type leaves zero are zero. -/
def zeroFrom (bs : List Byte) (lo hi : Nat) : Bool := ((bs.drop lo).take (hi - lo)).all (fun b => decide (b = 0))

/-- The header's own rules (R366). -/
def headerOk (p : Packet) : Bool :=
  decide (bitsN (p.q 0) 14 50 = 0) && decide (bitsN (p.q 0) 12 2 ≠ 3) && (decide (p.type = 1) || decide (bitsN (p.q 0) 12 2 = 0)) &&
    decide ((p.q 8).toNat % 8 = 0) && decide ((p.q 16).toNat % 8 = 0)

/-- A render descriptor (R311, R312). -/
def parsePass (bs : List Byte) (fk : KDesc) (tk : Option KDesc) (ngrid dies : Nat) : Option Pass :=
  let f := fun o n => fieldAt bs o n
  let b := f 0x30 4
  let units := b / 2 ^ 24
  let dp := b / 2 ^ 16 % 256
  let vp := b / 2 ^ 8 % 256
  let smp := if bit (BitVec.ofNat 32 b) 3 then 4 else 1
  let planes := (List.range smp).map (fun i => vp + 2 * i) ++ (List.range smp).map (fun i => dp + 2 * i)
  let tw := f 0x2C 2
  let th := f 0x2E 2
  let clear := f 0x34 4
  if f 0x10 8 % 65536 = 0 ∧ f 0x18 8 % (65536 * dies) = 0 ∧ f 0x20 8 % 4096 = 0 ∧ f 0x28 4 % 4096 = 0 ∧ 8448 * units ≤ f 0x28 4 ∧
     1 ≤ tw ∧ tw ≤ 1024 ∧ 1 ≤ th ∧ th ≤ 1024 ∧ 1 ≤ units ∧ units ≤ 96 ∧ dp % 2 = 0 ∧ vp % 2 = 0 ∧ b / 64 % 4 ≠ 3 ∧ b % 8 = 0 ∧
     (clear ≤ 0x3F800000 ∨ clear = 0x80000000) ∧ f 0x38 4 < 2 ^ ngrid ∧ f 0x3C 4 = 0 ∧ zeroFrom bs 0x48 128 ∧ planes.eraseDups = planes ∧
     planes.all (fun x => decide (x + 2 ≤ units)) ∧ 64 + 8 * tw * th ≤ f 0x18 8 / dies ∧
     fk.teams = 1 ∧ fk.cluster = 1 ∧ fk.acc = 0 ∧ fk.tmem = 0 ∧ tk.all (fun k => decide (k.tmem = 8192 * units)) then
    some { lseq := 0, qid := 0, index := 0, proc := 0, cls := 3, fragK := fk, tileK := tk, arena := BitVec.ofNat 64 (f 0x10 8),
           arenaSize := f 0x18 8, spill := BitVec.ofNat 64 (f 0x20 8), stride := f 0x28 4, tw := tw, th := th, units := units,
           depthPlane := dp, visPlane := vp, cull := b / 64 % 4, greater := bit (BitVec.ofNat 32 b) 5, d24 := bit (BitVec.ofNat 32 b) 4,
           samples4 := decide (smp = 4), clear := BitVec.ofNat 32 clear, blend := BitVec.ofNat 32 (f 0x38 4),
           tileArgs := BitVec.ofNat 64 (f 0x40 8), ngrid := ngrid, grids := [],
           place := { mode := 0, die := 0, mask := 0, units := 0, dies := [] }, started := false, prims := [], used := [],
           flushing := false, final := false, segment := 0, tiles := [] }
  else none

/-- What a packet is accepted as: its grids with their placement, and the pass of a RENDER. -/
abbrev Plan := List (Grid × Place) × Option Pass

/-- Every mapped page of a range of a process lies in the capacity tier (R311); an unmapped page is judged when it is used. -/
def State.inCapacity (s : State) (d p : Nat) (va hi : Nat) : Nat → Bool
  | 0 => true
  | n + 1 =>
    if hi ≤ va then true
    else match s.walk d p va with
      | .leaf e =>
        let pa := e.pa + (va - e.va)
        (match s.target pa with | .capacity _ => true | _ => false) && s.inCapacity d p (e.va + 2 ^ e.log2) hi n
      | _ => s.inCapacity d p (va + 65536) hi n

/-- A RENDER's descriptor, records and tile map; of several errors the lowest stands (R373, R377). -/
def State.readRender (s : State) (q : Queue) (p : Packet) : Chk Plan :=
  let n := bitsN (p.q 0x30) 0 8
  (Chk.need (decide (bitsN (p.q 0x30) 8 56 = 0) && decide (p.q 0x38 = 0) && decide (1 ≤ n) && decide (n ≤ 32) &&
      decide ((p.q 0x18).toNat % 128 = 0) && decide ((p.q 0x20).toNat % 64 = 0)) 2).bind (fun _ =>
  let pass : Chk Pass := (s.fwRead q.home q.proc (p.q 0x18).toNat 128).chk.bind (fun rd =>
    let tkp := BitVec.ofNat 64 (fieldAt rd 8 8)
    (Chk.both (s.readKDesc q (BitVec.ofNat 64 (fieldAt rd 0 8))).inDesc
      (if tkp = 0 then .ok none else ((s.readKDesc q tkp).inDesc).bind (fun k => .ok (some k)))).bind (fun ft =>
      match parsePass rd ft.1 ft.2 n (diesIn s.present).length with
      | none => .err 3
      | some ps =>
        (Chk.need (s.poolFits q.home q.proc ft.1 && ft.2.all (fun k => s.poolFits q.home q.proc k) &&
            s.inCapacity q.home q.proc ps.arena.toNat (ps.arena.toNat + ps.arenaSize) (ps.arenaSize / 65536)) 3).bind (fun _ => .ok ps)))
  let record := fun (i : Nat) => (s.fwRead q.home q.proc ((p.q 0x20).toNat + 64 * i) 64).chk.bind (fun r =>
    let w := fun o => BitVec.ofNat 64 (fieldAt r o 8)
    (Chk.both (Chk.need (zeroFrom r 32 64) 3)
      (s.readGrid q (w 0) (w 8) (w 24) (fieldAt r 0x10 4) (fieldAt r 0x14 2) (fieldAt r 0x16 2) p.cls (p.flag 10) false []).inDesc).bind (fun g => .ok g.2))
  let records := (List.range n).foldl (fun (acc : Chk (List (Grid × Place))) i =>
    (Chk.both acc (record i)).bind (fun lg => .ok (lg.1 ++ [lg.2]))) (.ok [])
  (Chk.both records (s.withPlace q (p.q 0x28) pass (fun x => x.tw * x.th) (fun _ _ => true))).bind (fun x =>
    .ok (x.1, some { x.2.1 with place := x.2.2 })))

/-- The 80 to 320 bytes of the tensor descriptor of a TRANSFORM (R261, R374). -/
def State.readTDesc (s : State) (q : Queue) (va : DWord) : Acc (List Byte) :=
  match s.fwRead q.home q.proc va.toNat 64 with
  | .ok h => s.fwRead q.home q.proc va.toNat (tdescSize (fieldAt h 0x10 1))
  | e => e

/-- A packet checked at its claim (R377): its plan, a page fault, or an error. -/
def State.checkPacket (s : State) (q : Queue) (p : Packet) : Chk Plan :=
  let dies := s.diesOf q.proc
  let none_ : Plan := ([], none)
  let aligned := fun o a => decide ((p.q o).toNat % a = 0)
  if 9 ≤ p.type then .err 1
  else
    (Chk.both (Chk.both (Chk.need (headerOk p) 2) (Chk.need (dies.getLsbD q.home) 4))
      (match p.type with
       | 0 => (Chk.need (zeroFrom p.bytes 24 64) 2).bind (fun _ => .ok none_)
       | 1 =>
         (s.readGrid q (p.q 0x18) (p.q 0x20) (p.q 0x30) (fieldAt p.bytes 0x28 4) (fieldAt p.bytes 0x2C 2) (fieldAt p.bytes 0x2E 2) p.cls
            (p.flag 10) false (((List.range 2).map (fun i => preSlot (fieldAt p.bytes (0x38 + 4 * i) 4))).take (bitsN (p.q 0) 12 2))).bind
           (fun g => .ok ([g], none))
       | 2 =>
         (s.readGrid q (p.q 0x18) (p.q 0x20) (p.q 0x30) (fieldAt p.bytes 0x28 4) (fieldAt p.bytes 0x2C 2) (fieldAt p.bytes 0x2E 2) p.cls
            true true []).bind (fun g =>
              (Chk.need (s.massFits g.1 g.2) 7).bind (fun _ => .ok ([({ g.1 with start := 2 ^ 64 }, g.2)], none)))
       | 3 => s.readRender q p
       | 4 =>
         let form := bitsN (p.q 0x18) 0 2
         let d := bitsN (p.q 0x18) 4 3
         (Chk.both (Chk.need (decide (form ≠ 3) && decide (bitsN (p.q 0x18) 2 2 = 0) && decide (bitsN (p.q 0x18) 7 57 = 0) &&
             aligned 0x38 4 && decide (bitsN (p.q 0x30) 32 32 = 0) &&
             (if form = 0 then true else decide (p.q 0x28 = 0) && decide (p.q 0x30 = 0) && aligned 0x20 64)) 2)
           (Chk.both (Chk.need (dies.getLsbD d) 4)
             (if form = 1 ∨ form = 2 then
               (s.readTDesc q (p.q 0x20)).chk.bind (fun bs =>
                 let t := tdescOf bs
                 Chk.need (t.ok form && decide (t.fld 4 2 = 0) && decide (t.fld 6 2 = 0)) 3)
              else .ok ()))).bind (fun _ => .ok none_)
       | 5 => (Chk.need (aligned 0x18 8 && decide ((p.q 0x28).toNat ≤ 2) && zeroFrom p.bytes 0x30 64) 2).bind (fun _ => .ok none_)
       | 6 => (Chk.need (aligned 0x18 8 && decide ((p.q 0x28).toNat ≤ 3) && zeroFrom p.bytes 0x30 64) 2).bind (fun _ => .ok none_)
       | 7 => (Chk.need ((List.range 5).all (fun i => aligned (0x18 + 8 * i) 8)) 2).bind (fun _ => .ok none_)
       | _ => (Chk.need (aligned 0x18 16 && zeroFrom p.bytes 0x28 64) 2).bind (fun _ => .ok none_))).bind (fun x => .ok x.2)

/-! ## Claiming (R384) -/

/-- Launch numbers given at acceptance, in order (R17, R371, R373). -/
def numberGrids : Nat → List (Grid × Place) → List (Grid × Place)
  | _, [] => []
  | n, (g, p) :: rest => ({ g with lseq := n }, p) :: numberGrids (n + 1) rest

/-- A checked packet accepted: its grids numbered in order, the pass of a RENDER created after them (R17, R371, R373). -/
def State.accept (s : State) (q : Queue) (p : Packet) (plan : Plan) : State × Packet :=
  let gs := (numberGrids s.nextLseq plan.1).map (fun g => ({ g.1 with origin := .packet q.qid p.index }, g.2))
  let num := s.nextLseq + gs.length
  let p := { p with order := s.nextId }
  match plan.2 with
  | some ps =>
    let bs := mapIx (fun g (x : Grid × Place) => (({ x.1 with origin := .binning num g } : Grid), x.2)) gs
    let ps := { ps with lseq := num, qid := q.qid, index := p.index, proc := q.proc, cls := p.cls, grids := bs.map (fun (g : Grid × Place) => g.1.lseq) }
    ({ s with nextId := s.nextId + 1, nextLseq := num + 1, passes := s.passes ++ [ps] }, { p with plan := bs, pass := num })
  | none => ({ s with nextId := s.nextId + 1, nextLseq := num }, { p with plan := gs })

/-- A packet as the device has just read it. -/
def Packet.fresh (index : Nat) (bs : List Byte) : Packet :=
  { index := index, bytes := bs, started := false, done := false, plan := [], pass := 0, job := 0, mass := 0, stage := 0, clock := 0, order := 0 }

/-- One packet claimed: copied, checked, accepted; a queue error contains the process; a page fault stalls the claim. -/
def State.claimOne (s : State) (q : Queue) : Option State :=
  let i := q.claim
  match s.fwRead q.home q.proc (q.ring.toNat + 64 * (i % 2 ^ q.log2)) 64 with
  | .refuse va c => some ((s.logFw q.home q.proc va c kindRead 0).queueError q 6 i)
  | .fault va lv => some (s.devFault q.home 0xFF q.proc va kindRead lv 0)
  | .ok bs =>
    match s.checkPacket q (.fresh i bs) with
    | .fault va lv => some (s.devFault q.home 0xFF q.proc va kindRead lv 0)
    | .err e => some (s.queueError q e i)
    | .refuse va c => some ((s.logFw q.home q.proc va c kindRead 0).queueError q 6 i)
    | .ok plan =>
      let sp := s.accept q (.fresh i bs) plan
      let q := { q with claim := i + 1, staged := q.staged ++ [sp.2],
                        lseqLast := if plan.1.isEmpty then q.lseqLast else sp.1.nextLseq - 1 }
      let s := sp.1.setQueue q
      some (if plan.1.isEmpty then s.putQst q else (s.flipQcb q).putQst q)

/-- Every packet below WI claimed, as long as claiming goes on (R384); fuel counts packets. -/
def State.claimAll (s : State) (qid : Nat) : Nat → State
  | 0 => s
  | n + 1 =>
    match s.queue qid with
    | none => s
    | some q =>
      if q.state ≠ 0 ∨ q.resetting ∨ q.wi ≤ q.claim then s
      else match s.claimOne q with
        | none => s
        | some s' =>
          (match s'.queue qid with
           | some q' => if q'.claim = q.claim then s' else s'.claimAll qid n
           | none => s')

/-- An agent leaves the inner loop of R384: it goes on under the newest image (R392). -/
def State.leaveLoop (s : State) (d c : Nat) : State :=
  let k := s.core d c
  if k.image = s.fwSel then s
  else
    let at_ := fun (th : Thread) => { th with pc := bits s.fwEntry 0 57, hdr := bits s.fwEntry 0 57 }
    (s.setCore d c { k with image := s.fwSel }).mapTeams (fun t =>
      if t.agent ∧ t.die = d ∧ t.core = c then { t with threads := t.threads.map at_ } else t)

/-- The agent of a core serves the queue that it holds: it claims while the queue runs, releases OWNER, and leaves the inner loop once the write index
is not above CLAIM; else it tries the CAS again, and goes on when the queue runs again (R384). DEDUCED (log entry 63): while it tries, it is taken to
hold the queue, so that another agent's CAS fails. A page fault leaves it at the packet (R374). -/
def State.serve (s : State) (d c qid : Nat) : State :=
  let s := match s.queue qid with | some q => s.claimAll qid (q.wi - q.claim) | none => s
  let free := fun (s : State) => (s.setCore d c { s.core d c with serving := none })
  match s.queue qid with
  | some q => if q.claim < q.wi then s else ((free s).putQst q).leaveLoop d c
  | none => (free s).leaveLoop d c

/-- A ticket's arrival, once it is written: the queue that rang is no longer pending, and the agent serves it unless another holds it
(R384, R385). -/
def State.arrivalAt (s : State) (d c n : Nat) : State :=
  let a := ((s.die d).reg 0x200).toNat + 0x80 + 16 * (n % 4096)
  if s.homeNum a 8 ≠ n + 1 then s
  else
    let s := s.setCore d c { s.core d c with ticket := none }
    match s.queue (s.homeNum (a + 8) 8) with
    | none => s
    | some q =>
      let q := { q with pend := false }
      let s := (s.setQueue q).putQst q
      if s.owner q ≠ 0 then s
      else ((s.setCore d c { s.core d c with serving := some q.qid }).putQst q).serve d c q.qid

/-- CLAIM_ENTRY: the agent of a core takes the next part of the loop of R384: it goes on with the queue that it holds, or draws a ticket where
it has none, and serves the queue that rang once the ticket's arrival is written. What a disabled agent held, the lead agent goes
on with in its place (R381, R386, log entry 63). An agent that a partition stop froze does nothing (R426). -/
def execClaimEntry (die core : Nat) (s : State) : Res :=
  let k := s.core die core
  .next (
    if s.bootState ≠ 3 ∨ !s.enabled die core ∨ !s.agentActs die core then s
    else match k.serving, k.ticket with
      | some qid, _ => s.serve die core qid
      | none, some n => s.arrivalAt die core n
      | none, none =>
        if k.dead then s
        else
          let base := ((s.die die).reg 0x200).toNat
          let n := s.homeNum base 8
          let s := s.homePut base 8 (n + 1)
          (s.setCore die core { s.core die core with ticket := some n }).arrivalAt die core n)

/-! ## Starting and completing (R367, R368) -/

/-- The signal at an address (R366), read at .sy; `none` when the page faults or is refused. -/
def State.signal (s : State) (q : Queue) (va : DWord) : Acc Int :=
  match s.fwRead q.home q.proc va.toNat 8 with
  | .ok bs => .ok (sextN 64 (ofLeBytes bs))
  | .fault a l => .fault a l
  | .refuse a r => .refuse a r

/-- A signal written at .sy. -/
def State.putSignal (s : State) (q : Queue) (va : DWord) (v : Int) : Acc State :=
  s.writeVirt q.home 0xFF q.proc true va.toNat (leBytes 8 (BitVec.ofInt 64 v).toNat)

/-- Conditions on signals that a packet waits on, each an address and a test. -/
def Packet.waits (p : Packet) : List (DWord × (Int → Bool)) :=
  (if p.q 8 = 0 then [] else [(p.q 8, fun v => decide (v ≤ 0))]) ++
  (match p.type with
   | 6 =>
     let w := (p.q 0x20).toInt
     [(p.q 0x18, fun v => match (p.q 0x28).toNat with
        | 0 => decide (v = w) | 1 => decide (v ≠ w) | 2 => decide (v < w) | _ => decide (w ≤ v))]
   | 7 => ((List.range 5).map (fun i => p.q (0x18 + 8 * i))).filterMap (fun a => if a = 0 then none else some (a, fun v => decide (v = 0)))
   | _ => [])

/-- The packet of a queue that would start next. -/
def Queue.head (q : Queue) : Option Packet := q.staged.find? (fun p => !p.started)

/-- Every packet of the queue below an index has completed. -/
def Queue.doneBelow (q : Queue) (i : Nat) : Bool := q.staged.all (fun p => decide (i ≤ p.index) || p.done) && decide (i ≤ q.claim)

/-- A staged packet replaced. -/
def Queue.put (q : Queue) (p : Packet) : Queue := { q with staged := q.staged.map (fun x => if x.index = p.index then p else x) }

/-- The number of grids of a plan that have an extent of zero. -/
def Grid.isEmpty (g : Grid) : Bool := decide (g.gx = 0 ∨ g.gy = 0 ∨ g.gz = 0)

/-- The start condition on signals and order (R367): met, not met, a page fault, a refusal. -/
def State.canStart (s : State) (q : Queue) (p : Packet) : Acc Bool :=
  if p.flag 8 && !q.doneBelow p.index then .ok false
  else p.waits.foldl (fun (acc : Acc Bool) w =>
    match acc with
    | .ok true =>
      (match s.signal q w.1 with
       | .ok v => .ok (w.2 v)
       | .fault a l => .fault a l
       | .refuse a r => .refuse a r)
    | x => x) (.ok true)

/-- The blocks of a packet's grids dealt. -/
def State.startGrids (s : State) (gs : List (Grid × Place)) : State :=
  gs.foldl (fun s g => if g.1.isEmpty then s else s.launch g.1 g.2.dieOf) s

/-- What starting or logging a packet comes to: the state and the packet, a page fault on a die that it waits on, or a refused access; each with the kind
of access (R402, R405). -/
inductive Begun where
  | ok (s : State) (p : Packet)
  | fault (die va level kind : Nat)
  | refuse (die va cause kind : Nat)

/-- An access of a kind by firmware of a die, and what goes on from it. -/
def Acc.begun {α : Type} (a : Acc α) (d kind : Nat) (f : α → Begun) : Begun :=
  match a with
  | .ok v => f v
  | .fault va lv => .fault d va lv kind
  | .refuse va c => .refuse d va c kind

/-- The work of a packet begun (R371 to R374). -/
def State.beginWork (s : State) (q : Queue) (p : Packet) : Begun :=
  let now := (s.die q.home).rclk
  match p.type with
  | 1 => .ok (s.startGrids p.plan) p
  | 2 => .ok s { p with stage := if p.plan.all (fun g => g.1.isEmpty) then 3 else 1, mass := (p.q 0x38).toNat }
  | 3 =>
    let s := s.startGrids p.plan
    .ok { s with passes := s.passes.map (fun x => if x.lseq = p.pass then { x with started := true } else x) } p
  | 4 =>
    let form := bitsN (p.q 0x18) 0 2
    let j : Job := { id := s.nextId, proc := q.proc, die := bitsN (p.q 0x18) 4 3, core := 0xFF, priv := true, pc := 0, block := 0, tag := 0,
                     qid := q.qid, index := p.index, stat := p.q 0x38, form := form, ssp := 0, dsp := 0, src := p.q 0x20,
                     dst := p.q 0x28, len := fieldAt p.bytes 0x30 4, desc := [], misdesc := false, waits := [], refuse := false }
    if form = 0 then .ok { s with nextId := s.nextId + 1, jobs := s.jobs ++ [j] } { p with job := j.id }
    else (s.readTDesc q (p.q 0x20)).begun q.home kindRead (fun bs =>
      .ok { s with nextId := s.nextId + 1, jobs := s.jobs ++ [{ j with desc := bs, src := 0, misdesc := decide ((p.q 0x20).toNat % 64 ≠ 0) }] }
        { p with job := j.id })
  | 5 => (s.signal q (p.q 0x18)).begun q.home kindRead (fun v =>
      let w := (p.q 0x20).toInt
      let n := match (p.q 0x28).toNat with | 0 => w | 1 => v + w | _ => v - w
      (s.putSignal q (p.q 0x18) n).begun q.home kindWrite (fun s => .ok s p))
  | 8 => (s.writeVirt q.home 0xFF q.proc true (p.q 0x18).toNat (wordsBytes [now.toNat, (p.q 0x20).toNat])).begun q.home kindWrite (fun s =>
      .ok s { p with clock := now })
  | _ => .ok s p

/-- CRC-64/XZ (R431): one byte. -/
def crcByte (c : BitVec 64) (b : Byte) : BitVec 64 :=
  (List.range 8).foldl (fun c _ => if bit c 0 then (c >>> 1) ^^^ 0xC96C5795D7870F42 else c >>> 1) (c ^^^ b.setWidth 64)

/-- CRC-64/XZ of bytes (R431). -/
def crc64 (bs : List Byte) : BitVec 64 := ~~~ (bs.foldl crcByte (BitVec.allOnes 64))

/-- The ranges of the rerun area (R431). -/
def State.rerunRanges (s : State) (p : Nat) : Acc (List (Nat × Nat)) :=
  match s.fwRead 0 p ((defGet 0 s.csr 0x581).toNat + 0x40) 128 with
  | .ok bs => .ok (((List.range 8).map (fun k => (fieldAt bs (16 * k) 8, fieldAt bs (16 * k + 8) 8))).filter (fun r => decide (r.2 ≠ 0)))
  | .fault a l => .fault a l
  | .refuse a r => .refuse a r

/-- The bytes of the ranges, in order. -/
def State.rangeBytes (s : State) (p : Nat) (rs : List (Nat × Nat)) : Acc (List Byte) :=
  rs.foldl (fun a r =>
    match a with
    | .ok l =>
      (match s.fwRead 0 p r.1 r.2 with
       | .ok b => .ok (l ++ b)
       | e => e)
    | e => e) (.ok [])

/-- A process whose packets rerun logging or replay runs one at a time (R431). -/
def State.serial (s : State) (p : Nat) : Bool :=
  decide (s.rerun.mode = 1 ∨ s.rerun.mode = 2) && decide (bitsN (defGet 0 s.csr 0x580) 32 16 = p)

/-- Another packet of the process has started and not completed. -/
def State.runningPacket (s : State) (p : Nat) : Bool :=
  s.queues.any (fun q => decide (q.proc = p) && q.staged.any (fun k => k.started && !k.done))

/-- A packet that rerun holds back (R431): another packet of the process runs; a capture starts them in claim order; while logged
packets run again, a packet that has not been one of them waits. -/
def State.rerunHolds (s : State) (q : Queue) (p : Packet) : Bool :=
  s.serial q.proc && (s.runningPacket q.proc ||
    (decide (s.rerun.mode = 1) && s.queues.any (fun x => decide (x.proc = q.proc) && x.staged.any (fun k => !k.started && decide (k.order < p.order)))) ||
    (decide (s.rerun.mode = 2) && decide (q.doneIx ≤ p.index)))

/-- A started packet logged (R431): packet, QID, index, checksum to come; FULL once the log is full. A packet whose log page faults does not start until it
is logged. -/
def State.rerunLog (s : State) (q : Queue) (p : Packet) : Begun :=
  if s.rerun.mode ≠ 1 ∨ !s.serial q.proc then .ok s p
  else
    let base := (defGet 0 s.csr 0x581).toNat
    (s.fwRead 0 q.proc base 32).begun 0 kindRead (fun h =>
      let n := s.rerun.count
      let full := fun (s : State) (n : Nat) =>
        if fieldAt h 24 8 ≤ n then { s with csr := defSet 0 s.csr 0x582 (defGet 0 s.csr 0x582 ||| 2) } else s
      if fieldAt h 24 8 ≤ n then .ok (full s n) p
      else
        (s.writeVirt 0 0xFF q.proc true (fieldAt h 16 8 + 128 * n) (p.bytes ++ wordsBytes ([q.qid, p.index] ++ List.replicate 6 0))).begun 0 kindWrite (fun s =>
          (s.writeVirt 0 0xFF q.proc true base (wordsBytes [n + 1])).begun 0 kindWrite (fun s =>
            .ok (full { s with rerun := { s.rerun with count := n + 1 } } (n + 1)) p)))

/-- An agent of a die stands in no partition stop: what firmware does there goes on (R380, R426). -/
def State.dieActs (s : State) (d : Nat) : Bool := (s.logical d).any (s.agentActs d)

/-- The head packet of a queue starts when its conditions hold and its type is the one named (R367). -/
def State.startHead (s : State) (qid : Nat) (types : List Nat) : State :=
  match s.queue qid with
  | none => s
  | some q =>
    if q.state = 2 ∨ q.resetting ∨ !s.dieActs q.home then s
    else match q.head with
    | none => s
    | some p =>
      if !types.contains p.type ∨ s.rerunHolds q p then s
      else match s.canStart q p with
        | .fault va lv => s.devFault q.home 0xFF q.proc va kindRead lv 0
        | .refuse va c => (s.logFw q.home q.proc va c kindRead 0).queueError q 6 p.index
        | .ok false => s
        | .ok true =>
          (match s.beginWork q p with
           | .fault d va lv kind => s.devFault d 0xFF q.proc va kind lv 0
           | .refuse d va c kind => (s.logFw d q.proc va c kind 0).queueError q 6 p.index
           | .ok u p =>
             let q := { (q.put { p with started := true }) with read := max q.read (p.index + 1) }
             (match u.rerunLog q p with
              | .ok u _ => u.flipQcb q
              | .fault d va lv kind => s.devFault d 0xFF q.proc va kind lv 0
              | .refuse d va c kind => (u.logFw d q.proc va c kind 0).flipQcb q))

/-- DEP_REEVALUATE: the agents evaluate again what the head packet waits on (R367). -/
def execDepReevaluate (qid : Nat) (s : State) : Res := .next (s.startHead qid [0, 1, 2, 3, 4, 5, 6, 7, 8])
/-- PACKET_NOP (R374). -/
def execPacketNop (qid : Nat) (s : State) : Res := .next (s.startHead qid [0])
/-- PACKET_KERNEL (R371). -/
def execPacketKernel (qid : Nat) (s : State) : Res := .next (s.startHead qid [1])
/-- PACKET_MASS (R372). -/
def execPacketMass (qid : Nat) (s : State) : Res := .next (s.startHead qid [2])
/-- PACKET_RENDER (R373). -/
def execPacketRender (qid : Nat) (s : State) : Res := .next (s.startHead qid [3])
/-- PACKET_TRANSFORM (R374). -/
def execPacketTransform (qid : Nat) (s : State) : Res := .next (s.startHead qid [4])
/-- PACKET_SIGNAL (R374). -/
def execPacketSignal (qid : Nat) (s : State) : Res := .next (s.startHead qid [5])
/-- PACKET_WAIT (R374). -/
def execPacketWait (qid : Nat) (s : State) : Res := .next (s.startHead qid [6])
/-- PACKET_BARRIER_AND (R374). -/
def execPacketBarrierAnd (qid : Nat) (s : State) : Res := .next (s.startHead qid [7])
/-- PACKET_MARKER (R374). -/
def execPacketMarker (qid : Nat) (s : State) : Res := .next (s.startHead qid [8])

/-! ## Mass starts (R372) -/

/-- A started MASS packet at a stage. -/
def State.massAt (s : State) (qid index stage : Nat) : Option (Queue × Packet) :=
  match s.queue qid with
  | some q => (match q.staged.find? (fun p => decide (p.index = index ∧ p.stage = stage ∧ p.type = 2) && p.started) with
      | some p => some (q, p)
      | none => none)
  | none => none

/-- An older mass start has not started: mass starts reserve one at a time, in launch order. -/
def State.massBefore (s : State) (lseq : Nat) : Bool :=
  s.queues.any (fun q => q.staged.any (fun p =>
    decide (p.type = 2 ∧ 0 < p.stage ∧ p.stage < 3) && p.plan.any (fun g => decide (g.1.lseq < lseq))))

/-- A mass start whose turn it is to reserve holds what frees on the dies of its share: only firmware is admitted there (R372 step 3). -/
def State.reserving (s : State) (d : Nat) : Bool :=
  s.queues.any (fun q => q.staged.any (fun p => decide (p.type = 2 ∧ p.stage = 1) && p.started &&
    p.plan.any (fun g => g.2.sharing.contains d && !s.massBefore g.1.lseq)))

/-- Every block of a grid admitted on the core that the deal gives it: the whole gang or nothing. -/
def State.admitGang (s : State) (g : Grid) (p : Place) : Nat → Nat → List (Nat × Nat) → Admit
  | 0, _, _ => .ok s
  | n + 1, u, seen =>
    let d := p.dieOf u
    let j := defGet 0 seen d
    let one := (List.range g.kd.cluster).foldl (fun (a : Admit) r =>
      match a with
      | .ok s => s.admitBlock g (g.linearOf u r) d (s.dealCore d g.kd.cluster j r) 0
      | x => x) (.ok s)
    match one with
    | .ok s => s.admitGang g p n (u + 1) (tabSet seen d (j + 1))
    | x => x

/-- How many blocks of a gang the deal puts on each core: 64 times the die plus the core, and the number. -/
def State.gangLoad (s : State) (g : Grid) (p : Place) : List (Nat × Nat) :=
  ((List.range g.units).foldl (fun (a : List (Nat × Nat) × List (Nat × Nat)) u =>
    let d := p.dieOf u
    let j := defGet 0 a.1 d
    (tabSet a.1 d (j + 1), (List.range g.kd.cluster).foldl (fun t r =>
      let k := 64 * d + s.dealCore d g.kd.cluster j r
      tabSet t k (defGet 0 t k + 1)) a.2)) ([], [])).2

/-- A gang that does not fit: a bank is changed for it where one can be, a change under way on its cores is waited for, else resident work makes
room (R294, R372 step 3). -/
def State.gangRoom (s : State) (g : Grid) (pl : Place) : State :=
  let load := s.gangLoad g pl
  let change := fun (x : Nat × Nat) =>
    (s.bankChange (x.1 / 64) (x.1 % 64) (x.2 * ceilDiv g.kd.scratch 256) (x.2 * (g.kd.tmem / 8192)) (x.2 * g.kd.fifo)).map (fun b => (x.1, b))
  match load.findSome? change with
  | some (k, b, m) => s.bankGo (k / 64) (k % 64) b m
  | none =>
    if load.any (fun x => decide ((s.core (x.1 / 64) (x.1 % 64)).banking ≠ [])) then s
    else s.makeRoom (fun b => pl.named.contains b.die) 2 (fun b => (s.massOf b.grid).isNone &&
      (match s.grid b.grid with | some h => decide (g.cls ≤ h.cls) | none => false))

/-- MASS_RESERVED: every die has reserved its whole share in time: the launch commits to S; without room, firmware pre-empts the
youngest unit of the same or a lower class (R372). -/
def execMassReserved (qid index : Nat) (s : State) : Res :=
  .next (
    match s.massAt qid index 1 with
    | none =>
      -- one that was pre-empted starts again at a new count once all of it is back (R372)
      (match s.massAt qid index 4 with
       | some (q, p) =>
         if s.blocks.all (fun b => decide (b.run = .resident) || p.plan.all (fun g => decide (g.1.lseq ≠ b.grid))) then
           let at_ := (s.die q.home).rclk.toNat + 4096
           let mine := fun (l : Nat) => p.plan.any (fun g => decide (g.1.lseq = l))
           let ids := (s.blocks.filter (fun b => mine b.grid)).map (fun b => b.id)
           let s := { s with grids := s.grids.map (fun (g : Grid) => if mine g.lseq then { g with start := at_ } else g) }
           (s.mapTeams (fun t => if ids.contains t.block then { t with begun := false } else t)).setQueue (q.put { p with stage := 2, mass := at_ })
         else s
       | none => s)
    | some (q, p) =>
      (match p.plan with
       | (g, pl) :: _ =>
         let now := (s.die q.home).rclk.toNat
         let start := if p.mass = 0 then now + 4096 else p.mass
         if s.massBefore g.lseq ∨ start < now + 1024 then s
         else
           let n := g.units * g.kd.cluster
           let s1 := { s with grids := s.grids ++ [{ g with left := n, start := start }] }
           (match s1.admitGang { g with left := n, start := start } pl g.units 0 [] with
            | .ok s => s.setQueue (q.put { p with stage := 2, mass := start })
            | .fault va lv => s.devFault q.home 0xFF q.proc va kindWrite lv 0
            | .refuse va c => (s.logFw q.home q.proc va c kindWrite 0).queueError q 6 p.index
            | .wait => s.gangRoom g pl)
       | [] => s.setQueue (q.put { p with stage := 3 })))

/-- MASS_COMMIT_DEADLINE: some die has not reserved by S − 1024: every reservation is released, and S moves on by 2^20 (R372). -/
def execMassCommitDeadline (qid index : Nat) (s : State) : Res :=
  .next (
    match s.massAt qid index 1 with
    | none => s
    | some (q, p) =>
      if p.mass ≠ 0 ∧ p.mass < (s.die q.home).rclk.toNat + 1024 then s.setQueue (q.put { p with mass := p.mass + 2 ^ 20 }) else s)

/-- MASS_START: the count S has come on the home die: the launch has started; on each die its teams may issue from the die's own count S
(R372). -/
def execMassStart (qid index : Nat) (s : State) : Res :=
  .next (
    match s.massAt qid index 2 with
    | none => s
    | some (q, p) =>
      if p.mass ≤ (s.die q.home).rclk.toNat then s.setQueue (q.put { p with stage := 3 }) else s)

/-! ## Completion (R368) -/

/-- The work of a started packet has ended (R369 to R374). -/
def State.workEnded (s : State) (q : Queue) (p : Packet) : Bool :=
  p.started && !p.done && p.plan.all (fun g => (s.grid g.1.lseq).isNone) &&
    (decide (p.job = 0) || s.jobs.all (fun j => decide (j.id ≠ p.job))) &&
    (decide (p.pass = 0) || (s.pass p.pass).isNone) && (decide (p.type ≠ 2) || decide (p.stage = 3) || p.plan.all (fun g => g.1.isEmpty)) &&
    (!p.plan.any (fun g => g.1.isEmpty) || q.doneBelow p.index)

/-- The checksum of a logged packet, written after its completion or compared in a rerun (R431). -/
def State.rerunCheck (s : State) (q : Queue) (p : Packet) : Begun :=
  if !s.serial q.proc then .ok s p
  else
    let base := (defGet 0 s.csr 0x581).toNat
    let read := fun {α : Type} (a : Acc α) (f : α → Begun) => a.begun 0 kindRead f
    read (s.rerunRanges q.proc) (fun rs => read (s.fwRead 0 q.proc base 32) (fun h =>
      let n := s.rerun.count - 1
      let entry := fieldAt h 16 8 + 128 * n
      read (s.rangeBytes q.proc rs) (fun bytes => read (s.fwRead 0 q.proc entry 88) (fun e =>
         let sum := (crc64 bytes).toNat
         if s.rerun.count = 0 ∨ fieldAt e 64 8 ≠ q.qid ∨ fieldAt e 72 8 ≠ p.index then .ok s p
         else if s.rerun.mode = 1 then (s.writeVirt 0 0xFF q.proc true (entry + 80) (wordsBytes [sum])).begun 0 kindWrite (fun s => .ok s p)
         else if fieldAt e 80 8 = sum then .ok s p
         else .ok { s with csr := defSet 0 s.csr 0x582 (BitVec.ofNat 64 (n * 2 ^ 32 + 4)), rerun := { mode := 3, count := 0 } } p))))

/-- PACKET_COMPLETE: everything is visible at .sy, the signal DONE falls by one, DONE_INDEX advances and the interrupt is raised
(R368); a mass or render packet's records leave the staging area. A page of the rerun area that faults is waited for with the completion; one that is
refused leaves the checksum out (R402, R405, R431). -/
def execPacketComplete (qid index : Nat) (s : State) : Res :=
  .next (
    match s.queue qid with
    | none => s
    | some q =>
      (match q.staged.find? (fun p => decide (p.index = index)) with
       | none => s
       | some p =>
         if !s.workEnded q p then s
         else
           let s0 := s
           let s := s.publishAll
           let finish := fun (s : State) =>
             let q := q.put { p with done := true }
             let gone := q.staged.takeWhile (fun k => k.done)
             -- a packet that a rerun started again was counted when it first completed (R431)
             let q := { q with doneIx := q.doneIx + (gone.filter (fun k => decide (q.doneIx ≤ k.index))).length, staged := q.staged.drop gone.length }
             let s := s.flipQcb q
             if p.flag 11 then s.irq q.vec else s
           let after := fun (s : State) => match s.rerunCheck q p with
             | .ok s _ => finish s
             | .fault d va lv kind => s0.devFault d 0xFF q.proc va kind lv 0
             | .refuse d va c kind => finish (s.logFw d q.proc va c kind 0)
           if p.q 16 = 0 then after s
           else match s.signal q (p.q 16) with
             | .ok v =>
               (match s.putSignal q (p.q 16) (v - 1) with
                | .ok s => after s
                | .fault va lv => s.devFault q.home 0xFF q.proc va kindWrite lv 0
                | .refuse va c => (s.logFw q.home q.proc va c kindWrite 0).queueError q 6 p.index)
             | .fault va lv => s.devFault q.home 0xFF q.proc va kindRead lv 0
             | .refuse va c => (s.logFw q.home q.proc va c kindRead 0).queueError q 6 p.index))

/-! ## Rerun (R431) -/

/-- What firmware does for rerun: with its page fault recorded it tries again; a refused access is entered in the violation log and ends the capture or the
run, with BUSY fallen (R402, R405, R431, log entry 45). -/
def State.rrTry {α : Type} (s : State) (p kind : Nat) (a : Acc α) (f : α → State) : State :=
  match a with
  | .ok v => f v
  | .fault va lv => s.devFault 0 0xFF p va kind lv 0
  | .refuse va c =>
    let s := s.logFw 0 p va c kind 0
    { s with rerun := { mode := 3, count := 0 }, csr := defSet 0 s.csr 0x582 (defGet 0 s.csr 0x582 &&& 0xFFFFFFFFFFFFFFFE) }

/-- RR_CAP: CAP rises once no packet of PROC runs: the ranges are copied to SNAP and logging begins with an empty log. -/
def execRrCap (s : State) : Res :=
  let p := bitsN (defGet 0 s.csr 0x580) 32 16
  let base := (defGet 0 s.csr 0x581).toNat
  .next (
    if !bit (defGet 0 s.csr 0x580) 0 ∨ s.rerun.mode ≠ 0 ∨ s.runningPacket p then s
    else
      s.rrTry p kindRead (s.rerunRanges p) (fun rs => s.rrTry p kindRead (s.fwRead 0 p base 32) (fun h =>
        s.rrTry p kindRead (s.rangeBytes p rs) (fun bytes => s.rrTry p kindWrite (s.writeVirt 0 0xFF p true (fieldAt h 8 8) bytes) (fun u =>
          s.rrTry p kindWrite (u.writeVirt 0 0xFF p true base (wordsBytes [0])) (fun v => { v with rerun := { mode := 1, count := 0 } }))))))

/-- The ranges restored from the snapshot, from an offset in it on. -/
def State.rrRestore (s : State) (p snap : Nat) (f : State → State) : List (Nat × Nat) → State
  | [] => f s
  | r :: rs => s.rrTry p kindRead (s.fwRead 0 p snap r.2) (fun b =>
      s.rrTry p kindWrite (s.writeVirt 0 0xFF p true r.1 b) (fun u => u.rrRestore p (snap + r.2) f rs))

/-- The end of a rerun: BUSY falls. -/
def State.rrEnd (s : State) : State :=
  { s with rerun := { mode := 3, count := 0 }, csr := defSet 0 s.csr 0x582 (defGet 0 s.csr 0x582 &&& 0xFFFFFFFFFFFFFFFE) }

/-- The logged packet of number k put at the head of its queue, to be started next; the run ends where its queue is gone. -/
def State.rrNext (s : State) (p k log : Nat) : State :=
  s.rrTry p kindRead (s.fwRead 0 p (log + 128 * k) 80) (fun b =>
    match s.queue (fieldAt b 64 8) with
     | some q =>
       let pk := Packet.fresh (fieldAt b 72 8) (b.take 64)
       (match s.checkPacket q pk with
        | .ok plan =>
          let sp := s.accept q pk plan
          { sp.1.setQueue { q with staged := sp.2 :: q.staged } with
              rerun := { mode := 2, count := k + 1 }, csr := defSet 0 s.csr 0x582 (defGet 0 s.csr 0x582 ||| 1) }
        | .fault va lv => s.devFault q.home 0xFF q.proc va kindRead lv 0
        | .err e => s.queueError q e pk.index
        | .refuse va c => (s.logFw q.home q.proc va c kindRead 0).queueError q 6 pk.index)
     | none => s.rrEnd)

/-- RR_RUN: the ranges are restored from SNAP and the logged packets are started again in log order, one at a time. -/
def execRrRun (s : State) : Res :=
  let p := bitsN (defGet 0 s.csr 0x580) 32 16
  .next (
    if (s.rerun.mode ≠ 0 ∧ s.rerun.mode ≠ 2) ∨ !bit (defGet 0 s.csr 0x580) 1 ∨ bit (defGet 0 s.csr 0x580) 0 ∨ s.runningPacket p ∨
        s.queues.any (fun q => decide (q.proc = p) && q.staged.any (fun k => !k.started && decide (k.index < q.doneIx))) then s
    else
      s.rrTry p kindRead (s.rerunRanges p) (fun rs => s.rrTry p kindRead (s.fwRead 0 p (defGet 0 s.csr 0x581).toNat 32) (fun h =>
        if s.rerun.mode = 2 then (if s.rerun.count = fieldAt h 0 8 then s.rrEnd else s.rrNext p s.rerun.count (fieldAt h 16 8))
        else
          s.rrRestore p (fieldAt h 8 8) (fun u =>
            let u := { u with csr := defSet 0 u.csr 0x582 (defGet 0 u.csr 0x582 &&& 2) }
            if fieldAt h 0 8 = 0 then u.rrEnd else u.rrNext p 0 (fieldAt h 16 8)) rs)))

end Sys2Proof.Machine
end

