-- ==== Sys2Proof/Machine/Firmware.lean ====
section
/-!
DEFINITION. Machine/Firmware: reset and boot (R390 to R394), the service ring (R388), format-range registers (R308), the
watchdog (R386, R387), bank modes (R291, R293, R389), admission of blocks (R18, R19, R376), room for children (R37).
-/

namespace Sys2Proof.Machine

/-! ## Reset and boot (R2, R393, R394) -/

/-- Base of the firmware's areas in a die's memory: image slots at 0 and 64 MiB of die 0, the claim area at 128 MiB of each
die (log entry 15). -/
def slotAddr (slot : Nat) : Nat := slot * 0x4000000
def claimAddr (d : Nat) : Nat := d * 2 ^ 40 + 0x8000000

/-- Context image of a core's agent, in firmware memory of die 0 (R380, R393; log entry 15): 16 KiB each, its journal after it. -/
def agentImage (d c : Nat) : Nat := 0x8100000 + 0x4000 * (64 * d + c)

/-- What a full power cycle leaves: straps, fuses and host memory (R393, R394). -/
def State.cold (s : State) : State :=
  { State.reset with
    present := s.present, host4 := s.host4, form := s.form, harvest := s.harvest, memCfg := s.memCfg, memFails := s.memFails, fuses := s.fuses
    csr := [(0x400, 0xA), (0x409, BitVec.ofNat 64 (Config.formLimit s.form * (if s.form = 0 then (diesIn s.present).length else 1)))]
    mem := s.mem.filter (fun p => decide (0x8000000000000 ≤ p.1 ∧ p.1 < 0xC000000000000)) }

/-- POWER_ON_RESET: the device as after reset; with die 0 present the ROM trains links and memories, and STATE becomes WAIT, or MEMFAIL where
die 0's memory fails (R393). -/
def execPowerOnReset (s : State) : Res :=
  .next (let s := { s.cold with agenda := s.agenda, fresh := s.fresh }; if s.hasDie 0 then { s with bootState := if s.memFails then 5 else 1 } else s)

/-- A GO in BOOT_CTL (R393): only in WAIT or REFUSED. -/
def State.bootGo (s : State) : State := if s.bootState = 1 ∨ s.bootState = 4 then { s with bootState := 2, bootReason := 0 } else s

/-- BOOT_GO (R393). -/
def execBootGo (s : State) : Res := .next s.bootGo

/-- The rollback floor: the value of the highest-numbered programmed slot whose copies agree (R394). -/
def State.floor (s : State) : DWord := ((s.fuses.filter (fun f => decide (f.1 = f.2))).getLastD (0, 0)).1

/-- The trailer of an image after its signed bytes: Ed25519 key, ML-DSA-65 key, Ed25519 signature, ML-DSA-65 signature (R390). -/
def trailerOf (m : List Byte) (n : Nat) : List Byte × List Byte × List Byte × List Byte :=
  let t := m.drop n
  (t.take 32, (t.drop 32).take 1952, (t.drop 1984).take 64, (t.drop 2048).take 3309)

/-- The checks of R391 on an image, the reason code of R393 for the first that fails; 0 = every check passes. -/
def State.checkImage (s : State) (m : List Byte) : Nat :=
  let f := fun o n => fieldAt m o n
  if m.length < 128 + 5357 then 7
  else if f 0 4 ≠ 0x57465641 ∨ f 4 4 ≠ 1 ∨ f 0x10 4 % 128 ≠ 0 ∨ f 0x18 4 % 8 ≠ 0 ∨ f 0x14 4 ≤ f 0x18 4 ∨ f 0x1C 4 % 128 ≠ 0 ∨
     f 0x1C 4 < f 0x10 4 + f 0x14 4 ∨ ¬ zeroFrom m 0x20 0x80 then 1
  else if m.length ≠ f 0x1C 4 + 5357 then 7
  else
    let signed := m.take (f 0x1C 4)
    let (edPk, mlPk, sigEd, sigMl) := trailerOf m (f 0x1C 4)
    if sha384 (edPk ++ mlPk) ≠ Config.keyDigest then 2
    else if !edVerify edPk signed sigEd then 3
    else if !mlVerify mlPk signed sigMl then 4
    else if f 8 8 < s.floor.toNat then 5
    else 0

/-- One pacer agent started on an enabled core, its watchdog counting from now (R380, R386). -/
def State.startAgent (s : State) (d c : Nat) : State :=
  let s := s.setCore d c { s.core d c with lastKick := (s.die d).rclk.toNat, image := s.fwSel }
  let t := { Team.reset with
    id := s.nextId, image := BitVec.ofNat 64 (agentImage d c), agent := true, die := d, core := c, part := 0, sec := 7, cls := 0, home := 0, priv := true, width := 8
    threads := List.replicate 8 { Thread.reset with pc := bits s.fwEntry 0 57, hdr := bits s.fwEntry 0 57 } }
  { s with nextId := s.nextId + 1, teams := s.teams ++ [t] }

/-- The claim area of a die at its reset values (R383): entry n of the ring holds ESEQ n. -/
def State.initClaim (s : State) (d : Nat) : State :=
  let s := s.setDie d ((s.die d).setReg 0x200 (BitVec.ofNat 64 (claimAddr d)))
  (List.range 4096).foldl (fun s n => s.homePut (claimAddr d + 0x80 + 16 * n) 8 n) s

/-- BOOT_IMAGE_LOADED: the ROM has read the image into slot A and checks it: the agents start and STATE is RUNNING, or REFUSED
with its REASON (R391, R393). -/
def execBootImageLoaded (s : State) : Res :=
  .next (
    if s.bootState ≠ 2 then s
    else
      let n := s.bootLen.toNat
      let src := 0x8000000000000 + s.bootSrc.toNat
      let refuse := fun (r : Nat) => { s with bootState := 4, bootReason := r }
      if s.bootSrc.toNat % 128 ≠ 0 then refuse 7
      else if 2 ^ 50 ≤ s.bootSrc.toNat + n then refuse 6
      else
        let m := s.bytesAt .home src n
        let s := s.homeWrite (slotAddr 0) m
        let r := s.checkImage m
        if r ≠ 0 then { s with bootState := 4, bootReason := r }
        else
          let s := { s with bootState := 3, fwSel := BitVec.ofNat 64 (fieldAt m 8 8 * 2)
                            fwEntry := BitVec.ofNat 64 (fieldAt m 0x10 4 + fieldAt m 0x18 4) }
          let s := (diesIn s.present).foldl (fun s d => s.initClaim d) s
          (diesIn s.present).foldl (fun s d => (s.logical d).foldl (fun s c => s.startAgent d c) s) s)

/-! ## The service ring (R388) -/

/-- The service entry that stands next, with its address; the lead agent of die 0 reads it (R381, R388). -/
def State.nextService (s : State) : Option (Nat × List Byte) :=
  let wi := ((s.die 0).reg 0x202).toNat
  if s.bootState ≠ 3 ∨ wi = s.svcDone ∨ !(s.lead 0).any (s.agentActs 0) then none
  else
    let a := ((s.die 0).reg 0x201).toNat + 64 * (s.svcDone % 256)
    some (a, s.bytesAt .home a 64)

/-- An entry's STATUS written at .sy, then SVC_DONE advanced. -/
def State.serviceDone (s : State) (a status : Nat) : State :=
  { s.homePut (a + 0x18) 4 status with svcDone := (s.svcDone + 1) % 2 ^ 32 }

/-- The next entry performed when its operation is the one named; what stands in its RSV fields is ignored (R5). -/
def State.service (s : State) (ops : Nat → Bool) (f : State → DWord → DWord → State × Nat) : State :=
  match s.nextService with
  | none => s
  | some (a, e) =>
    if !ops (fieldAt e 0 1) then s
    else
      let r := f s (BitVec.ofNat 64 (fieldAt e 8 8)) (BitVec.ofNat 64 (fieldAt e 16 8))
      r.1.serviceDone a r.2

/-- Bytes that a service entry may name: device memory or the host range (R388, R457). -/
def State.firmwareReach (s : State) (pa n : Nat) : Bool :=
  let ok := fun (a : Nat) => match s.target a with | .hbm _ => true | .capacity _ => true | .host => true | _ => false
  ok pa && ok (pa + n - 1)

/-- CREATE_QUEUE (R361, R388). -/
def State.createQueue (s : State) (arg0 _arg1 : DWord) : State × Nat :=
  let pa := arg0.toNat
  let b := s.bytesAt .home pa 64
  let f := fun o n => fieldAt b o n
  let w10 := f 0x10 8
  let q : Queue :=
    { qid := f 0x18 8, qcb := pa, ring := BitVec.ofNat 64 (f 8 8), proc := w10 / 2 ^ 32 % 2 ^ 16, vec := w10 / 2 ^ 16 % 2 ^ 12,
      home := w10 / 2 ^ 8 % 8, log2 := w10 % 32, wi := 0, claim := 0, read := 0, doneIx := 0, state := 0, err := 0, errIx := 0,
      lseqLast := 0, seq := 0, pend := false, resetting := false, staged := [] }
  if pa % 256 = 0 ∧ s.firmwareReach pa 256 ∧ f 8 8 % 4096 = 0 ∧ f 8 8 < 2 ^ 57 ∧ w10 / 2 ^ 48 = 0 ∧ w10 / 2 ^ 28 % 16 = 0 ∧
     w10 / 2 ^ 11 % 32 = 0 ∧ w10 / 2 ^ 5 % 8 = 0 ∧ q.vec ≤ 2047 ∧ s.hasDie q.home ∧ 4 ≤ q.log2 ∧ q.log2 ≤ 20 ∧ q.qid ≤ 4095 ∧
     zeroFrom b 0x20 0x40 ∧ (s.queue q.qid).isNone then
    let s := (s.homeWords (s.qst q.home q.qid) [0, 0, 0, 0]).homeWords pa [0]
    let s := s.homeWords (pa + 0x40) (List.replicate 24 0)
    ({ s with queues := s.queues ++ [q] }, 1)
  else (s, 2)

/-- DESTROY_QUEUE (R388). -/
def State.destroyQueue (s : State) (arg0 _arg1 : DWord) : State × Nat :=
  match s.queue arg0.toNat with
  | none => (s, 2)
  | some q =>
    if q.state = 2 ∨ q.state = 3 then ({ s with queues := s.queues.filter (fun x => decide (x.qid ≠ q.qid)) }, 1) else (s, 3)

/-- The format-range register that a 64-byte image gives, when it may be stored (R308). -/
def parseFmt (b : List Byte) : Option FmtRange :=
  let f := fun o => fieldAt b o 8
  let w1 := f 8
  let r : FmtRange :=
    { en := decide (w1 / 2 ^ 48 % 2 = 1), base := f 0 / 2 ^ 16 % 2 ^ 36 * 2 ^ 16, size := w1 % 2 ^ 48, format := w1 / 2 ^ 52 % 16,
      sepsc := decide (w1 / 2 ^ 51 % 2 = 1), store := f 16 % 2 ^ 52, scale := f 24 % 2 ^ 52,
      codebook := (List.range 16).map (fun e => BitVec.ofNat 16 (fieldAt b (0x20 + 2 * e) 2)) }
  let rsv := decide (f 0 / 2 ^ 52 = 0 ∧ f 0 % 2 ^ 16 = 0 ∧ w1 / 2 ^ 56 = 0 ∧ w1 / 2 ^ 49 % 4 = 0 ∧ f 16 / 2 ^ 52 = 0 ∧ f 24 / 2 ^ 52 = 0)
  let valid := decide (r.format ≤ 6 ∧ (r.format ≤ 2 → r.sepsc = false) ∧ r.size ≠ 0 ∧ r.size % 65536 = 0 ∧ r.store % 32 = 0 ∧
    (r.sepsc = false → r.scale = 0)) && (decide (r.format = 6) || zeroFrom b 0x20 64)
  if r.en && !(rsv && valid) then none else some r

/-- The register after reset: not in force. -/
def FmtRange.off : FmtRange :=
  { en := false, base := 0, size := 0, format := 0, sepsc := false, store := 0, scale := 0, codebook := List.replicate 16 0 }

/-- SET_FMT (R308, R388). -/
def State.setFmt (s : State) (arg0 arg1 : DWord) : State × Nat :=
  if 32 ≤ arg0.toNat ∨ !s.firmwareReach arg1.toNat 64 then (s, 2)
  else match parseFmt (s.bytesAt .home arg1.toNat 64) with
    | some r => ({ s with fmts := defSet FmtRange.off s.fmts arg0.toNat r }, 1)
    | none => (s, 2)

/-- FW_UPDATE (R391, R392): the image copied into the inactive slot, verified there, and FW_SEL flipped. -/
def State.fwUpdate (s : State) (arg0 arg1 : DWord) : State × Nat :=
  if !s.firmwareReach arg0.toNat (max 1 arg1.toNat) then (s, 4) else
  let m := s.bytesAt .home arg0.toNat arg1.toNat
  let slot := 1 - s.fwSel.toNat % 2
  let s := s.homeWrite (slotAddr slot) m
  if s.checkImage m = 0 ∧ s.fwSel.toNat / 2 < fieldAt m 8 8 then
    ({ s with fwSel := BitVec.ofNat 64 (fieldAt m 8 8 * 2 + slot), fwEntry := BitVec.ofNat 64 (slotAddr slot + fieldAt m 0x10 4 + fieldAt m 0x18 4) }, 1)
  else (s, 4)

/-- ADVANCE_ROLLBACK (R394): the next unused fuse slot programmed with the running SEQ. -/
def State.advanceRollback (s : State) (_arg0 _arg1 : DWord) : State × Nat :=
  let seq := BitVec.ofNat 64 (s.fwSel.toNat / 2)
  if seq ≤ s.floor then (s, 2)
  else if 16 ≤ s.fuses.length then (s, 4)
  else ({ s with fuses := s.fuses ++ [(seq, seq)] }, 1)

/-- CREATE_QUEUE (R388). -/
def execCreateQueue (s : State) : Res := .next (s.service (· == 1) State.createQueue)
/-- DESTROY_QUEUE (R388). -/
def execDestroyQueue (s : State) : Res := .next (s.service (· == 2) State.destroyQueue)
/-- SET_FMT (R308, R388). -/
def execSetFmt (s : State) : Res := .next (s.service (· == 3) State.setFmt)
/-- FW_UPDATE (R392). -/
def execFwUpdate (s : State) : Res := .next (s.service (· == 4) State.fwUpdate)
/-- ADVANCE_ROLLBACK (R394). -/
def execAdvanceRollback (s : State) : Res := .next (s.service (· == 5) State.advanceRollback)
/-- SVC_BAD_OP: any other operation answers BAD_ARG (R388). -/
def execSvcBadOp (s : State) : Res := .next (s.service (fun n => n == 0 || decide (5 < n)) (fun s _ _ => (s, 2)))

/-- A write to SVC_WI (R388): ignored below the last value written or more than 256 above SVC_DONE, modulo 2^32. -/
def State.svcWi (s : State) (v : Nat) : State :=
  let wi := ((s.die 0).reg 0x202).toNat
  let up := (v + 2 ^ 32 - wi) % 2 ^ 32
  if s.bootState = 3 ∧ up < 2 ^ 31 ∧ (v + 2 ^ 32 - s.svcDone) % 2 ^ 32 ≤ 256 then
    s.setDie 0 ((s.die 0).setReg 0x202 (BitVec.ofNat 64 v))
  else s

/-- FULL_POWER_DOWN: nothing but the fuses is kept; power cut while a rollback slot is being programmed leaves that slot with
copies that disagree (R393, R394). -/
def execFullPowerDown (cut : Bool) (s : State) : Res :=
  let half := match s.nextService with
    | some (_, e) => if cut ∧ fieldAt e 0 1 = 5 ∧ s.fuses.length < 16 ∧ s.floor.toNat < s.fwSel.toNat / 2
        then [(BitVec.ofNat 64 (s.fwSel.toNat / 2), (0 : DWord))] else []
    | none => []
  .next { s.cold with fuses := s.fuses ++ half, agenda := s.agenda, fresh := s.fresh, tripped := true }

/-! ## Watchdog (R386, R387) -/

/-- KICK written to WDOG (R386). -/
def State.kick (s : State) (d c : Nat) : State :=
  let k := s.core d c
  s.setCore d c { k with lastKick := (s.die d).rclk.toNat }

/-- WDOG_KICK: the agent of the core writes KICK, as long as it is neither disabled nor frozen (R386, R426). -/
def execWdogKick (die core : Nat) (s : State) : Res :=
  .next (if !(s.core die core).dead && s.agentActs die core then s.kick die core else s)

/-- WDOG_EXPIRE: the agent of a core that has not kicked for 2^LIMIT counts is restarted, or disabled. Every action on a packet is one step of
this model, so that a restart finds each done or not done, and its journal, which names the queue that it held, lets it go on there (R386,
R387). -/
def execWdogExpire (die core : Nat) (s : State) : Res :=
  let k := s.core die core
  .next (
    if s.bootState = 3 ∧ s.enabled die core ∧ s.allTeams.any (fun t => t.agent && decide (t.die = die ∧ t.core = core)) ∧ !k.dead ∧ k.lastKick + 2 ^ bitsN (k.reg 0x10A) 0 5 < (s.die die).rclk.toNat then s.restartAgent die core else s)

/-! ## Bank modes (R291, R293, R389) -/

/-- BANK_CMD_GO (R389). -/
def execBankCmdGo (die core bank mode : Nat) (s : State) : Res := .next (s.bankGo die core bank mode)

/-- BANK_MODE_DONE: the oldest change: the bank is quiescent and changes its mode; an L1 way's dirty lines go to the die cache first, and BUSY
falls with the last change (R293, R389). -/
def execBankModeDone (die core : Nat) (s : State) : Res :=
  .next (
    match (s.core die core).banking with
    | [] => s
    | (bank, mode) :: rest =>
      let s := s.flushCore die core
      let k := s.core die core
      let m := k.reg 0x108
      let m' := (m &&& ~~~ BitVec.ofNat 64 (3 * 4 ^ bank)) ||| BitVec.ofNat 64 (mode % 4 * 4 ^ bank)
      let busy := if rest = [] then k.reg 0x109 &&& 0xBFFFFFFF else k.reg 0x109
      s.setCore die core { (k.setReg 0x108 m').setReg 0x109 busy with banking := rest, clean := [] })

/-! ## Admission (R18, R19, R35, R37) -/

/-- The entries of one block cluster stand at the heads of their cores' queues. -/
def State.clusterAtHead (s : State) (d : Nat) (es : List (Nat × Nat)) (lseq : Nat) : Bool :=
  (es.map (fun e => e.1)).eraseDups.all (fun c =>
    let n := (es.filter (fun e => decide (e.1 = c))).length
    let heads := ((s.core d c).queue.take n).map (fun e => (e.grid, e.lin))
    (es.filter (fun e => decide (e.1 = c))).all (fun e => heads.contains (lseq, e.2)))

/-- BLOCK_ADMIT: the block at the head of a core's queue, with its whole block cluster, is admitted when everything it
declares is free (R18, R19, R35). An agent of the die does it, for its own core or for one whose agent is disabled (R386); what a mass start
reserves is not given to others (R372), and a sleeping core is woken first (R454). -/
def execBlockAdmit (die core : Nat) (s : State) : Res :=
  .next (
    match (s.core die core).queue with
    | [] => s
    | e :: _ =>
      (match s.grid e.grid with
       | none => s
       | some g =>
         if s.reserving die then s else
         let cl := (g.clusterOf e.lin).1
         let lins := (List.range g.kd.cluster).map (fun r => g.linearOf cl r)
         let place := lins.map (fun l =>
           (((s.logical die).find? (fun c => (s.core die c).queue.any (fun x => decide (x.grid = g.lseq ∧ x.lin = l)))).getD core, l))
         if !s.clusterAtHead die place g.lseq ∨ !place.all (fun p => s.agentActs die p.1 && s.awake die p.1) then s
         else
           let go := place.foldl (fun (a : Admit) cl =>
             match a with
             | .ok s =>
               let k := s.core die cl.1
               let s := s.setCore die cl.1 { k with queue := k.queue.filter (fun x => !decide (x.grid = g.lseq ∧ x.lin = cl.2)) }
               s.admitBlock g cl.2 die cl.1 0
             | x => x) (.ok s)
           (match go with
            | .ok s => s
            | .wait => s.releaseAway (fun b => decide (b.die = die) && place.any (fun p => decide (p.1 = b.core)))
            | .fault va lv => s.devFault die core g.proc va kindWrite lv 0
            | .refuse va c => (s.logFw die g.proc va c kindWrite 0).contain g.proc 6 (s.rootOf 16 g.lseq))))

/-- Entries moved from the tail of one core's queue to another's (R376). -/
def State.moveTail (s : State) (d a b n : Nat) : State :=
  let q := (s.core d a).queue
  let idx := ((List.range q.length).reverse.filter (fun i => match q[i]? with | some e => e.movable | none => false)).take n
  let moved := (List.range q.length).filterMap (fun i => if idx.contains i then q[i]? else none)
  let kept := (List.range q.length).filterMap (fun i => if idx.contains i then none else q[i]?)
  let s := s.setCore d a { s.core d a with queue := kept }
  s.setCore d b { s.core d b with queue := (s.core d b).queue ++ moved }

/-- BALANCE_TICK: each core and its logical neighbours exchange depths; one that exceeds a neighbour's by more than 8 moves half
the difference (R376). -/
def execBalanceTick (die : Nat) (s : State) : Res :=
  let cs := s.logical die
  .next ((List.range (cs.length - 1)).foldl (fun s i =>
    let a := cs.getD i 0
    let b := cs.getD (i + 1) 0
    let la := (s.core die a).queue.length
    let lb := (s.core die b).queue.length
    if lb + 8 < la then s.moveTail die a b ((la - lb) / 2)
    else if la + 8 < lb then s.moveTail die b a ((lb - la) / 2)
    else s) s)

/-- CHILD_ROOM_PREEMPT: while a child lacks room, the youngest unit of a die in which some block waits on an LNCH flag is pre-empted whole
(R35, R37, R372). -/
def execChildRoomPreempt (block : Nat) (s : State) : Res :=
  .next (
    match s.block block with
    | none => s
    | some b =>
      let waits := s.unitWaits
      if !s.childLacksRoom then s else if !waits b ∨ !(s.unitOf b).all (fun x => decide (x.run = .resident)) then s
      else match s.youngest (fun x => decide (x.die = b.die) && waits x) with
        | some y => if s.launchOf y = s.launchOf b then s.askUnit 1 b else s
        | none => s)

end Sys2Proof.Machine
end

