-- ==== Sys2Proof/Machine/Regs.lean ====
section
/-!
DEFINITION. Machine/Regs: the CSRs of cores, dies, the device and the debugger by number (R278, R279, R291, R382, R386, R389,
R395, R408, R415, R417, R422 to R425, R431 to R433, R448), the device block (R441, R442), and the host's register window (R458).
-/

namespace Sys2Proof.Machine

/-! ## Which numbers exist (R278, R279) -/

/-- Numbers of 64-bit CSRs outside the team's own. -/
def wideCsr (n : Nat) : Bool :=
  [0x100, 0x104, 0x105, 0x106, 0x107, 0x110, 0x118, 0x200, 0x201, 0x204, 0x205, 0x206, 0x210, 0x212, 0x216, 0x217, 0x218, 0x219,
   0x21A, 0x21C, 0x21D, 0x220, 0x221, 0x222, 0x223, 0x224, 0x225, 0x226, 0x227, 0x240, 0x248, 0x40A, 0x503, 0x504, 0x505,
   0x580, 0x581, 0x582].contains n

/-- Numbers of 32-bit CSRs outside the team's own. -/
def narrowCsr (n : Nat) : Bool :=
  [0x108, 0x109, 0x10A, 0x111, 0x112, 0x113, 0x114, 0x115, 0x119, 0x202, 0x203, 0x207, 0x211, 0x213, 0x214, 0x215, 0x21B, 0x21E,
   0x230, 0x231, 0x232, 0x241, 0x242, 0x243, 0x244, 0x249, 0x24A, 0x24B, 0x24C, 0x400, 0x408, 0x409, 0x500, 0x501, 0x502].contains n

/-! ## Cores -/

/-- Physical tags of a core: done bit and status, as its resident blocks hold them (R257, R279). -/
def State.physTag (s : State) (d c n : Nat) : Bool × Nat :=
  match (s.blocksOn d c).find? (fun b => decide (b.run ≠ .away ∧ b.tb ≤ n ∧ n < b.tb + b.tags.length)) with
  | some b => let t := b.tags.getD (n - b.tb) CopyTag.reset; (t.done, t.status)
  | none => (false, 0)

/-- A core CSR read (R279). -/
def State.coreRead (s : State) (d c n : Nat) : DWord :=
  let k := s.core d c
  if n = 0x100 then BitVec.ofNat 64 (((List.range 64).map (fun i => if (s.physTag d c i).1 then 2 ^ i else 0)).foldl (· + ·) 0)
  else if 0x104 ≤ n ∧ n ≤ 0x107 then
    BitVec.ofNat 64 (((List.range 16).map (fun i => (s.physTag d c (16 * (n - 0x104) + i)).2 * 16 ^ i)).foldl (· + ·) 0)
  else if n = 0x112 ∨ n = 0x113 then 0
  else if n = 0x10A then (k.reg n &&& 0xBFFFFFFF) ||| (if k.dead then 0x40000000 else 0)
  else k.reg n

/-- A core CSR written (R278): `v` is the value computed for RW and WO fields, `w` the ones that clear W1C bits. -/
def State.coreWrite (s : State) (d c n : Nat) (v w : DWord) : State :=
  let k := s.core d c
  match n with
  | 0x109 =>
    let old := k.reg 0x109 &&& ~~~ (w &&& 0x20000000)
    let s := s.setCore d c (k.setReg 0x109 ((old &&& 0x60000000) ||| (v &&& 0x7F)))
    if bit v 31 then s.bankGo d c (bitsN v 0 5) (bitsN v 5 2) else s
  | 0x10A =>
    let old := k.reg 0x10A &&& ~~~ (w &&& 0x00FF0000)
    let lim := bitsN v 0 5
    let lim' := if 12 ≤ lim ∧ lim ≤ 30 then lim else bitsN old 0 5
    let s := s.setCore d c (k.setReg 0x10A ((old &&& 0x40FF0000) ||| BitVec.ofNat 64 lim'))
    if bit v 31 then s.kick d c else s
  | 0x110 => s.setCore d c (k.setReg n v)
  | 0x111 => s.setCore d c (k.setReg n (k.reg n &&& ~~~ w))
  | 0x112 => if bit v 31 then s.preempt d c (bitsN v 0 7) else s
  | 0x113 => if bit v 31 then s.resume d c (bitsN v 0 7) else s
  | 0x115 => if 16 ≤ bitsN v 0 5 ∧ bitsN v 0 5 ≤ 30 then s.setCore d c (k.setReg n (v &&& 0x1F)) else s
  | 0x118 => s.setCore d c (k.setReg n v)
  | 0x119 =>
    if bit v 0 then (if bit (k.reg 0x119) 0 then s else s.pfsArm d c)
    else s.setCore d c (k.setReg 0x119 (k.reg 0x119 &&& 0x6))
  | _ => s

/-! ## Debug registers (R423) -/

/-- A debug CSR of a core or of the device read. -/
def State.dbgRead (s : State) (d c n : Nat) : DWord :=
  if n = 0x500 then 0
  else if n = 0x501 then s.dbgStat d c
  else if 0x580 ≤ n then defGet 0 s.csr n
  else if n = 0x503 then (s.core d c).reg n &&& ~~~ 2
  else (s.core d c).reg n

/-- A debug CSR written; GO of ER_CTL is refused with FAIL unless every partition of the core is stopped (R432). -/
def State.dbgWrite (s : State) (d c n : Nat) (v : DWord) : State :=
  let k := s.core d c
  match n with
  | 0x500 => s.dbgStop d c v
  | 0x502 => s.setCore d c (k.setReg n (v &&& 0x0F7F000F))
  | 0x503 =>
    let old := k.reg n
    let keep := (v &&& 0xFFFFFFFFFFFF0001) ||| (old &&& 0x4)
    if bit v 1 ∧ !bit old 2 then s.setCore d c (k.setReg n (if k.stopped = 0xF then keep ||| 0x4 else keep ||| 0x8))
    else s.setCore d c (k.setReg n (keep ||| (old &&& 0x8)))
  | 0x504 => s.setCore d c (k.setReg n v)
  | 0x505 => s.setCore d c (k.setReg n ((v &&& 0xFFFFFFFF00000000) ||| (k.reg n &&& 0xFFFFFFFF)))
  | 0x580 =>
    let v := v &&& 0x0000FFFF00000003
    let s := { s with csr := defSet 0 s.csr n v }
    -- CAP or RUN falls, or CAP rises over a run: what was under way ends (R431)
    if s.rerun.mode = 1 ∧ !bit v 0 then { s with rerun := { mode := 0, count := 0 } }
    else if 2 ≤ s.rerun.mode ∧ (!bit v 1 ∨ bit v 0) then
      { s with rerun := { mode := 0, count := 0 }, csr := defSet 0 s.csr 0x582 (defGet 0 s.csr 0x582 &&& 0xFFFFFFFFFFFFFFFE) }
    else s
  | 0x581 => { s with csr := defSet 0 s.csr n v }
  | _ => s

/-! ## Dies (R382, R395, R448) -/

/-- A die CSR read. -/
def State.dieRead (s : State) (d n : Nat) : DWord :=
  let x := s.die d
  if d ≠ 0 ∧ ((0x201 ≤ n ∧ n ≤ 0x205) ∨ n = 0x207) then 0
  else match n with
  | 0x203 => BitVec.ofNat 64 s.svcDone
  | 0x204 => s.fwSel
  | 0x205 => s.floor
  | 0x206 => x.rclk
  | 0x207 => BitVec.ofNat 64 (16 - s.fuses.length)
  | 0x216 => 0
  | 0x217 => 0
  | 0x230 => (bits (defGet (BitVec.allOnes 36) s.harvest d) 0 32).setWidth 64
  | 0x231 => (bits (defGet (BitVec.allOnes 36) s.harvest d) 32 4).setWidth 64
  | 0x232 => (s.memOf d).setWidth 64
  | _ =>
    if 0x220 ≤ n ∧ n ≤ 0x227 then
      if n % 2 = 0 then 0
      else
        let c := s.ctl d ((n - 0x221) / 2)
        BitVec.ofNat 64 (min c.free (2 ^ 32 - 1) * 2 ^ 32 + c.reserve * 2 ^ 8 + (if c.stall then 2 else 0) + (if c.low then 1 else 0))
    else x.reg n

/-- A die CSR written. -/
def State.dieWrite (s : State) (d n : Nat) (v : DWord) : State :=
  let x := s.die d
  let v32 := v &&& 0xFFFFFFFF
  let put := fun (w : DWord) => s.setDie d (x.setReg n w)
  match n with
  | 0x200 => put v
  | 0x201 => if d = 0 then put v else s
  | 0x202 => if d = 0 then s.svcWi v32.toNat else s
  | 0x210 => put v
  | 0x211 => put v32
  | 0x212 => s.faultConfig d v (x.reg 0x213)
  | 0x213 => s.faultConfig d (x.reg 0x212) v
  | 0x215 => s.faultRi d v
  | 0x216 => if s.bootState = 3 then s.resolve d (bitsN v 0 2) (bitsN v 32 16) else s
  | 0x217 => s.tlbInv d (bitsN v 0 2) (bitsN v 32 16) (bitsN v 8 5)
  | 0x218 => put v
  | 0x21A => put v
  | 0x21B => put v32
  | 0x21C => if s.reds.any (fun r => r.spilled && decide (s.homeDie r.pa = d)) then s else put v
  | 0x21D => s.spillSize d v
  | 0x21E => (List.range 4).foldl (fun (s : State) k => s.setCtl d k (s.ctl d k)) (put v32)
  | 0x220 => s.grant d 0 (bitsN v 16 36)
  | 0x222 => s.grant d 1 (bitsN v 16 36)
  | 0x224 => s.grant d 2 (bitsN v 16 36)
  | 0x226 => s.grant d 3 (bitsN v 16 36)
  | 0x240 => put v
  | 0x241 => put (v &&& 0x0FFF001F)
  | 0x243 => put v32
  | 0x248 => put v
  | 0x249 => put (v &&& 0xFFFF)
  | 0x24B => put v32
  | _ => s

/-! ## The device (R448, R451, R455) -/

/-- PWR_LIMIT written: clamped to a quarter of the form limit up to the form limit (R455). -/
def State.pwrLimit (s : State) (v : DWord) : State :=
  let lim := Config.formLimit s.form * (if s.form = 0 then (diesIn s.present).length else 1)
  let w := max (ceilDiv lim 4) (min lim (bitsN v 0 16))
  { s with csr := defSet 0 s.csr 0x409 (BitVec.ofNat 64 w) }

/-- PWR_LIMIT_WRITE (R455). -/
def execPwrLimitWrite (v : Word) (s : State) : Res := .next (s.pwrLimit (v.setWidth 64))

/-- SPL_CTL as last written: the newest write that waits for its count, or the value in force (R5, R451). -/
def State.splLast (s : State) : Word := (s.splNext.getLast?.map (fun p => p.1)).getD ((defGet 0 s.csr 0x400).setWidth 32)

/-- SPL_CTL in force at a count: the newest write whose count has come by then (R451). -/
def State.splAt (s : State) (t : Nat) : Word :=
  (((s.splNext.filter (fun p => decide (p.2 ≤ t))).getLast?).map (fun p => p.1)).getD ((defGet 0 s.csr 0x400).setWidth 32)

/-- A device CSR read; SPL_CTL reads as last written, also before it takes effect (R5, R451); PWR_STAT holds the measured power, the dies throttling and the device state (R455). -/
def State.devRead (s : State) (n : Nat) : DWord :=
  if n = 0x40A then
    (defGet 0 s.csr n &&& 0xFFFF) ||| BitVec.ofNat 64 (((List.range 8).filter (fun d => (s.die d).throttling)).length * 2 ^ 16 + s.power % 4 * 2 ^ 24)
  else if n = 0x400 then s.splLast.setWidth 64
  else defGet 0 s.csr n

/-- A device CSR written; SPL_CTL takes effect at a later count, each write at its own, and a K out of its range leaves K as it is (R451). -/
def State.devWrite (s : State) (n : Nat) (v : DWord) : State :=
  match n with
  | 0x400 =>
    let k := bits v 0 5
    let k := if 10 ≤ k.toNat ∧ k.toNat ≤ 24 then k else bits s.splLast 0 5
    { s with splNext := s.splNext ++ [(((v &&& 0x80000000) ||| k.setWidth 64).setWidth 32, ceilDiv ((s.die 0).rclk.toNat + 2 ^ 20) (2 ^ 24) * 2 ^ 24)] }
  | 0x408 => { s with csr := defSet 0 s.csr n (v &&& 0xFFFFFFFF) }
  | 0x409 => s.pwrLimit v
  | _ => s

/-- SPL_CTL_APPLY: the writes of SPL_CTL whose count has come on every die are in force, the newest of them last (R451). -/
def execSplCtlApply (s : State) : Res :=
  let now := (s.die 0).rclk.toNat
  .next { s with csr := defSet 0 s.csr 0x400 ((s.splAt now).setWidth 64), splNext := s.splNext.filter (fun p => decide (now < p.2)) }

/-! ## Any CSR outside the team's own -/

/-- A CSR as privileged code on a core reads it (R279). -/
def State.csrRead (s : State) (d c n : Nat) : DWord :=
  if n < 0x200 then s.coreRead d c n
  else if n < 0x400 then s.dieRead d n
  else if n < 0x500 then s.devRead n
  else s.dbgRead d c n

/-- A CSR as privileged code on a core writes it. -/
def State.csrWrite (s : State) (d c n : Nat) (v w : DWord) : State :=
  if n < 0x200 then s.coreWrite d c n v w
  else if n < 0x400 then s.dieWrite d n v
  else if n < 0x500 then s.devWrite n v
  else s.dbgWrite d c n v

/-! ## The device block (R393, R441, R442) -/

/-- A write to PART_k (R442). -/
def State.partWrite (s : State) (k : Nat) (v : DWord) : State :=
  let v := v &&& 0x8000FFFFFFFF00FF
  let old := s.part k
  let mask := bits v 0 8
  let lo := bitsN v 16 16
  let hi := bitsN v 32 16
  let live := bit old 63 && s.queues.any (fun q => decide (bitsN old 16 16 ≤ q.proc ∧ q.proc ≤ bitsN old 32 16 ∧ (q.state = 0 ∨ q.state = 1)))
  let clash := (List.range 8).any (fun j => let w := s.part j
    decide (j ≠ k) && bit w 63 && (decide (bits w 0 8 &&& mask ≠ 0) || decide (lo ≤ bitsN w 32 16 ∧ bitsN w 16 16 ≤ hi)))
  let bad := decide (lo = 0) || decide (hi < lo) || decide (mask = 0) || decide (mask &&& ~~~ s.present ≠ 0)
  if 8 ≤ k ∨ live ∨ (bit v 63 && (clash || bad)) then s else { s with parts := defSet 0 s.parts k v }

/-- PART_WRITE (R442). -/
def execPartWrite (k : Nat) (v : DWord) (s : State) : Res := .next (s.partWrite k v)

/-- TOPO (R441). -/
def State.topo (s : State) : DWord :=
  BitVec.ofNat 64 (s.relayUp.toNat * 2 ^ 16 + (if s.host4 then 2 ^ 9 else 0) + (if s.hasDie 0 then 2 ^ 8 else 0) + s.present.toNat)

/-- The device block at an offset below 0x1000 read. -/
def State.blockRead (s : State) (o : Nat) : DWord :=
  if o < 0x40 ∧ o % 8 = 0 then s.part (o / 8)
  else match o with
  | 0x40 => s.topo
  | 0x100 => s.bootSrc
  | 0x108 => s.bootLen.setWidth 64
  | 0x118 => BitVec.ofNat 64 (s.bootReason * 2 ^ 8 + s.bootState)
  | _ => 0

/-- The device block written; once RUNNING the boot registers ignore writes (R393). -/
def State.blockWrite (s : State) (o : Nat) (v : DWord) : State :=
  if o < 0x40 ∧ o % 8 = 0 then s.partWrite (o / 8) v
  else if s.bootState = 3 then s
  else match o with
  | 0x100 => { s with bootSrc := v }
  | 0x108 => { s with bootLen := bits v 0 32 }
  | 0x110 => if bit v 0 then s.bootGo else s
  | _ => s

/-! ## The host's window (R458) -/

/-- The register that a BAR 0 offset names: die or device CSR, core CSR, debug CSR, device block. -/
inductive BarReg where
  | dieCsr (d n : Nat)
  | coreCsr (d c n : Nat)
  | dbgCsr (d c n : Nat)
  | block (o : Nat)
  | none
  deriving DecidableEq, Repr

/-- The decode of a BAR 0 offset (R382, R408, R423, R441, R458). -/
def State.barReg (s : State) (off : Nat) : BarReg :=
  if off % 8 ≠ 0 ∨ 0x1000000 ≤ off then .none
  else if 0x800000 ≤ off then (if off < 0x801000 then .block (off - 0x800000) else .none)
  else
    let d := off / 0x100000
    let o := off % 0x100000
    if !s.hasDie d then .none
    else if o < 0x80000 then
      let n := o / 8
      if (0x200 ≤ n ∧ n < 0x400 ∨ (0x400 ≤ n ∧ n < 0x500 ∧ d = 0)) ∧ (wideCsr n ∨ narrowCsr n) then .dieCsr d n else .none
    else if o < 0xC0000 then
      let c := (o - 0x80000) / 0x1000
      let n := (o - 0x80000) % 0x1000 / 8 + 0x100
      if s.enabled d c ∧ n < 0x200 ∧ (wideCsr n ∨ narrowCsr n) then .coreCsr d c n else .none
    else
      let c := (o - 0xC0000) / 0x800
      let n := (o - 0xC0000) % 0x800 / 8 + 0x500
      if s.enabled d c ∧ (wideCsr n ∨ narrowCsr n) ∧ (n < 0x580 ∨ d = 0) then .dbgCsr d c n else .none

/-- An 8-byte read of BAR 0 (R458). -/
def State.barRead (s : State) (off : Nat) : DWord :=
  match s.barReg off with
  | .dieCsr d n => if n < 0x400 then s.dieRead d n else s.devRead n
  | .coreCsr d c n => s.coreRead d c n
  | .dbgCsr d c n => s.dbgRead d c n
  | .block o => s.blockRead o
  | .none => 0

/-- An 8-byte write of BAR 0 (R458): a 32-bit register takes the low half. -/
def State.barWrite (s : State) (off : Nat) (v : DWord) : State :=
  let cut := fun (n : Nat) => if narrowCsr n then v &&& 0xFFFFFFFF else v
  match s.barReg off with
  | .dieCsr d n => if n < 0x400 then s.dieWrite d n (cut n) else s.devWrite n (cut n)
  | .coreCsr d c n => s.coreWrite d c n (cut n) (cut n)
  | .dbgCsr d c n => s.dbgWrite d c n (cut n)
  | .block o => s.blockWrite o v
  | .none => s

/-- The die whose host port a register access comes through: it stands above the 16 MiB of BAR 0 (R458). -/
def portOf (off : Nat) : Nat := off / 2 ^ 24

/-- A host port is enabled: that of die 0, and that of die 4 where the straps make it a second one (R2, R441). -/
def State.hostPort (s : State) (port : Nat) : Bool := decide (port = 0) || decide (port = 4) && s.host4 && s.hasDie 4

/-- A boot register, which reads zero and ignores writes through die 4's host port (R393). -/
def bootRegister (off : Nat) : Bool := decide (0x800100 ≤ off ∧ off ≤ 0x800118)

/-- An 8-byte read of BAR 0 through a host port (R393, R444). -/
def State.portRead (s : State) (off : Nat) : DWord :=
  if !s.hostPort (portOf off) || decide (portOf off = 4) && bootRegister (off % 2 ^ 24) then 0 else s.barRead (off % 2 ^ 24)

/-- An 8-byte write of BAR 0 through a host port (R393, R444). -/
def State.portWrite (s : State) (off : Nat) (v : DWord) : State :=
  if !s.hostPort (portOf off) || decide (portOf off = 4) && bootRegister (off % 2 ^ 24) then s else s.barWrite (off % 2 ^ 24) v

/-- REGISTER_WRITE: a host write of 8 bytes at a BAR 0 offset through one of the host ports (R393, R444, R458). -/
def execRegisterWrite (off : Nat) (v : DWord) (s : State) : Res := .next (s.portWrite off v)

/-- A write of a device window reached through a physical address (R457): 8 aligned bytes name one register or doorbell; any
other write of the BAR 0 window is ignored, and of the doorbell region is the queue error BAD_DOORBELL (R363, R458). -/
def State.windowWrite (s : State) (pa : Nat) (bs : List Byte) : State :=
  match s.target pa with
  | .bar0 off => if bs.length = 8 ∧ off % 8 = 0 then s.barWrite off (BitVec.ofNat 64 (ofLeBytes bs)) else s
  | .doorbell off =>
    if bs.length = 8 ∧ off % 8 = 0 then s.doorbell (off / 8) (BitVec.ofNat 64 (ofLeBytes bs))
    else (match s.queue (off / 8) with
      | some q => if s.bootState = 3 ∧ q.state ≠ 2 then s.queueError q 5 q.wi else s
      | none => s)
  | _ => s

/-- Bytes read of a device window: a whole aligned register, else zero (R458). -/
def State.windowRead (s : State) (pa n : Nat) : List Byte :=
  match s.target pa with
  | .bar0 off => if n = 8 ∧ off % 8 = 0 then leBytes 8 (s.barRead off).toNat else List.replicate n 0
  | _ => List.replicate n 0

/-- A physical address lies in one of the device's own windows. -/
def State.isWindow (s : State) (pa : Nat) : Bool :=
  match s.target pa with
  | .bar0 _ => true
  | .doorbell _ => true
  | _ => false

/-! ## Accesses of the host and of remote devices (R106, R445) -/

/-- No process: the number that writes from outside the device stand under at a controller. -/
def noProc : Nat := 65536

/-- A host or remote write performed at the home slice; that of a compressed block is merged there (R105, R306). -/
def State.outsideWrite (s : State) (pa : Nat) (bs : List Byte) : State :=
  if s.isWindow pa then s.windowWrite pa bs
  else (blockParts pa bs).foldl (fun s p =>
    if s.isCompressed (pa + p.1) then s.writeBlocks noProc 0 (pa + p.1) p.2 else s.homeWrite (pa + p.1) p.2) s

/-- HOST_MEMORY_ACCESS: a read changes nothing; a write is performed at the home slice (R106). -/
def execHostMemoryAccess (wr : Bool) (pa _size : Nat) (data : List Byte) (s : State) : Res :=
  if s.target pa = .none then .fault (.noTarget pa) else .next (if wr then s.outsideWrite pa data else s)

/-- RELAY_ACCESS: an access of a remote device through a port that is up (R445). -/
def execRelayAccess (port : Nat) (wr : Bool) (pa : Nat) (data : List Byte) (s : State) : Res :=
  if !s.relayUp.getLsbD port then .next s
  else if s.target pa = .none then .fault (.noTarget pa)
  else .next (if wr then s.outsideWrite pa data else s)

/-- RELAY_LINK_TRAIN: a port trains, or goes down (R441, R445, R447). -/
def execRelayLinkTrain (port : Nat) (up : Bool) (s : State) : Res :=
  let b := BitVec.ofNat 16 (2 ^ port)
  .next { s with relayUp := if up then s.relayUp ||| b else s.relayUp &&& ~~~ b }

end Sys2Proof.Machine
end

