-- ==== Sys2Proof/Machine/Perform.lean ====
section
/-!
DEFINITION. Machine/Perform: what the entries of a replay queue do after issue. Loads (R211, R212, R215), stores and
atomics (R213, R221 to R225), reductions and their flushes (R80, R81, R101 to R104), FIFO banks (R218, R299), CPS (R229),
fences (R91), PREF, CCTL, SIG, RFLUSH (R230 to R233), and the visibility of writes (R87).
-/

namespace Sys2Proof.Machine

/-! ## Order within a thread (R89) -/

/-- An entry's access is an acquire. -/
def Work.acq : Work → Bool
  | .load m => m.acq
  | .atomic m _ _ => m.acq
  | .sload _ _ _ a => a
  | .fifoPop .. => true
  | _ => false

/-- An entry's access is a release: it is performed after every earlier access. -/
def Work.rel : Work → Bool
  | .store m => m.rel
  | .atomic m _ _ => m.rel
  | .sstore _ _ r => r
  | .sig .. => true
  | .fifoPush .. => true
  | .copy .. => true
  | .bin => true
  | _ => false

/-- Bytes of a lane's access at its address, with their space. -/
def Work.extent : Work → Option (Space × Nat)
  | .load m => some (m.space, if m.space = .tile then m.esz else m.esz * m.cnt)
  | .store m => some (m.space, if m.space = .tile then m.esz else m.esz * m.cnt)
  | .atomic m _ _ => some (m.space, m.esz)
  | .redDet .. => some (.global, 4)
  | .sig .. => some (.global, 8)
  | .sload _ p _ _ => some (.global, if p then 8 else 4)
  | .sstore p _ _ => some (.global, if p then 8 else 4)
  | .cps m _ _ => some (.global, m.esz * m.cnt)
  | .rflush false => some (.global, 4)
  | _ => none

/-- The places a lane's access names: space, address and bytes. A CPS names its global source and its scratchpad destination (R229). -/
def Entry.extents (e : Entry) (l : Nat) : List (Space × Nat × Nat) :=
  (match e.work.extent with | some (sp, n) => [(sp, (e.addr.getD l 0).toNat, n)] | none => []) ++
  (match e.work with | .cps m _ _ => [(.scratch, ((e.data.getD l []).headD 0).toNat, m.esz * m.cnt)] | _ => [])

/-- RFLUSH.all: it may flush a word that any global access names (R233). -/
def Work.flushesAll : Work → Bool
  | .rflush all => all
  | _ => false

/-- Work that accesses global memory. -/
def Work.global (w : Work) : Bool :=
  w.flushesAll || (match w.extent with
    | some (sp, _) => decide (sp = .global)
    | none => false)

/-- Two entries access bytes in common from one thread; accesses of a tile's planes count as overlapping, and RFLUSH.all overlaps
every global access. -/
def Entry.overlaps (e f : Entry) : Bool :=
  ((e.work.flushesAll && f.work.global) || (f.work.flushesAll && e.work.global)) ||
  (lanesOf (e.lmask &&& f.lmask)).any (fun l => (e.extents l).any (fun p => (f.extents l).any (fun q =>
    decide (p.1 = q.1) && (decide (p.1 = .tile) || (decide (p.2.1 < q.2.1 + q.2.2) && decide (q.2.1 < p.2.1 + p.2.2))))))

/-- Nothing that is ordered before an entry is unfinished (R89). -/
def Team.mayPerform (t : Team) (e : Entry) : Bool :=
  e.waits.isEmpty && !((t.before e).any (fun f =>
    f.work.accesses && (f.work.acq || e.work.rel || f.overlaps e)))

/-- The entry of a team that an event acts on: it may make progress and nothing orders it behind another. -/
def State.ready (s : State) (team entry : Nat) : Option (Team × Entry) :=
  match s.team team with
  | none => none
  | some t =>
    match t.activeEntry entry with
    | none => none
    | some e => if t.mayPerform e then some (t, e) else none

/-! ## Where a lane's access goes (R212 rows 3 to 5) -/

/-- The place of a lane's access: physical memory, an on-chip memory, a page fault, or a refusal with its log cause. -/
inductive At where
  | mem (pa : Nat) (cmp : Bool)
  | bank (off : Nat)
  | fault (level : Nat)
  | refuse (cause : Nat)
  deriving DecidableEq, Repr

/-- Bytes of the last element of a tile access lie inside the allocation. -/
def tileInside (b : Bank) (m : MemOp) (o : Nat) : Bool := b.inside o (8192 * (m.esz / 2) * (m.cnt - 1) + m.esz)

/-- Where a lane of an entry accesses. -/
def State.place (s : State) (t : Team) (e : Entry) (m : MemOp) (kind l : Nat) : At :=
  let a := e.addr.getD l 0
  if e.refused.getLsbD l then .refuse e.refCause
  else match m.space with
  | .scratch =>
    (match s.block t.block with
     | some b => if b.scratch.inside a.toNat (m.esz * m.cnt) then .bank a.toNat else .refuse 8
     | none => .refuse 8)
  | .tile =>
    (match s.block t.block with
     | some b => if tileInside (s.bankOf b .tile) m a.toNat then .bank a.toNat else .refuse 8
     | none => .refuse 8)
  | _ =>
    (match s.translate t.die t.core t.proc e.priv kind a with
     | .ok pa c => .mem pa c
     | .fault lv => .fault lv
     | .refuse r => .refuse r)

/-- Lanes of an entry that fault, with the level. -/
def faulting (ps : List (Nat × At)) : List (Nat × Nat) :=
  ps.filterMap (fun p => match p.2 with | .fault lv => some (p.1, lv) | _ => none)

/-- Lanes newly refused, with the cause of the lowest. -/
def refusing (e : Entry) (ps : List (Nat × At)) : Mask × Nat :=
  let r := ps.filterMap (fun p => match p.2 with | .refuse c => if e.refused.getLsbD p.1 then none else some (p.1, c) | _ => none)
  (r.foldl (fun m p => maskPut m p.1 true) 0, (r.headD (0, 0)).2)

/-- Page faults of an entry's lanes recorded; the entry waits on their pages (R402). -/
def State.waitFaults (s : State) (id : Nat) (e : Entry) (fs : List (Nat × Nat)) : State :=
  let pages := (fs.map (fun f => pageOf (e.addr.getD f.1 0).toNat)).eraseDups
  match s.team id with
  | none => s
  | some t =>
    let s := fs.foldl (fun s f => s.pageFault t.die t.core t.proc (e.addr.getD f.1 0).toNat e.kind f.2 0) s
    s.setTeam (t.setEntry { e with waits := pages })

/-- A block of an access is held at its controller (R306). -/
def State.heldAt (s : State) (p : At) : Bool := match p with | .mem pa true => s.blockHeld pa | _ => false

/-! ## Reading -/

/-- What a core wrote to a line made visible before the core itself reads or writes the line at a wider point. -/
def State.ownLines (s : State) (p : Point) (d c pa n : Nat) : State :=
  match p with
  | .l1 _ _ => s
  | _ =>
    (linesIn pa n).foldl (fun s ln =>
      let s := s.flushLine d c ln
      if p = .home then s.flushDieLine d ln else s) s

/-- Bytes that a core's read of a scope returns, and whether a line is uncorrectable (R90, R212 row 6). -/
def State.readGlobal (s : State) (scope d c pa n : Nat) : State × List Byte × Bool :=
  if s.isWindow pa then (s, s.windowRead pa n, false)
  else
    let p := s.pointAt scope d c pa
    let s := (s.ownLines p d c pa n).touch p pa n
    (s, s.bytesAt p pa n, (linesIn pa n).any (fun ln => s.readBad p (128 * ln)))

/-- The format-range register of an address: the lowest-numbered in force (R309). -/
def State.fmtAt (s : State) (pa : Nat) : Option FmtRange :=
  (List.range 32).findSome? (fun i =>
    let r := defGet FmtRange.off s.fmts i
    if r.en ∧ r.base ≤ pa ∧ pa < r.base + r.size then some r else none)

/-- Places of element e of a view: the element's bytes, and its scale byte (R309). -/
def FmtRange.places (r : FmtRange) (e : Nat) : (Nat × Nat) × Option Nat :=
  match r.format with
  | 0 => ((r.store + 2 * e, 2), none)
  | 1 => ((r.store + e, 1), none)
  | 2 => ((r.store + e, 1), none)
  | f =>
    let n := if f ≤ 4 then 32 else 16
    let b := e / 32
    if r.sepsc then ((r.store + b * n, n), some (r.scale + b)) else ((r.store + b * (n + 1), n), some (r.store + b * (n + 1) + n))

/-- The bytes of those places that decode to the element (R66 to R68): in an I4X block its group of four nibbles. -/
def FmtRange.own (r : FmtRange) (e : Nat) : Nat × Nat :=
  let at_ := (r.places e).1
  match r.format with
  | 3 => (at_.1 + e % 32, 1)
  | 4 => (at_.1 + e % 32, 1)
  | 5 => (at_.1 + e % 32 / 4 * 2, 2)
  | 6 => (at_.1 + e % 32 / 2, 1)
  | _ => at_

/-- A block that holds a stored byte or a scale byte of a lane's LD.fmt is held at its controller (R105, R306). -/
def State.viewHeld (s : State) (m : MemOp) (p : At) : Bool :=
  match p with
  | .mem pa _ => m.fmt && (List.range m.cnt).any (fun i =>
      match s.fmtAt (pa + m.esz * i) with
      | none => false
      | some r =>
        let q := r.places ((pa + m.esz * i - r.base) / m.esz)
        s.blockHeld q.1.1 || s.blockHeld (q.1.1 + q.1.2 - 1) || (match q.2 with | some a => s.blockHeld a | none => false))
  | _ => false

/-- The exact value of element e from the bytes stored (R65 to R69), in units of 2^-160. -/
def FmtRange.value (r : FmtRange) (e : Nat) (bs : List Byte) (scale : Nat) : FV :=
  let x := ofLeBytes bs
  match r.format with
  | 0 => (fmtF16.decode x).deep
  | 1 => (fmtE4M3.decode x).deep
  | 2 => (fmtE5M2.decode x).deep
  | 3 => (Blk.mx8 false).decode bs scale r.codebook (e % 32)
  | 4 => (Blk.mx8 true).decode bs scale r.codebook (e % 32)
  | 5 => Blk.i4x.decode bs scale r.codebook (e % 32)
  | _ => Blk.c4.decode bs scale r.codebook (e % 32)

/-- One element of an LD.fmt at a physical address (R215, R309): its own stored bytes and its scale byte make it poisoned. -/
def State.readFmt (s : State) (m : MemOp) (d c pa : Nat) : State × Word × Bool :=
  match s.fmtAt pa with
  | none =>
    let (s, bs, bad) := s.readGlobal m.scope d c pa m.esz
    (s, BitVec.ofNat 32 (ofLeBytes bs), bad)
  | some r =>
    let e := (pa - r.base) / m.esz
    let pl := r.places e
    let (s, bs, _) := s.readGlobal m.scope d c pl.1.1 pl.1.2
    let bad := (linesIn (r.own e).1 (r.own e).2).any (fun ln => s.readBad (s.pointAt m.scope d c (128 * ln)) (128 * ln))
    let (s, sc, bad') := match pl.2 with | some a => s.readGlobal m.scope d c a 1 | none => (s, [], false)
    let o : Rnd := { f := fmtOf m.ty, mode := 1, sat := false, fo := false }
    (s, BitVec.ofNat 32 (o.convertDeep (r.value e bs (ofLeBytes sc))).bits, bad || bad')

/-- An element extended into its register (R210, R64). -/
def extend (ty x : Nat) : Word :=
  match intType ty with
  | some _ => ofInt32 (extInt ty x)
  | none => BitVec.ofNat 32 (x % 2 ^ (8 * esize ty))

/-- The elements of bytes of a run. -/
def elements (m : MemOp) (bs : List Byte) (bad : Bool) : List Elem :=
  (List.range m.cnt).map (fun i => { val := extend m.ty (fieldAt bs (m.esz * i) m.esz), pois := bad })

/-- Elements of which one is poisoned: the lane is poisoned (R212 row 6, R298). -/
def poisonAll (vs : List Elem) : List Elem := let bad := vs.any (fun e => e.pois); vs.map (fun e => { e with pois := bad })

/-- The value that a lane of a load returns from where it reads. LD.c: each word may be its value at grid start or any later one (R83);
DESIGN CHOICE (log entry 56): the model returns the newest value at home, the core's own writes to the line made visible first. -/
def State.readLane (s : State) (t : Team) (m : MemOp) (p : At) : State × List Elem :=
  match p with
  | .mem pa _ =>
    if m.fmt then
      let r := (List.range m.cnt).foldl (fun (a : State × List Elem) i =>
        let (s, v, bad) := a.1.readFmt m t.die t.core (pa + m.esz * i)
        (s, a.2 ++ [{ val := v, pois := bad }])) (s, [])
      (r.1, poisonAll r.2)
    else
      let (s, bs, bad) := s.readGlobal (if m.space = .const then 6 else m.scope) t.die t.core pa (m.esz * m.cnt)
      (s, elements m bs bad)
  | .bank o =>
    (match s.block t.block with
     | some b =>
       let k := s.bankOf b m.space
       (s, poisonAll ((List.range m.cnt).map (fun i =>
         let a := o + (if m.space = .tile then 8192 * (m.esz / 2) else m.esz) * i
         { val := extend m.ty (ofLeBytes (k.read a m.esz)), pois := k.poisoned a m.esz })))
     | none => (s, []))
  | _ => (s, [])

/-- The elements of a lane that is poisoned and has no value (R212): the bits are open. -/
def State.poisonLane (s : State) (n : Nat) : State × List Elem :=
  (s.tickFresh, (List.range n).map (fun i => { val := Config.freeWord (4 * s.fresh + i), pois := true }))

/-- Values written into the runs of D in their lanes (R48, R54); rule 1 of R48 looks at every lane that executed the instruction. -/
def Team.deliver (t : Team) (e : Entry) (vs : List (Nat × List Elem)) : Team :=
  t.vwriteAs (decide (1 < (((lanesOf e.emask).map (fun l => tgAt e.tgt l 0)).eraseDups).length))
    (vs.flatMap (fun v => mapIx (fun i x => (tgAt e.tgt v.1 0 + i, v.1, x)) v.2))

/-! ## LOAD_COMPLETE (R92, R211, R212) -/

/-- The lanes of a load: those that return a value or are poisoned are written, those on a faulting page wait. -/
def State.loadStep (s : State) (t : Team) (e : Entry) (m : MemOp) : State :=
  let ps := (lanesOf e.lmask).map (fun l => (l, s.place t e m kindRead l))
  if ps.any (fun p => s.heldAt p.2 || s.viewHeld m p.2) then s
  else
    let (bad, cause) := refusing e ps
    let s := s.refuseEntry t e bad cause 0
    let fs := if m.nf then [] else faulting ps
    let go := ps.filter (fun p => !(fs.map (fun f => f.1)).contains p.1)
    let (s, vs) := go.foldl (fun (a : State × List (Nat × List Elem)) p =>
      let (s, v) := match p.2 with
        | .fault _ => a.1.poisonLane m.cnt
        | .refuse _ => a.1.poisonLane m.cnt
        | q => a.1.readLane t m q
      (s, a.2 ++ [(p.1, v)])) (s, [])
    let s := if m.acq then s.acquire m.scope t.die t.core else s
    match s.team t.id with
    | none => s
    | some t =>
      let t := t.deliver e vs
      let e := { e with lmask := fs.foldl (fun k f => maskPut k f.1 true) 0 }
      if fs.isEmpty then s.setTeam (t.finish e) else (s.setTeam (t.setEntry e)).waitFaults t.id e fs

/-- An SLD: one access by the team's lowest live lane at issue, written to scalar registers (R173, R174). -/
def State.sloadStep (s : State) (t : Team) (e : Entry) (sd : Nat) (pair : Bool) (scope : Nat) (acq : Bool) : State :=
  let m : MemOp := { space := .global, scope := scope, acq := acq, rel := false, esz := 4, cnt := if pair then 2 else 1, ty := 1,
                     fmt := false, nf := false }
  let l := lowLane e.lmask
  let p := s.place t e m kindRead l
  if s.heldAt p then s
  else match p with
  | .fault lv => s.waitFaults t.id e [(l, lv)]
  | p =>
    let (bad, cause) := refusing e [(l, p)]
    let s := s.refuseEntry t e bad cause 0
    let (s, v) := match p with | .refuse _ => s.poisonLane m.cnt | q => s.readLane t m q
    let s := if acq then s.acquire scope t.die t.core else s
    match s.team t.id with
    | none => s
    | some t => s.setTeam (((mapIx (fun i x => (sd + i, x)) v).foldl (fun (t : Team) x => t.setSreg x.1 x.2) t).finish e)

/-! ## Deterministic reductions (R80, R81, R101 to R104) -/

/-- Every core's and die's writes to a line made visible at home. -/
def State.publishLine (s : State) (ln : Nat) : State :=
  let s := s.cores.foldl (fun s (p : Nat × Core) => s.flushLine (p.1 / 64) (p.1 % 64) ln) s
  s.dies.foldl (fun s (p : Nat × Die) => s.flushDieLine p.1 ln) s

/-- A pending accumulator flushed at .dv: the value of R81, and the accumulator cleared; the core on whose account it is flushed, if any, reads
it from then on (R92, R101). In a compressed page the write goes to the controller under the numbers of what waits for it (R105, R306). -/
def State.flushFor (s : State) (core : Option (Nat × Nat)) (team entry lane grid : Nat) (r : RedAcc) : State :=
  let f := fmtOf r.ty
  let n := f.width / 8
  let s := s.publishLine (lineOf r.pa)
  let new := fun (old : Nat) => flushValue f old r.count r.nan r.pinf r.ninf r.sum
  let s := if r.cmp then
      s.hold { team := team, entry := entry, lane := lane, grid := grid, flush := true, proc := r.proc, core := core, va := r.va, pa := r.pa,
               data := leBytes n (new (ofLeBytes (s.pendBytes r.pa n))), irq := none }
    else
      let s := s.homePut r.pa n (new (s.homeNum r.pa n))
      match core with
      | some (d, c) => let k := s.core d c; s.setCore d c { k with clean := tabDel k.clean (lineOf r.pa) }
      | none => s
  { s with reds := s.reds.filter (fun x => decide (x.pa ≠ r.pa ∨ x.ty ≠ r.ty)) }

/-- Pending accumulators that meet a test, flushed on an account. -/
def State.flushReds (s : State) (core : Option (Nat × Nat)) (team entry lane grid : Nat) (p : RedAcc → Bool) : State :=
  (s.reds.filter p).foldl (fun s r => s.flushFor core team entry lane grid r) s

/-- An accumulator overlaps n bytes at an address. -/
def RedAcc.overlaps (r : RedAcc) (pa n : Nat) : Bool :=
  decide (r.pa < pa + n) && decide (pa < r.pa + (fmtOf r.ty).width / 8)

/-- The launch number of the grid of a block; 0 for none. -/
def State.gridOf (s : State) (blk : Nat) : Nat := match s.block blk with | some b => b.grid | none => 0

/-- The flush before a write to any byte of a pending accumulator (R101), on account of a copy's number or a grid. -/
def State.flushBefore (s : State) (core : Option (Nat × Nat)) (own : Nat × Nat) (pa n : Nat) : State :=
  s.flushReds core 0 own.1 0 own.2 (fun r => r.overlaps pa n)

/-- Accumulators that a die's combine table holds: 4096 (R104). -/
def tableSize : Nat := 4096

/-- Accumulators in one die's table, and spilled in its area. -/
def State.redsOn (s : State) (d : Nat) (spilled : Bool) : Nat :=
  (s.reds.filter (fun r => decide (s.homeDie r.pa = d ∧ r.spilled = spilled))).length

/-- Accumulators that the spill area of a die holds: 64 bytes each. -/
def State.spillRoom (s : State) (d : Nat) : Nat := ((s.die d).reg 0x21D).toNat / 64

/-- One contribution (R80); `none` when its accumulator finds no room (R104). -/
def State.contribute (s : State) (core : Option (Nat × Nat)) (proc grid va pa : Nat) (cmp : Bool) (ty : Nat) (x : Word) : Option State :=
  let s := s.flushReds core 0 0 0 grid (fun r => r.overlaps pa ((fmtOf ty).width / 8) && !decide (r.pa = pa ∧ r.ty = ty))
  let v := (fmtOf ty).decode x.toNat
  let add := fun (r : RedAcc) => { r with
    count := r.count + 1
    sum := r.sum + v.int
    nan := r.nan || v.isNan
    pinf := r.pinf || decide (v = .inf false)
    ninf := r.ninf || decide (v = .inf true)
    grids := if r.grids.contains grid then r.grids else grid :: r.grids }
  if s.reds.any (fun r => decide (r.pa = pa)) then
    some { s with reds := s.reds.map (fun r => if r.pa = pa then add r else r) }
  else
    let d := s.homeDie pa
    let full := decide (tableSize ≤ s.redsOn d false)
    if full ∧ s.spillRoom d ≤ s.redsOn d true then none
    else some { s with reds := s.reds ++ [add { proc := proc, pa := pa, ty := ty, va := va, cmp := cmp, sum := 0, nan := false, pinf := false, ninf := false,
                                                 count := 0, grids := [], spilled := full }] }

/-- RED_SPILL_LOW: a RED.det first finds the spill area of die d full. It stalls from now on, and the agents of that die write a
record of TYPE 2 (R104, R407). -/
def State.spillLow (s : State) (t : Team) (e : Entry) (ty d : Nat) : State :=
  (s.setTeam (t.setEntry { e with work := .redDet ty (max 1 (s.die t.die).rclk.toNat) })).raiseFault d
    { proc := 0, va := 0, vpage := 0, kind := 0, level := 0, source := 0, core := 0xFF, ty := 2, written := false }

/-! ## Writing -/

/-- Bytes written by a core's access of a scope to physical memory: a device window, or storage after the flush of R101. -/
def State.writeGlobal (s : State) (scope d c : Nat) (own : Nat × Nat) (pa : Nat) (bs : List Byte) : State :=
  if s.isWindow pa then s.windowWrite pa bs
  else
    let s := s.flushBefore (some (d, c)) own pa bs.length
    (s.storeBytes scope d c pa bs).cleanOwn d c [(pa, bs.length)]

/-- A write to a compressed page put to its home controller (R306), with the interrupt that it raises once it is visible. -/
def State.holdWrite (s : State) (t : Team) (e : Entry) (l pa : Nat) (bs : List Byte) (irq : Option Nat) : State :=
  (s.flushBefore (some (t.die, t.core)) (0, s.gridOf t.block) pa bs.length).hold
    { team := t.id, entry := e.order, lane := l, grid := 0, proc := t.proc, core := some (t.die, t.core)
      va := (e.addr.getD l 0).toNat, pa := pa, data := bs, irq := irq }

/-- The sectors that a lane is about to write, noted as they stand: the write is not mx-ready yet (R96). -/
def State.noteWrite (s : State) (t : Team) (l : Nat) (sp : Space) (p : At) (n : Nat) : State :=
  match p with
  | .mem pa _ => if s.isWindow pa then s else s.noteSectors t l 15 15 (sectorsFrom 0 0 pa n)
  | .bank o => (match s.block t.block with | some b => s.noteSectors t l 15 15 (b.sectors sp o n) | none => s)
  | _ => s

/-- One lane's bytes written where it accesses; a lane held at a controller stays with its entry. -/
def State.writeLane (s : State) (t : Team) (e : Entry) (m : MemOp) (l : Nat) (p : At) (bs : List Byte) : State :=
  let s := s.noteWrite t l m.space p bs.length
  match p with
  | .mem pa true => s.holdWrite t e l pa bs none
  | .mem pa false => s.writeGlobal m.scope t.die t.core (0, s.gridOf t.block) pa bs
  | .bank o =>
    (match s.block t.block with
     | some b => s.setBank b m.space ((s.bankOf b m.space).write o bs)
     | none => s)
  | _ => s

/-- Lanes whose write waits at a controller. -/
def heldLanes (ps : List (Nat × At)) : Mask :=
  ps.foldl (fun m p => match p.2 with | .mem _ true => maskPut m p.1 true | _ => m) 0

/-- PROTECTION_REFUSAL (R213): the entry stands dropped with its flags counted, and the team traps. -/
def State.refusalTrap (s : State) (id order : Nat) : State :=
  match s.team id with
  | none => s
  | some t =>
    match t.entries.find? (fun e => decide (e.order = order)) with
    | none => s
    | some e =>
      (s.setTeam ((t.setEntry { e with dropped := true, waits := [] }).dropStep order)).trapTeam id
        { cause := 0x0B, sub := e.refCause, tpc := e.pc, thdr := e.hdr, lanes := e.refused, info := 0, faddr := e.refAddr, next := false }

/-- Rows 3 to 6 of R212 for a write-side entry: refused lanes logged and trapped, faulting lanes waited for, and when every lane
passes, the writes themselves. Lanes whose writes wait at a controller have passed: they wait there (R211, R306). -/
def State.writeSide (s : State) (t : Team) (e : Entry) (ps : List (Nat × At)) (act : State → State) : State :=
  let (bad, cause) := refusing e ps
  if s.waitsHeld t.id e.order none then s
  else if bad ≠ 0 ∨ e.refused ≠ 0 then (s.refuseEntry t e bad cause 0).refusalTrap t.id e.order
  else match faulting ps with
  | [] => if ps.any (fun p => s.heldAt p.2) then s else act s
  | fs => s.waitFaults t.id e fs

/-- An entry whose lanes have been performed, but for those held at a controller. -/
def State.closeLanes (s : State) (id order : Nat) (held : Mask) : State :=
  match s.team id with
  | none => s
  | some t =>
    match t.entries.find? (fun x => decide (x.order = order)) with
    | none => s
    | some e => if held = 0 then s.setTeam (t.finish e) else s.setTeam (t.setEntry { e with lmask := held })

/-- The bytes of a store's lane: elements of esz bytes; of a tile access, each at its own plane. -/
def storeBytesOf (esz : Nat) (ws : List Word) : List Byte := ws.flatMap (fun w => leBytes esz (w.toNat % 2 ^ (8 * esz)))

/-- A lane of a store written. -/
def State.storeLane (s : State) (t : Team) (e : Entry) (m : MemOp) (l : Nat) (p : At) : State :=
  let ws := e.data.getD l []
  match m.space, p with
  | .tile, .bank o =>
    let n := 8 * esize m.ty
    (mapIx (fun i w => (i, w)) ws).foldl (fun s iw =>
      s.writeLane t e m l (.bank (o + 8192 * (m.esz / 2) * iw.1)) (leBytes m.esz (iw.2.toNat % 2 ^ n))) s
  | _, p => s.writeLane t e m l p (storeBytesOf m.esz ws)

/-- The physical addresses and sizes that the lanes of a store write at once. -/
def plainWrites (m : MemOp) (ps : List (Nat × At)) : List (Nat × Nat) :=
  ps.filterMap (fun p => match p.2 with | .mem pa false => some (pa, m.esz * m.cnt) | _ => none)

/-- A store performed at its point, its lanes one write as to the poison of lines (R447): lanes in increasing rank (R85), after its release (R89). -/
def State.storeStep (s : State) (t : Team) (e : Entry) (m : MemOp) : State :=
  let ps := (lanesOf e.lmask).map (fun l => (l, s.place t e m kindWrite l))
  s.writeSide t e ps (fun s =>
    let s := if m.rel then s.releaseBy m.scope t e.emask else s
    ((ps.foldl (fun s p => s.storeLane t e m p.1 p.2) s).cleanOwn t.die t.core (plainWrites m ps)).closeLanes t.id e.order (heldLanes ps))

/-- An SST performed. -/
def State.sstoreStep (s : State) (t : Team) (e : Entry) (pair : Bool) (scope : Nat) (rel : Bool) : State :=
  s.storeStep t e { space := .global, scope := scope, acq := false, rel := rel, esz := 4, cnt := if pair then 2 else 1, ty := 1,
                    fmt := false, nf := false }

/-! ## Atomics (R221 to R224) -/

/-- The new value of an op (R221, R222). -/
def atomValue (op ty old x : Nat) : Nat :=
  let flt := decide (2 ≤ ty ∧ ty ≤ 4)
  let o : Rnd := { f := fmtOf ty, mode := 1, sat := false, fo := false }
  let a := (fmtOf ty).decode old
  let b := (fmtOf ty).decode x
  let big := fun (u v : Nat) => if ty = 0 then decide (sextN 32 u < sextN 32 v) else decide (u < v)
  match op with
  | 0 => if flt then (o.add a b).bits else (old + x) % 2 ^ 32
  | 1 => if flt then (o.minmax false a b).bits else if big x old then x else old
  | 2 => if flt then (o.minmax true a b).bits else if big old x then x else old
  | 3 => Nat.land old x
  | 4 => Nat.lor old x
  | 5 => Nat.xor old x
  | 6 => x
  | _ => if x ≤ old then 0 else (old + 1) % 2 ^ 32

/-- The bytes that an atomic lane finds: as the writes that wait at the controller leave them, or those at its point. -/
def State.atomRead (s : State) (t : Team) (e : Entry) (m : MemOp) (p : At) : State × Nat × Bool :=
  match p with
  | .mem pa true =>
    (s, ofLeBytes (s.pendBytes pa m.esz), s.lineBad pa)
  | .mem pa false =>
    let k := s.core t.die t.core
    let s := s.setCore t.die t.core { k with clean := tabDel k.clean (lineOf pa) }
    let (s, bs, bad) := s.readGlobal m.scope t.die t.core pa m.esz
    (s, ofLeBytes bs, bad)
  | .bank o =>
    (match s.block t.block with
     | some b => let k := s.bankOf b m.space; (s, ofLeBytes (k.read o m.esz), k.poisoned o m.esz)
     | none => (s, 0, false))
  | _ => (s, 0, false)

/-- A lane that an atomic would read as uncorrectable data, as a refused one with cause 9 (R212 row 6). -/
def State.atomPlace (s : State) (t : Team) (e : Entry) (m : MemOp) (l : Nat) : At :=
  match s.place t e m kindAtomic l with
  | .mem pa c => if s.readBad (s.pointAt m.scope t.die t.core pa) pa then .refuse 9 else .mem pa c
  | .bank o => if (match s.block t.block with | some b => (s.bankOf b m.space).poisoned o m.esz | none => false) then .refuse 9 else .bank o
  | p => p

/-- The sums pending at a lane's address flushed, as before a write of it (R101). -/
def State.flushAt (s : State) (t : Team) (p : At) (n : Nat) : State :=
  match p with | .mem pa _ => s.flushBefore (some (t.die, t.core)) (0, s.gridOf t.block) pa n | _ => s

/-- One lane of ATOM or RED: the old value, and the memory after it. -/
def State.rmwLane (s : State) (t : Team) (e : Entry) (m : MemOp) (op l : Nat) (p : At) : State × Nat :=
  let x := ((e.data.getD l []).headD 0).toNat % 2 ^ (8 * m.esz)
  let (s, old, _) := (s.flushAt t p m.esz).atomRead t e m p
  (s.writeLane t e m l p (leBytes m.esz (atomValue op m.ty old x)), old)

/-- One lane of CAS: the old value, the memory after it, and whether it wrote. One that does not compare equal is a read only (R223). DESIGN
CHOICE (log entry 57): one that would write flushes the sums pending at its address first and compares what the flush left. -/
def State.casLane (s : State) (t : Team) (e : Entry) (m : MemOp) (l : Nat) (p : At) : State × Nat × Bool :=
  let ws := e.data.getD l []
  let x := (ws.headD 0).toNat
  let (s, old, _) := s.atomRead t e m p
  if old ≠ x then (s, old, false)
  else
    let (s, old, _) := (s.flushAt t p m.esz).atomRead t e m p
    if old ≠ x then (s, old, false) else (s.writeLane t e m l p (leBytes m.esz (ws.getD 1 0).toNat), old, true)

/-- The lanes of ATOM, RED or CAS one after another in increasing rank (R85, R221): the state, the old values, and the lanes that wrote. -/
def State.atomLanes (s : State) (t : Team) (e : Entry) (m : MemOp) (k : AtomKind) (op : Nat) (ps : List (Nat × At)) :
    State × List (Nat × List Elem) × Mask :=
  ps.foldl (fun (a : State × List (Nat × List Elem) × Mask) p =>
    let (s, old, wrote) : State × Nat × Bool := match k with
      | .cas => a.1.casLane t e m p.1 p.2
      | _ => let (s, old) := a.1.rmwLane t e m op p.1 p.2; (s, old, true)
    (s, a.2.1 ++ [(p.1, [Elem.ofWord (BitVec.ofNat 32 old)])], if wrote then maskPut a.2.2 p.1 true else a.2.2)) (s, [], 0)

/-- ATOM, RED or CAS performed; its release comes before its first write, and one that writes nothing makes none (R89, R223). -/
def State.atomStep (s : State) (t : Team) (e : Entry) (m : MemOp) (k : AtomKind) (op : Nat) : State :=
  let ps := (lanesOf e.lmask).map (fun l => (l, s.atomPlace t e m l))
  s.writeSide t e ps (fun s =>
    let s := if m.rel ∧ (s.atomLanes t e m k op ps).2.2 ≠ 0 then s.releaseBy m.scope t e.emask else s
    let (s, vs, wrote) := s.atomLanes t e m k op ps
    let s := if m.acq then s.acquire m.scope t.die t.core else s
    let s := match k, s.team t.id with
      | .red, _ => s
      | _, some t => s.setTeam (t.deliver e vs)
      | _, none => s
    s.closeLanes t.id e.order (heldLanes ps &&& wrote))

/-- RED.det: one contribution of each lane, all or none (R80, R85, R104). -/
def State.redStep (s : State) (t : Team) (e : Entry) (ty since : Nat) : State :=
  let m : MemOp := { space := .global, scope := 5, acq := false, rel := false, esz := esize ty, cnt := 1, ty := ty, fmt := false, nf := false }
  let ps := (lanesOf e.lmask).map (fun l => (l, s.place t e m kindAtomic l))
  let grid := match s.block t.block with | some b => b.grid | none => 0
  s.writeSide t e ps (fun s =>
    let go := ps.foldl (fun (a : Option State × Nat) p =>
      match a.1, p.2 with
      | some s, .mem pa c => (s.contribute (some (t.die, t.core)) t.proc grid (e.addr.getD p.1 0).toNat pa c ty ((e.data.getD p.1 []).headD 0), s.homeDie pa)
      | x, _ => (x, a.2)) (some s, 0)
    match go.1 with
    | some s => s.closeLanes t.id e.order 0
    | none => if since = 0 then s.spillLow t e ty go.2 else s)

/-- The host interrupt vector of the queue that a grid descends from (R232). -/
def State.queueVec (s : State) (grid : Nat) : Option Nat :=
  match s.rootOf 16 grid with
  | some (q, _) => (s.queue q).map (fun x => x.vec)
  | none => none

/-- SIG (R232): 8-byte updates at .sy in increasing lane rank, each a release; a lane's interrupt follows once its value is visible to the host.
DESIGN CHOICE (log entry 58): SIG.irq raises one interrupt for each lane of E. -/
def State.sigStep (s : State) (t : Team) (e : Entry) (op : Nat) (irq : Bool) : State :=
  let m : MemOp := { space := .global, scope := 6, acq := false, rel := true, esz := 8, cnt := 1, ty := 1, fmt := false, nf := false }
  let ps := (lanesOf e.lmask).map (fun l => (l, s.atomPlace t e m l))
  let grid := match s.block t.block with | some b => b.grid | none => 0
  s.writeSide t e ps (fun s =>
    let s := s.releaseBy 6 t e.emask
    let vec := if irq then s.queueVec grid else none
    let s := ps.foldl (fun (s : State) p =>
      let ws := e.data.getD p.1 []
      let x := ((ws.getD 1 0) ++ (ws.getD 0 0) : DWord).toNat
      let (s, old, _) := (s.flushAt t p.2 8).atomRead t e m p.2
      let v := match op with | 0 => x | 1 => (old + x) % 2 ^ 64 | _ => (old + 2 ^ 64 - x) % 2 ^ 64
      match p.2 with
      | .mem pa true => (s.noteWrite t p.1 .global p.2 8).holdWrite t e p.1 pa (leBytes 8 v) vec
      | q =>
        let s := s.writeLane t e m p.1 q (leBytes 8 v)
        match vec with | some i => s.irq i | none => s) s
    s.closeLanes t.id e.order (heldLanes ps))

/-- RFLUSH (R233): the accumulators that overlap each lane's aligned word; a refused lane is skipped with no trap and no log;
a faulting lane waits. RFLUSH.all: every accumulator of the process. A lane is done when no flush of its waits at a controller. -/
def State.rflushStep (s : State) (t : Team) (e : Entry) (all : Bool) : State :=
  let core := some (t.die, t.core)
  if all then
    let s := s.flushReds core t.id e.order 64 0 (fun r => decide (r.proc = t.proc))
    if s.waitsHeld t.id e.order none then s else s.closeLanes t.id e.order 0
  else
    let m : MemOp := { space := .global, scope := 5, acq := false, rel := false, esz := 4, cnt := 1, ty := 1, fmt := false, nf := false }
    let e4 := { e with addr := e.addr.map (fun (a : DWord) => a &&& ~~~ 3) }
    let ps := (lanesOf e.lmask).map (fun l => (l, s.place t e4 m kindRead l))
    match faulting ps with
    | [] =>
      let s := ps.foldl (fun (s : State) p => match p.2 with
        | .mem pa _ => if s.lineBad pa then s else s.flushReds core t.id e.order p.1 0 (fun r => r.overlaps pa 4)
        | _ => s) s
      s.closeLanes t.id e.order (maskOf t.width (fun l => e.lmask.getLsbD l && s.waitsHeld t.id e.order (some l)))
    | fs => s.waitFaults t.id e fs

/-! ## FIFO banks (R218, R299) -/

/-- A waiting FIFO operation of the same direction on the same bank arrived there earlier; seq 0 stands for one that has not arrived. -/
def State.fifoBefore (s : State) (blk k seq : Nat) (push : Bool) : Bool :=
  let first := fun (q : Nat) => decide (q ≠ 0) && (decide (seq = 0) || decide (q < seq))
  (s.teamsOf blk).any (fun t => (t.entries.drop t.suspended).any (fun x => !x.dropped &&
    match x.work with
    | .fifoPush j q => push && decide (j = k) && first q
    | .fifoPop j q => !push && decide (j = k) && first q
    | _ => false))

/-- A FIFO operation that cannot be performed yet arrives at its bank and waits its turn there (R299). -/
def State.fifoArrive (s : State) (t : Team) (e : Entry) : State :=
  let next := { s with nextId := s.nextId + 1 }
  match e.work with
  | .fifoPush k 0 => next.setTeam (t.setEntry { e with work := .fifoPush k s.nextId })
  | .fifoPop k 0 => next.setTeam (t.setEntry { e with work := .fifoPop k s.nextId })
  | _ => s

/-- Elements that a FIFO bank holds (R218). -/
def fifoSize : Nat := 12288

/-- A push or pop performed when room or elements suffice and none before it waits; else it waits at the bank. -/
def State.fifoStep (s : State) (t : Team) (e : Entry) : State :=
  match s.block t.block with
  | none => s
  | some b =>
    let ls := lanesOf e.lmask
    match e.work with
    | .fifoPush k seq =>
      let q := b.fifos.getD k []
      if s.fifoBefore b.id k seq true ∨ fifoSize < q.length + ls.length then s.fifoArrive t e
      else
        let q := q ++ ls.map (fun l => Elem.ofWord ((e.data.getD l []).headD 0))
        (s.setBlock { b with fifos := setAt b.fifos k q }).setTeam (t.finish e)
    | .fifoPop k seq =>
      let q := b.fifos.getD k []
      if s.fifoBefore b.id k seq false ∨ q.length < ls.length then s.fifoArrive t e
      else
        let t := t.deliver e (mapIx (fun i l => (l, [q.getD i Elem.zero])) ls)
        (s.setBlock { b with fifos := setAt b.fifos k (q.drop ls.length) }).setTeam (t.finish e)
    | _ => s

/-! ## CPS (R229, R302) -/

/-- A CPS's reads and scratchpad writes: refused and uncorrectable lanes write zeros, marked poisoned; a destination outside
the allocation refuses the instruction (R212, R213). Its count then falls. -/
def State.cpsStep (s : State) (t : Team) (e : Entry) (m : MemOp) (n : Nat) (ph : Word) : State :=
  match s.block t.block with
  | none => s
  | some b =>
    let size := m.esz * m.cnt
    let off := fun l => ((e.data.getD l []).headD 0).toNat
    let out := (lanesOf e.lmask).filter (fun l => !b.scratch.inside (off l) size)
    if out ≠ [] then
      let bad := out.foldl (fun k l => maskPut k l true) 0
      let e' := { e with addr := mapIx (fun l a => if out.contains l then BitVec.ofNat 64 (off l) else a) e.addr }
      let s := s.logViolation t.die t.core (off (out.headD 0)) e.pc.toNat t.proc 8 kindWrite 0 (out.headD 0)
      (s.setTeam (t.setEntry (e'.refuse bad 8))).refusalTrap t.id e.order
    else
      let ps := (lanesOf e.lmask).map (fun l => (l, s.place t e m kindRead l))
      if ps.any (fun p => s.heldAt p.2) then s
      else match faulting ps with
      | [] =>
        let (bad, cause) := refusing e ps
        let s := s.refuseEntry t e bad cause 0
        let s := ps.foldl (fun (s : State) p =>
          let (s, bs, bad) := match p.2 with | .mem pa _ => s.readGlobal m.scope t.die t.core pa size | _ => (s, [], true)
          match s.block t.block with
          | some b =>
            let k := if bad then (b.scratch.write (off p.1) (List.replicate size 0)).mark (off p.1) size else b.scratch.write (off p.1) bs
            (s.setBlock { b with scratch := k }).sectorsReady (b.sectors .scratch (off p.1) size)
          | none => s) s
        (match s.block t.block with
         | some b =>
           ((s.setBlock { b with bars := mapIx (fun i (x : Barrier) => if i = n then x.cpsDone ph else x) b.bars }).closeLanes
             t.id e.order 0).barComplete b.id n
         | none => s)
      | fs => s.waitFaults t.id e fs

/-! ## FENCE, PREF, CCTL (R91, R230, R231) -/

/-- A read or a write that a fence waits for. -/
def Work.reads : Work → Bool
  | .load _ => true
  | .atomic .. => true
  | .sload .. => true
  | .fifoPop .. => true
  | .cps .. => true
  | _ => false

/-- FENCE: its flags clear when the accesses it covers are performed and visible, or its reads have returned and the L1 is
invalidated (R91). -/
def State.fenceStep (s : State) (t : Team) (e : Entry) (kind scope : Nat) : State :=
  let es := t.before e
  let wait := match kind with
    | 0 => es.any (fun x => x.work.writes)
    | 1 => es.any (fun x => x.work.reads)
    | _ => es.any (fun x => x.work.accesses)
  if wait then s
  else
    let s := if 2 ≤ kind then s.releaseBy scope t e.emask else s
    let s := if kind = 0 then s.lanesReady t.id e.emask false else s
    let s := if kind = 1 ∨ kind = 3 then s.acquire scope t.die t.core else s
    s.closeLanes t.id e.order 0

/-- Lines of the lanes of an entry that translate. -/
def State.linesOf (s : State) (t : Team) (e : Entry) : List Nat :=
  ((lanesOf e.lmask).filterMap (fun l => match s.translate t.die t.core t.proc e.priv kindRead (e.addr.getD l 0) with
    | .ok pa _ => if s.isWindow pa then none else some (lineOf pa)
    | _ => none)).eraseDups

/-- PREF: the lines come into the core's L1; in the model the die cache holds every line already. -/
def State.prefStep (s : State) (t : Team) (e : Entry) (level : Nat) : State :=
  let s := if level = 0 then (s.linesOf t e).foldl (fun s ln => s.touchLine t.die t.core ln) s else s
  s.closeLanes t.id e.order 0

/-- CCTL: 0 .wb, 1 .inv, 2 .invall. -/
def State.cctlStep (s : State) (t : Team) (e : Entry) (op : Nat) : State :=
  let d := t.die
  let c := t.core
  let s := match op with
    | 2 => let s := s.flushCore d c; s.setCore d c { s.core d c with clean := [] }
    | _ => (s.linesOf t e).foldl (fun s ln =>
        let s := s.flushLine d c ln
        if op = 1 then let k := s.core d c; s.setCore d c { k with clean := tabDel k.clean ln } else s) s
  s.closeLanes t.id e.order 0

/-! ## The events -/

/-- LOAD_COMPLETE. -/
def execLoadComplete (team entry : Nat) (s : State) : Res :=
  .next (match s.ready team entry with
    | some (t, e) => (match e.work with
        | .load m => s.loadStep t e m
        | .sload sd p sc a => s.sloadStep t e sd p sc a
        | _ => s)
    | none => s)

/-- STORE_PERFORMED (R92, R213). -/
def execStorePerformed (team entry : Nat) (s : State) : Res :=
  .next (match s.ready team entry with
    | some (t, e) => (match e.work with
        | .store m => s.storeStep t e m
        | .sstore p sc r => s.sstoreStep t e p sc r
        | .rflush all => s.rflushStep t e all
        | _ => s)
    | none => s)

/-- ATOMIC_PERFORMED (R221, R224, R232). -/
def execAtomicPerformed (team entry : Nat) (s : State) : Res :=
  .next (match s.ready team entry with
    | some (t, e) => (match e.work with
        | .atomic m k op => s.atomStep t e m k op
        | .redDet ty since => s.redStep t e ty since
        | .sig op irq => s.sigStep t e op irq
        | _ => s)
    | none => s)

/-- PROTECTION_REFUSAL: a write-side entry with a refused lane (R213). -/
def execProtectionRefusal (team entry : Nat) (s : State) : Res :=
  .next (match s.ready team entry with
    | some (t, e) =>
      let m := match e.work with | .store m => some (m, kindWrite) | .atomic m _ _ => some (m, kindAtomic) | _ => none
      (match m with
       | some (m, kind) =>
         let ps := (lanesOf e.lmask).map (fun l => (l, if kind = kindAtomic then s.atomPlace t e m l else s.place t e m kind l))
         if (refusing e ps).1 ≠ 0 ∨ e.refused ≠ 0 then s.writeSide t e ps (fun s => s) else s
       | none => if e.refused ≠ 0 ∧ e.work.refusable then s.refusalTrap team entry else s)
    | none => s)

/-- CPS_WRITE_PERFORMED (R229). -/
def execCpsWritePerformed (team entry : Nat) (s : State) : Res :=
  .next (match s.ready team entry with
    | some (t, e) => (match e.work with | .cps m n ph => s.cpsStep t e m n ph | _ => s)
    | none => s)

/-- FIFO_OP_PERFORMED (R218). -/
def execFifoOpPerformed (team entry : Nat) (s : State) : Res :=
  .next (match s.ready team entry with
    | some (t, e) => s.fifoStep t e
    | none => s)

/-- FENCE_COMPLETE (R91). -/
def execFenceComplete (team entry : Nat) (s : State) : Res :=
  .next (match s.ready team entry with
    | some (t, e) => (match e.work with | .fence k sc => s.fenceStep t e k sc | _ => s)
    | none => s)

/-- PREF_ACCEPTED (R230). -/
def execPrefAccepted (team entry : Nat) (s : State) : Res :=
  .next (match s.ready team entry with
    | some (t, e) => (match e.work with | .pref lv => s.prefStep t e lv | _ => s)
    | none => s)

/-- CCTL_COMPLETE (R231). -/
def execCctlComplete (team entry : Nat) (s : State) : Res :=
  .next (match s.ready team entry with
    | some (t, e) => (match e.work with | .cctl op => s.cctlStep t e op | _ => s)
    | none => s)

/-- WRITE_VISIBLE (R87): the writes of a core to a line become visible at its die cache, or a die's at home. -/
def execWriteVisible (die : Nat) (core : Option Nat) (line : Nat) (s : State) : Res :=
  .next (match core with
    | some c => s.flushLine die c line
    | none => s.flushDieLine die line)

end Sys2Proof.Machine
end

