-- ==== Sys2Proof/Machine/Engine.lean ====
section
/-!
DEFINITION. Machine/Engine: bytes that the matrix engine and the copy engine read and write for a team or a packet
(R97 to R99, R250, R261), and the records that engine replay keeps (R432).
-/

namespace Sys2Proof.Machine

/-- For whom an engine works: die and core of the translation, process, privilege, the block whose on-chip memories it names, and
whether the driver has refused the page faults it waited on (R402). -/
structure Eng where
  die : Nat
  core : Nat
  proc : Nat
  priv : Bool
  block : Nat
  refuse : Bool := false
  deriving DecidableEq, Repr

/-- The engine working for a team's entry. -/
def engOf (t : Team) (priv : Bool) : Eng := { die := t.die, core := t.core, proc := t.proc, priv := priv, block := t.block }

/-- Why an engine goes no further: a page fault, a refusal with its log cause (9 for uncorrectable data), each with the kind of
access, or data held at a controller. -/
inductive Halt where
  | fault (va level kind : Nat)
  | refuse (va cause kind : Nat)
  | hold
  deriving DecidableEq, Repr

/-- A place of bytes: an on-chip memory of the block, or physical memory with its virtual address, of a compressed page or not. -/
inductive Piece where
  | bank (sp : Space) (off n : Nat)
  | mem (pa n va : Nat) (cmp : Bool)
  deriving DecidableEq, Repr

/-- The pieces of n bytes of a compressed page, a 512-byte block at a time (R305). -/
def blockPieces (pa n va : Nat) : List Piece :=
  (List.range ((pa + n - 1) / 512 - pa / 512 + 1)).map (fun i =>
    let lo := if i = 0 then pa else (pa / 512 + i) * 512
    .mem lo (min (pa + n) ((pa / 512 + i + 1) * 512) - lo) (va + (lo - pa)) true)

/-- The pieces of n bytes at a virtual address, a page at a time. -/
def State.spanPieces (s : State) (x : Eng) (kind va n : Nat) : Except Halt (List Piece) :=
  if n = 0 then .ok []
  else (List.range (pageOf (va + n - 1) - pageOf va + 1)).foldl (fun (acc : Except Halt (List Piece)) i =>
    match acc with
    | .ok l =>
      let lo := if i = 0 then va else (pageOf va + i) * 65536
      let hi := min (va + n) ((pageOf va + i + 1) * 65536)
      (match s.translate x.die x.core x.proc x.priv kind (BitVec.ofNat 64 lo) with
       | .ok pa c =>
         if s.target (pa + (hi - lo) - 1) = .none then .error (.refuse lo 6 kind)
         else if !c then .ok (l ++ [.mem pa (hi - lo) lo c])
         else
           let ps := blockPieces pa (hi - lo) lo
           if ps.any (fun p => match p with | .mem a _ _ _ => s.blockHeld a | _ => false) then .error .hold else .ok (l ++ ps)
       | .fault lv => .error (if x.refuse then .refuse lo 10 kind else .fault lo lv kind)
       | .refuse r => .error (.refuse lo r kind))
    | e => e) (.ok [])

/-- The pieces of n bytes at an address of a space; outside an allocation they are refused with cause 8. -/
def State.engPieces (s : State) (x : Eng) (kind : Nat) (sp : Space) (a n : Nat) : Except Halt (List Piece) :=
  match sp with
  | .scratch => (match s.block x.block with
      | some b => if b.scratch.inside a n then .ok [.bank sp a n] else .error (.refuse a 8 kind)
      | none => .error (.refuse a 8 kind))
  | .tile => (match s.block x.block with
      | some b => if (s.bankOf b .tile).inside a n then .ok [.bank sp a n] else .error (.refuse a 8 kind)
      | none => .error (.refuse a 8 kind))
  | _ => s.spanPieces x kind a n

/-- Bytes of a piece at a scope, and whether a word or line of it is uncorrectable. -/
def State.pieceRead (s : State) (x : Eng) (scope : Nat) (p : Piece) : State × List Byte × Bool :=
  match p with
  | .bank sp o n => (match s.block x.block with
      | some b => let k := s.bankOf b sp; (s, k.read o n, k.poisoned o n)
      | none => (s, List.replicate n 0, true))
  | .mem pa n _ _ => s.readGlobal scope x.die x.core pa n

/-- Bytes read by an engine; uncorrectable data is a refusal with cause 9. -/
def State.engRead (s : State) (x : Eng) (scope : Nat) (sp : Space) (a n : Nat) : Except Halt (State × List Byte) :=
  match s.engPieces x kindRead sp a n with
  | .error h => .error h
  | .ok ps =>
    let (s, bs, bad) := ps.foldl (fun (r : State × List Byte × Bool) p =>
      let (s, b, q) := r.1.pieceRead x scope p
      (s, r.2.1 ++ b, r.2.2 || q)) (s, [], false)
    if bad then .error (.refuse a 9 kindRead) else .ok (s, bs)

/-- A piece written at a scope; a compressed page's write waits at its controller under an owner's numbers (R306), and so does a flush that it
forces, under the copy's number or the grid of the engine's block. -/
def State.pieceWrite (s : State) (x : Eng) (scope team entry : Nat) (p : Piece) (bs : List Byte) (pois : Bool := false) : State :=
  let own := if team = 0 then (entry, 0) else (0, s.gridOf x.block)
  match p with
  | .bank sp o _ => (match s.block x.block with
      | some b => s.setBank b sp ((s.bankOf b sp).write o bs)
      | none => s)
  | .mem pa _ _ false => s.writeGlobal scope x.die x.core own pa bs
  | .mem pa _ va true =>
    (s.flushBefore (some (x.die, x.core)) own pa bs.length).hold
      { team := team, entry := entry, lane := 64, grid := 0, proc := x.proc, core := some (x.die, x.core), va := va, pa := pa, data := bs
        pois := pois, irq := none }

/-- Size of a piece. -/
def Piece.size : Piece → Nat
  | .bank _ _ n => n
  | .mem _ n _ _ => n

/-- Where the sectors of a piece lie: space, number of the block or allocation, first byte. -/
def State.pieceBase (s : State) (x : Eng) (p : Piece) : Nat × Nat × Nat :=
  match p with
  | .bank .tile o _ => (2, (match s.block x.block with | some b => b.tmem | none => 0), o)
  | .bank _ o _ => (1, x.block, o)
  | .mem pa _ _ _ => (0, 0, pa)

/-- Sectors of a piece. -/
def State.pieceSectors (s : State) (x : Eng) (p : Piece) : List Sector :=
  let b := s.pieceBase x p
  sectorsFrom b.1 b.2.1 b.2.2 p.size

/-- Bytes written over pieces in their order. -/
def State.engWrite (s : State) (x : Eng) (scope team entry : Nat) (ps : List Piece) (bs : List Byte) : State :=
  (ps.foldl (fun (r : State × List Byte) p => (r.1.pieceWrite x scope team entry p (r.2.take p.size), r.2.drop p.size)) (s, bs)).1

/-- Several writes that one instruction has performed over pieces clear the marks of the words and of the lines that they cover whole together (R298,
R447). -/
def State.engClean (s : State) (x : Eng) (ps : List Piece) : State :=
  let covered := fun (sp : Space) (a : Nat) => ps.any (fun p => match p with | .bank q o n => decide (q = sp ∧ o ≤ a ∧ a < o + n) | .mem .. => false)
  let clean := fun (s : State) (sp : Space) => match s.block x.block with
    | some b => if (s.bankOf b sp).pois = [] then s else s.setBank b sp { s.bankOf b sp with
        pois := (s.bankOf b sp).pois.filter (fun w => !(List.range 4).all (fun i => covered sp (4 * w.1 + i))) }
    | none => s
  ([Space.scratch, Space.tile].foldl clean s).cleanOwn x.die x.core (ps.filterMap (fun p => match p with | .mem pa n _ false => some (pa, n) | _ => none))

/-- Writes of an owner still held at a controller. -/
def State.engHeld (s : State) (team entry : Nat) : Bool := s.waitsHeld team entry none

/-! ## Records of engine replay (R432) -/

/-- An accumulator tile in the layout of its image (R421). -/
def tileImage (x : List (Nat × Word)) : List Byte := (List.range 8192).flatMap (fun i => leBytes 4 (defGet 0 x i).toNat)

/-- Size of a record. -/
def erSize : Nat := 0x21000

/-- The oldest engine-log record of a core that is not written yet goes to its place, and the count rises. It waits while a page of the log faults; a
refused one is entered in the violation log and dropped (R402, R405, R432). -/
def State.erFlush (s : State) (d c : Nat) : State :=
  let k := s.core d c
  match k.erQueue with
  | [] => s
  | (p, ps) :: rest =>
    match s.writePieces { Team.reset with die := d, core := c, proc := p } ((k.reg 0x504).toNat + erSize * bitsN (k.reg 0x505) 0 32) ps with
    | .ok s => let k := s.core d c; s.setCore d c { k.setReg 0x505 (k.reg 0x505 + 1) with erQueue := rest }
    | .fault va lv => s.devFault d c p va kindWrite lv 2
    | .refuse va cause => (s.logViolation d c va 0 p cause kindWrite 2 0).setCore d c { (s.logViolation d c va 0 p cause kindWrite 2 0).core d c with erQueue := rest }

/-- A record appended to the engine log of a core while LOG is set and the count is below the capacity: instruction words,
capture block, A values, tile. `misdesc` is a copy whose descriptor had no legal place. -/
def State.erAppend (s : State) (t : Team) (e : Entry) (avals : List Byte) (tile : Option (List (Nat × Word))) (misdesc : Bool) : State :=
  let k := s.core t.die t.core
  let wi := k.reg 0x505
  if !bit (k.reg 0x503) 0 ∨ bitsN wi 32 32 ≤ bitsN wi 0 32 + k.erQueue.length then s
  else
    let lseq := match (s.block t.block).bind (fun b => s.grid b.grid) with | some g => g.number | none => 0
    -- the fourth word holds what replay needs of the team: width, block slot, privilege, misdesc (log entry 70)
    let slot := match s.block t.block with | some b => b.slot | none => 0
    let head := w32Bytes [e.w0, e.w1, e.pfxw, BitVec.ofNat 32 (t.width + slot * 2 ^ 8 + (if e.priv then 2 ^ 16 else 0) + (if misdesc then 2 ^ 17 else 0))] ++
      wordsBytes [e.pc.toNat, t.proc, lseq]
    let ps := [(0, head), (0x40, e.cap), (0x200, avals)] ++
      (match tile with | some x => [(0x10400, tileImage x)] | none => [])
    let s := s.setCore t.die t.core { k with erQueue := k.erQueue ++ [(t.proc, ps)] }
    if k.erQueue = [] then s.erFlush t.die t.core else s

end Sys2Proof.Machine
end

