-- ==== Sys2Proof/Machine/Async.lean ====
section
/-!
DEFINITION. Machine/Async: copies and jobs (R255 to R269, R374), their acceptance and their work, TWAIT (R270) and LNCH (R271, R272).
-/

namespace Sys2Proof.Machine

/-! ## Tags (R257) -/

/-- A tag of a block changed. -/
def State.setTag (s : State) (blk n : Nat) (f : CopyTag → CopyTag) : State :=
  match s.block blk with
  | some b => s.setBlock { b with tags := mapIx (fun i x => if i = n then f x else x) b.tags }
  | none => s

/-! ## Issue (R255, R256, R258) -/

/-- A scalar operand field: 32 bits, or an even pair. -/
def scalarFld (pair : Bool) : Fld := if pair then .spair else .num 24

/-- Copy tags of the block. -/
def State.tagCount (s : State) : Nat := s.myBlock.tags.length

/-- Fields of CPY.l in a block with n tags. -/
def formCpyL (n : Nat) (r : Reg) : Form :=
  { cls := 5, d := .num (min n 64), a := scalarFld (decide (r.xf 2 2 = 0)), b := scalarFld (decide (r.xf 4 2 = 0)), c := .num 24
    x := decide (r.xf 0 2 = 0) && decide (r.xf 2 2 ≠ 3) && decide (r.xf 4 2 ≠ 3) }

/-- Fields of CPY.t, CPY.x and CPYJ. -/
def formCpyD (n sub : Nat) (r : Reg) : Form :=
  { cls := 5, d := .num (min n 64), a := .num 24, x := decide (r.xf 0 6 = sub) }

/-- Registers of a scalar operand. -/
def sregs (i : Nat) (pair : Bool) : List Nat := if pair then [i, i + 1] else [i]

/-- A scalar operand as a number. -/
def Team.snum (t : Team) (i : Nat) (pair : Bool) : Nat := if pair then (t.spair i).toNat else (t.sreg i).val.toNat

/-- The descriptor or job card at a scratchpad offset as issue reads it: `none` where it is misaligned or outside (R266). -/
def State.descAt (s : State) (o : Nat) (tensor : Bool) : Option Nat :=
  let b := s.myBlock
  if o % 64 ≠ 0 ∨ !b.scratch.inside o 64 then none
  else
    let n := if tensor then tdescSize (fieldAt (b.scratch.read (o + 0x10) 1) 0 1) else 64
    if b.scratch.inside o n then some n else none

/-- The submission of a copy joins the queue: its tag is cleared, with a copy in flight (R257, R258). -/
def State.submit (s : State) (r : Reg) (e : Mask) (tg : List (List Nat)) (sub : Nat) (cap : List Byte) : Out :=
  let ent := { s.entry r.fsel e tg (.copy sub r.d r.x) with cap := cap }
  .go (((s.pushEntry ent).setTag s.me.block r.d (fun _ => { done := false, status := 0, busy := true })).erAppend s.me ent [] none (decide (sub ≠ 0) && decide (cap.length = 24)))

/-- The block's tag names a copy in flight. -/
def State.tagBusy (s : State) (n : Nat) : Bool := (s.myBlock.tags.getD n CopyTag.reset).busy

/-- CPY.l. -/
def cpyLBody (r : Reg) (s : State) (e : Mask) (tg : List (List Nat)) : Out :=
  let t := s.me
  let pa := decide (r.xf 2 2 = 0)
  let pb := decide (r.xf 4 2 = 0)
  let regs := sregs r.a pa ++ sregs r.b pb ++ [r.c]
  if t.scalarsBusy regs then .wait
  else if s.tagBusy r.d then .wait
  else if regs.any (fun i => (t.sreg i).pois) then .trap 0x08 e 0 0 0
  else if !s.queueRoom r.fsel then .wait
  else s.submit r e tg 0 (wordsBytes [t.snum r.a pa, t.snum r.b pb, t.snum r.c false])

/-- CPY.t, CPY.x and CPYJ: once no copy with the tag is in flight, the descriptor or card is read at issue (R257, R258). -/
def cpyDBody (sub : Nat) (r : Reg) (s : State) (e : Mask) (tg : List (List Nat)) : Out :=
  let t := s.me
  if t.scalarsBusy [r.a] || s.tagBusy r.d then .wait
  else if (t.sreg r.a).pois then .trap 0x08 e 0 0 0
  else
    let o := t.snum r.a false
    let head := wordsBytes [o, 0, 0]
    match s.descAt o (decide (sub ≠ 3)) with
    | none => if !s.queueRoom r.fsel then .wait else s.submit r e tg sub head
    | some n =>
      if (t.entries.drop t.suspended).any (fun f => !f.dropped && (f.work.acq ||
          (match f.work.extent with
           | some (.scratch, k) => f.work.writes && (lanesOf f.lmask).any (fun l => let a := (f.addr.getD l 0).toNat; decide (a < o + n) && decide (o < a + k))
           | _ => false))) then .wait
      else if s.myBlock.scratch.poisoned o n then .trap 0x08 e 0 0 0
      else if !s.queueRoom r.fsel then .wait
      else s.submit r e tg sub (head ++ s.myBlock.scratch.read o n)

/-- CPY.l. -/
def execCpyL (o : ShortOps) (s : State) : Res := let r := Reg.ofShort 0 o; s.issue (formCpyL s.tagCount r) r (cpyLBody r)
/-- CPY.l, long form. -/
def execCpyLLong (o : LongOps) (s : State) : Res := let r := Reg.ofLong o; s.issue (formCpyL s.tagCount r) r (cpyLBody r)
/-- CPY.t. -/
def execCpyT (o : LongOps) (s : State) : Res := let r := Reg.ofLong o; s.issue (formCpyD s.tagCount 1 r) r (cpyDBody 1 r)
/-- CPY.x. -/
def execCpyX (o : LongOps) (s : State) : Res := let r := Reg.ofLong o; s.issue (formCpyD s.tagCount 2 r) r (cpyDBody 2 r)
/-- CPYJ. -/
def execCpyj (o : ShortOps) (s : State) : Res := let r := Reg.ofShort 0 o; s.issue (formCpyD s.tagCount 0 r) r (cpyDBody 3 r)
/-- CPYJ, long form. -/
def execCpyjLong (o : LongOps) (s : State) : Res := let r := Reg.ofLong o; s.issue (formCpyD s.tagCount 0 r) r (cpyDBody 3 r)

/-! ## Acceptance (R258) -/

/-- The job of a submission. -/
def jobOf (id : Nat) (t : Team) (e : Entry) (sub tag x : Nat) : Job :=
  let q := fun i => BitVec.ofNat 64 (fieldAt e.cap (8 * i) 8)
  let lin := decide (sub = 0)
  { id := id, proc := t.proc, die := t.die, core := t.core, priv := e.priv, pc := e.pc, block := t.block, tag := tag, qid := 0, index := 0,
    stat := 0, form := sub, ssp := if lin then x / 4 % 4 else 0, dsp := if lin then x / 16 % 4 else 0, src := q 0, dst := q 1,
    len := if lin then fieldAt e.cap 16 4 else 0, desc := e.cap.drop 24, misdesc := !lin && decide (e.cap.length = 24), waits := [], refuse := false }

/-- COPY_ACCEPTED: the issuing thread's release at .dv is performed, and the unit holds the submission (R99, R258). -/
def execCopyAccepted (team entry : Nat) (s : State) : Res :=
  .next (match s.ready team entry with
    | some (t, e) =>
      (match e.work with
       | .copy sub tag x =>
         let s := s.releaseBy 5 t e.emask
         let s := { s with nextId := s.nextId + 1, jobs := s.jobs ++ [jobOf s.nextId t e sub tag x] }
         (match s.team team with | some t => s.setTeam (t.finish e) | none => s)
       | _ => s)
    | none => s)

/-! ## Plans of copies -/

/-- One step of a copy: places read, places written, the bytes for each place written from the bytes read, and which places read an output
depends on (R259). -/
structure CopyUnit where
  src : List (Nat × Nat)
  dst : List (Nat × Nat)
  f : List (List Byte) → List (List Byte)
  needs : Nat → List Nat

/-- A copy's spaces, its units in order, and the place of the codebook it reads first, if any. -/
structure CopyPlan where
  ssp : Space
  dsp : Space
  units : List CopyUnit
  aux : Option Nat

/-- Space code of R260 and R261. -/
def spaceCode : Nat → Space
  | 1 => .scratch
  | 2 => .tile
  | _ => .global

/-- An address of a space (R263). -/
def spaceAddr (sp : Space) (a : Int) : Nat := match sp with | .global => (a % (2 ^ 64 : Int)).toNat | _ => (a % (2 ^ 32 : Int)).toNat

/-- CPY.l: every byte on its own. -/
def planLinear (ssp dsp : Space) (a d n : Nat) : CopyPlan :=
  { ssp := ssp, dsp := dsp, aux := none
    units := (List.range n).map (fun i => { src := [(spaceAddr ssp (a + i : Nat), 1)], dst := [(spaceAddr dsp (d + i : Nat), 1)], f := id, needs := fun _ => [0] }) }

/-- Indices of a list of extents in linear order, the first varying fastest (R263). -/
def indices (es : List Nat) : List (List Nat) :=
  (List.range (es.foldl (· * ·) 1)).map (fun k =>
    (es.foldl (fun (a : List Nat × Nat) e => (a.1 ++ [a.2 % e], a.2 / e)) ([], k)).1)

/-- Σ index × stride. -/
def offsetOf (ix : List Nat) (ds : List Int) : Int := (ix.zip ds).foldl (fun a p => a + (p.1 : Int) * p.2) 0

/-- Plain elements, each a byte unit of its own when it is copied unchanged. -/
def planTensor (t : TDesc) : CopyPlan :=
  let ssp := spaceCode (t.fld 4 2)
  let dsp := spaceCode (t.fld 6 2)
  let es := 2 ^ t.fld 8 3
  { ssp := ssp, dsp := dsp, aux := none
    units := (indices (t.dims.map (fun d => d.n))).flatMap (fun ix =>
      let a := (t.src : Int) + offsetOf ix (t.dims.map (fun d => d.ss))
      let b := (t.dst : Int) + offsetOf ix (t.dims.map (fun d => d.ds))
      (List.range es).map (fun (i : Nat) => { src := [(spaceAddr ssp (a + i), 1)], dst := [(spaceAddr dsp (b + i), 1)], f := id, needs := fun _ => [0] })) }

/-- One element converted between plain types (R265). -/
def convertElem (sf df rnd : Nat) (fi fo sat : Bool) (x : Nat) : Nat :=
  let mode := if rnd ≠ 0 then rnd else if (intType sf).isNone && (intType df).isSome then 2 else 1
  let o : Rnd := { f := fmtOf df, mode := mode, sat := sat, fo := fo }
  match intType sf, intType df with
  | some _, some _ => (storeInt df sat (extInt sf x)).toNat
  | some _, none => (o.ofInteger (extInt sf x)).bits
  | none, some _ => (toInteger df mode (((fmtOf sf).decode x).flushIn (fmtOf sf) fi)).1.toNat
  | none, none => (o.convert (((fmtOf sf).decode x).flushIn (fmtOf sf) fi)).bits

/-- The block format of a type code, with MXE5. -/
def blkOf (t : Nat) (e5 : Bool) : Blk := match t with | 13 => .i4x | 14 => .c4 | _ => .mx8 e5

/-- A codebook of 32 bytes. -/
def cbOf (bs : List Byte) : List (BitVec 16) := (List.range 16).map (fun i => BitVec.ofNat 16 (fieldAt bs (2 * i) 2))

/-- CPY.x: convert, quantise, expand; `cb` is the codebook read at AUX. -/
def planXform (t : TDesc) (cb : List (BitVec 16)) : CopyPlan :=
  let ssp := spaceCode (t.fld 4 2)
  let dsp := spaceCode (t.fld 6 2)
  let sf := t.fld 16 4
  let df := t.fld 20 4
  let e5 := decide (t.fld 15 1 = 1)
  let d0 := t.dims.headD { n := 0, ss := 0, ds := 0 }
  let rest := t.dims.drop 1
  let rows := indices (rest.map (fun d => d.n))
  let base := fun (ix : List Nat) => ((t.src : Int) + offsetOf ix (rest.map (fun d => d.ss)), (t.dst : Int) + offsetOf ix (rest.map (fun d => d.ds)))
  let aux := if (decide (sf = 14) || decide (df = 14)) && decide (2 ≤ t.fld 12 3) then some t.aux else none
  match t.fld 12 3 with
  | 1 =>
    { ssp := ssp, dsp := dsp, aux := none
      units := (indices (t.dims.map (fun d => d.n))).map (fun ix =>
        { src := [(spaceAddr ssp ((t.src : Int) + offsetOf ix (t.dims.map (fun d => d.ss))), elemSize sf)]
          dst := [(spaceAddr dsp ((t.dst : Int) + offsetOf ix (t.dims.map (fun d => d.ds))), elemSize df)]
          f := fun bs => [leBytes (elemSize df) (convertElem sf df (t.fld 24 3) (decide (t.fld 28 1 = 1)) (decide (t.fld 29 1 = 1))
                            (decide (t.fld 27 1 = 1)) (ofLeBytes (bs.headD [])))]
          needs := fun _ => [0] }) }
  | 2 =>
    { ssp := ssp, dsp := dsp, aux := aux
      units := rows.flatMap (fun ix => (List.range (d0.n / 32)).map (fun b =>
        { src := (List.range 32).map (fun q => (spaceAddr ssp ((base ix).1 + ((32 * b + q : Nat) : Int) * d0.ss), elemSize sf))
          dst := [(spaceAddr dsp ((base ix).2 + ((b * blockBytes df : Nat) : Int)), blockBytes df)]
          f := fun bs => [(blkOf df e5).quantise cb (bs.map (fun x => (fmtOf sf).decode (ofLeBytes x)))]
          needs := fun _ => List.range 32 })) }
  | _ =>
    { ssp := ssp, dsp := dsp, aux := aux
      units := rows.flatMap (fun ix => (List.range (d0.n / 32)).map (fun b =>
        { src := (List.range (blockBytes sf)).map (fun (i : Nat) => (spaceAddr ssp ((base ix).1 + ((b * blockBytes sf + i : Nat) : Int)), 1))
          dst := (List.range 32).map (fun q => (spaceAddr dsp ((base ix).2 + ((32 * b + q : Nat) : Int) * d0.ds), elemSize df))
          f := fun bs =>
            let x := bs.flatten
            let n := blockBytes sf - 1
            (List.range 32).map (fun q => leBytes (elemSize df)
              (({ f := fmtOf df, mode := 1, sat := false, fo := false } : Rnd).convertDeep
                ((blkOf sf e5).decode (x.take n) (ofLeBytes (x.drop n)) cb q)).bits)
          needs := fun q => [if blockBytes sf = 33 then q else q / 2, blockBytes sf - 1] })) }

/-- The bytes read and the bytes written share a byte of one space (R264); AUX counts among the bytes read. -/
def CopyPlan.overlap (p : CopyPlan) : Bool :=
  let ws := p.units.flatMap (fun u => u.dst)
  let hit := fun (a : Nat × Nat) => ws.any (fun w => decide (a.1 < w.1 + w.2) && decide (w.1 < a.1 + a.2))
  (decide (p.ssp = p.dsp) && p.units.any (fun u => u.src.any hit)) ||
  (match p.aux with | some a => decide (p.dsp = .global) && !p.units.isEmpty && hit (a, 32) | none => false)

/-! ## The work of a copy (R259, R264) -/

/-- The engine of a job. -/
def Job.eng (j : Job) : Eng := { die := j.die, core := j.core, proc := j.proc, priv := j.priv, block := j.block, refuse := j.refuse }

/-- Bytes that a copy reads, and whether a word or line of them is poisoned (R259). -/
def State.copyRead (s : State) (x : Eng) (sp : Space) (a n : Nat) : Except Halt (State × List Byte × Bool) :=
  match s.engPieces x kindRead sp a n with
  | .error h => .error h
  | .ok ps => .ok (ps.foldl (fun (r : State × List Byte × Bool) p =>
      let (s, b, q) := r.1.pieceRead x 5 p
      (s, r.2.1 ++ b, r.2.2 || q)) (s, [], false))

/-- A unit's result: for each place written, its pieces, its bytes, and whether they are poisoned. -/
abbrev CopyOut := List (List Piece × List Byte × Bool)

/-- A unit read and computed, its destinations translated. -/
def State.unitOut (s : State) (x : Eng) (p : CopyPlan) (u : CopyUnit) (auxBad : Bool) : Except Halt (State × CopyOut) :=
  let rd := u.src.foldl (fun (r : Except Halt (State × List (List Byte) × List Bool)) a =>
    match r with
    | .ok (s, l, bad) => (match s.copyRead x p.ssp a.1 a.2 with
        | .ok (s, b, q) => .ok (s, l ++ [b], bad ++ [q])
        | .error h => .error h)
    | e => e) (.ok (s, [], []))
  match rd with
  | .error h => .error h
  | .ok (s, ins, bad) =>
    (mapIx (fun i d => (i, d)) (u.dst.zip (u.f ins))).foldl (fun (r : Except Halt (State × CopyOut)) id =>
      let d := id.2
      match r with
      | .ok (s, l) => (match s.engPieces x kindWrite p.dsp d.1.1 d.1.2 with
          | .ok ps => .ok (s, l ++ [(ps, d.2, auxBad || (u.needs id.1).any (fun i => bad.getD i false))])
          | .error h => .error h)
      | e => e) (.ok (s, []))

/-- A piece that receives poisoned data marked, every line of it (R259); one of a compressed page is marked when its write is merged. -/
def State.poisonPiece (s : State) (x : Eng) (p : Piece) : State :=
  match p with
  | .bank sp o n => (match s.block x.block with
      | some b => s.setBank b sp ((s.bankOf b sp).mark o n)
      | none => s)
  | .mem pa n _ cmp => if cmp then s else s.poisonLines pa n

/-- A piece that goes on where another ends, both as one piece. -/
def Piece.join (p q : Piece) : Option Piece :=
  match p, q with
  | .bank a o n, .bank b u m => if a = b ∧ u = o + n then some (.bank a o (n + m)) else none
  | .mem pa n va c, .mem pb m _ d =>
    if c = d ∧ pb = pa + n ∧ (c = false ∨ pa / 512 = (pb + m - 1) / 512) then some (.mem pa (n + m) va c) else none
  | _, _ => none

/-- The results of a copy with those that follow each other in one memory, clean or poisoned alike, as one write: words and lines that the copy
covers whole are written whole (R298, R447). -/
def joinOuts (outs : CopyOut) : List (Piece × List Byte × Bool) :=
  let flat := outs.flatMap (fun o => (o.1.foldl (fun (a : List (Piece × List Byte × Bool) × List Byte) p =>
    (a.1 ++ [(p, a.2.take p.size, o.2.2)], a.2.drop p.size)) ([], o.2.1)).1)
  ((flat.foldl (fun (a : List (Piece × List Byte × Bool)) o =>
    match a with
    | (p, bs, bad) :: rest =>
      (match if bad = o.2.2 then p.join o.1 else none with
       | some q => (q, o.2.1.reverse ++ bs, bad) :: rest
       | none => (o.1, o.2.1.reverse, o.2.2) :: a)
    | [] => [(o.1, o.2.1.reverse, o.2.2)]) []).reverse).map (fun o => (o.1, o.2.1.reverse, o.2.2))

/-- The writes of a copy performed at .dv in their order, under the job's number; they are mx-ready when the tag completes (R96). -/
def State.copyWrite (s : State) (x : Eng) (job : Nat) (outs : CopyOut) : State :=
  let n := outs.foldl (fun n o => n + o.2.1.length) 0
  (joinOuts outs).foldl (fun s o =>
    let s := (s.pieceWrite x 5 0 job o.1 o.2.1 o.2.2).sectorsReady (s.pieceSectors x o.1)
    if o.2.2 then s.poisonPiece x o.1 else s) (if x.core < 36 then s.count x.die (0x140 + 0x100 * x.core + 0xD0) n else s)

/-- A page fault or a refusal met first among the units, and what the units before and after it that were free of both give. -/
def State.planOut (s : State) (x : Eng) (p : CopyPlan) (auxBad : Bool) : State × CopyOut × Option Halt :=
  p.units.foldl (fun (r : State × CopyOut × Option Halt) u =>
    match r.1.unitOut x p u auxBad with
    | .ok (s, o) => (s, r.2.1 ++ o, r.2.2)
    | .error h =>
      let h' := match r.2.2, h with
        | some (.fault a b k), _ => some (.fault a b k)
        | _, .fault a b k => some (.fault a b k)
        | some k, _ => some k
        | none, h => some h
      (r.1, r.2.1, h')) (s, [], none)

/-- What a job's work comes to: it waits (a page fault, or data held), or ends with a status. -/
inductive JobRes where
  | wait (s : State) (h : Halt)
  | done (s : State) (status : Nat)

/-- One byte of a place. -/
def Piece.at_ (p : Piece) (i : Nat) : Piece :=
  match p with
  | .bank sp o _ => .bank sp (o + i) 1
  | .mem pa _ va c => .mem (pa + i) 1 (va + i) c

/-- A copy that ends with FAULT leaves each destination byte old or new, and one that is new and poisoned marked (R257, R259). -/
def State.faultWrites (s : State) (x : Eng) (job : Nat) (outs : CopyOut) : State :=
  let bytes := outs.flatMap (fun o => ((o.1.flatMap (fun p => (List.range p.size).map p.at_)).zip o.2.1).map (fun b => ([b.1], [b.2], o.2.2)))
  let n := s.fresh
  ({ s with fresh := n + bytes.length } : State).copyWrite x job (((mapIx (fun i b => (i, b)) bytes).filter (fun b => Config.copiedByte (n + b.1))).map (fun b => b.2))

/-- A refused access of a job: entered in the violation log; source 1 copy unit, 3 decompression engine (R259, R405). -/
def State.jobRefused (s : State) (j : Job) (va cause kind : Nat) : State :=
  let source := if j.form = 3 then 3 else 1
  if j.core < 36 then s.logViolation j.die j.core va (if j.form = 3 then 0 else j.pc.toNat) j.proc cause kind source 0
  else s.logFw j.die j.proc va cause kind source

/-- A planned copy carried out whole. -/
def State.runPlan (s : State) (j : Job) (p : CopyPlan) (auxBad : Bool) : JobRes :=
  let (s', outs, h) := s.planOut j.eng p auxBad
  match h with
  | some (.refuse va c k) => .done ((s'.jobRefused j va c k).faultWrites j.eng j.id outs) 3
  | some h => .wait s h
  | none => .done (s'.copyWrite j.eng j.id outs) (if outs.any (fun o => o.2.2) then 4 else 1)

/-- The work of CPY.t and CPY.x: descriptor, overlap, codebook, units. -/
def State.runTensor (s : State) (j : Job) (form : Nat) : JobRes :=
  let t := tdescOf j.desc
  let glob := decide (j.block ≠ 0) || (decide (t.fld 4 2 = 0) && decide (t.fld 6 2 = 0))
  if j.misdesc || !t.ok form || !glob then .done s 5
  else
    let p := if form = 1 then planTensor t else planXform t []
    if p.overlap then .done s 2
    else match p.aux, p.units.isEmpty with
    | some a, false =>
      (match s.copyRead j.eng .global a 32 with
       | .error (.refuse va c k) => .done (s.jobRefused j va c k) 3
       | .error h => .wait s h
       | .ok (s, bs, bad) => s.runPlan j (planXform t (cbOf bs)) bad)
    | _, _ => s.runPlan j p false

/-! ## The decompression engine (R267 to R269) -/

/-- A decoder's progress: output with poison marks, stream position, whether poison was met, and how it ended. -/
structure Jd where
  s : State
  out : List (Byte × Bool)
  q : Nat
  pois : Bool
  /-- A token failed. -/
  bad : Bool
  halt : Option Halt
  /-- Bytes of the token that an output refusal met which lie before the byte refused. -/
  tail : List (Byte × Bool)

/-- A job card's fields. -/
structure Card where
  src : Nat
  dst : Nat
  slen : Nat
  cap : Nat
  hist : Nat
  deriving DecidableEq, Repr

/-- n bytes of the stream with their marks. -/
def Jd.bytes (z : Jd) (x : Eng) (a n : Nat) : Jd × List (Byte × Bool) :=
  (List.range n).foldl (fun (r : Jd × List (Byte × Bool)) (i : Nat) =>
    match r.1.halt with
    | some _ => r
    | none => match r.1.s.copyRead x .global (spaceAddr .global ((a + i : Nat) : Int)) 1 with
      | .ok (s, b, q) => ({ r.1 with s := s }, r.2 ++ [(b.headD 0, q)])
      | .error h => ({ r.1 with halt := some h }, r.2)) (z, [])

/-- Bytes of a match, each from the output or from the history below it. -/
def Jd.matched (z : Jd) (x : Eng) (c : Card) (off : Nat) : Nat → Jd
  | 0 => z
  | n + 1 =>
    match z.halt with
    | some _ => z
    | none =>
      let p := z.out.length
      if off ≤ p then Jd.matched { z with out := z.out ++ [z.out.getD (p - off) (0, false)] } x c off n
      else
        match z.s.copyRead x .global (spaceAddr .global ((c.dst : Int) + p - off)) 1 with
        | .ok (s, b, q) => Jd.matched { z with s := s, out := z.out ++ [(b.headD 0, q)] } x c off n
        | .error h => { z with halt := some h }

/-- One token decoded and committed, or the reason why not; the decoder's earlier progress stands when a token does not end. -/
def Jd.token (z : Jd) (x : Eng) (c : Card) : Jd :=
  let stop := fun (y : Jd) => { z with s := y.s, halt := y.halt }
  let fail := fun (y : Jd) => { z with s := y.s, bad := true }
  let (y, h) := z.bytes x (c.src + z.q) 1
  match y.halt with
  | some _ => stop y
  | none =>
    let t := (h.headD (0, false)).1.toNat
    let p := z.out.length
    if (h.headD (0, false)).2 then fail y
    else if t < 0x80 then
      let n := t + 1
      if c.slen < z.q + 1 + n ∨ c.cap < p + n then fail y
      else
        let (y, bs) := y.bytes x (c.src + z.q + 1) n
        match y.halt with
        | some _ => stop y
        | none => { y with out := y.out ++ bs, q := z.q + 1 + n, pois := y.pois || bs.any (fun b => b.2) }
    else
      let k := if t < 0xC0 then 1 else 2
      if c.slen < z.q + 1 + k then fail y
      else
        let (y, bs) := y.bytes x (c.src + z.q + 1) k
        match y.halt with
        | some _ => stop y
        | none =>
          let off := ofLeBytes (bs.map (fun b => b.1)) + 1
          let len := t % 64 + 3
          if bs.any (fun b => b.2) ∨ p + c.hist < off ∨ c.cap < p + len then fail y
          else
            let y := y.matched x c off len
            match y.halt with
            | some _ => stop y
            | none => { y with q := z.q + 1 + k, pois := y.pois || (y.out.drop p).any (fun b => b.2) }


/-- OUT_LEN and IN_USED written to the card in the block's scratchpad, mx-ready with the rest of the job's writes (R96). -/
def State.cardResult (s : State) (j : Job) (out used : Nat) : State :=
  match s.block j.block with
  | some b => (s.setBlock { b with scratch := b.scratch.write (j.src.toNat + 0x20) (leBytes 4 out ++ leBytes 4 used) }).sectorsReady
      (b.sectors .scratch (j.src.toNat + 0x20) 8)
  | none => s

/-- Output bytes from an output position on, a place each. -/
def State.outPlaces (s : State) (x : Eng) (c : Card) (at_ : Nat) (out : List (Byte × Bool)) : Except Halt CopyOut :=
  (mapIx (fun i b => (at_ + i, b)) out).foldl (fun (r : Except Halt CopyOut) b =>
    match r with
    | .ok l => (match s.engPieces x kindWrite .global (spaceAddr .global ((c.dst : Int) + b.1)) 1 with
        | .ok ps => .ok (l ++ [(ps, [b.2.1], b.2.2)])
        | .error h => .error h)
    | e => e) (.ok [])

/-- A token whose output may be written: it is committed, or the engine stands at the token before it (R269). -/
def Jd.commit (z y : Jd) (x : Eng) (c : Card) : Jd :=
  let p := z.out.length
  match y.s.outPlaces x c p (y.out.drop p) with
  | .ok _ => y
  | .error (.refuse va cause k) =>
    { z with s := y.s, halt := some (.refuse va cause k), tail := (y.out.drop p).take ((va + 2 ^ 64 - (c.dst + p) % 2 ^ 64) % 2 ^ 64) }
  | .error h => { z with s := y.s, halt := some h }

/-- Tokens until the stream ends, fails or halts; fuel counts stream bytes. -/
def Jd.run (x : Eng) (c : Card) : Nat → Jd → Jd
  | 0, z => z
  | n + 1, z => if c.slen ≤ z.q ∨ z.bad ∨ z.halt.isSome then z else Jd.run x c n (z.commit (z.token x c) x c)

/-- The work of CPYJ. -/
def State.runStream (s : State) (j : Job) : JobRes :=
  let f := fun o n => fieldAt j.desc o n
  let c : Card := { src := f 0 8, dst := f 8 8, slen := f 0x10 4, cap := f 0x14 4, hist := f 0x18 4 }
  if j.misdesc || decide (f 0x1C 4 ≠ 0) || decide (65536 < c.hist) || !((j.desc.drop 0x28).take 0x18).all (fun b => decide (b = 0)) then .done s 5
  else if c.slen ≠ 0 ∧ c.hist + c.cap ≠ 0 ∧ c.src + c.hist < c.dst + c.cap + c.hist ∧ c.dst < c.src + c.slen + c.hist then .done (s.cardResult j 0 0) 2
  else
    let z := Jd.run j.eng c c.slen { s := s, out := [], q := 0, pois := false, bad := false, halt := none, tail := [] }
    let places := z.s.outPlaces j.eng c 0 (z.out ++ z.tail)
    match z.halt, places with
    | some (.fault a b k), _ => .wait s (.fault a b k)
    | some .hold, _ => .wait s .hold
    | _, .error (.fault a b k) => .wait s (.fault a b k)
    | _, .error .hold => .wait s .hold
    | some (.refuse va c' k), .ok outs => .done ((((z.s.jobRefused j va c' k).faultWrites j.eng j.id outs)).cardResult j z.out.length z.q) 3
    | some (.refuse va c' k), .error _ => .done ((z.s.jobRefused j va c' k).cardResult j z.out.length z.q) 3
    | none, .error (.refuse va c' k) => .done ((z.s.jobRefused j va c' k).cardResult j z.out.length z.q) 3
    | none, .ok outs =>
      .done ((z.s.copyWrite j.eng j.id outs).cardResult j z.out.length z.q) (if z.bad then 6 else if z.pois then 4 else 1)

/-! ## COPY_DONE and CPYJ_DONE (R257 to R259, R374, R418) -/

/-- The work of a job by its form. -/
def State.runJob (s : State) (j : Job) : JobRes :=
  match j.form with
  | 0 => if j.len = 0 then .done s 1 else s.runPlan j (planLinear (spaceCode j.ssp) (spaceCode j.dsp) j.src.toNat j.dst.toNat j.len) false
  | 3 => s.runStream j
  | k => s.runTensor j k

/-- A job's record replaced. -/
def State.setJob (s : State) (j : Job) : State := { s with jobs := s.jobs.map (fun x => if x.id = j.id then j else x) }

/-- A job at its end: status, then TAGDONE, in the block, and in its save area while it is away, which waits on a page fault and, refused, contains
the process (R408, R418); or STAT of a packet, whose write waits on a page fault and, refused, is the queue error FAULT (R374, R377). -/
def State.endJob (s : State) (j : Job) (status : Nat) : State :=
  let gone := fun (s : State) => { s with jobs := s.jobs.filter (fun x => decide (x.id ≠ j.id)) }
  if j.block = 0 then
    if j.stat = 0 then gone s
    else
      let refused := fun (va c : Nat) => (s.logFw j.die j.proc va c kindWrite 1).contain j.proc 6 (some (j.qid, j.index))
      match s.writeVirt j.die 0xFF j.proc j.priv j.stat.toNat (leBytes 4 status) with
      | .ok s => gone s
      | .fault va lv =>
        if j.refuse then refused va 10
        else (s.pageFault j.die 0xFF j.proc va kindWrite lv 1).setJob { j with form := 4, len := status, waits := [pageOf va] }
      | .refuse va c => refused va c
  else
    let s' := (gone s).setTag j.block j.tag (fun _ => { done := true, status := status, busy := false })
    match s'.block j.block with
    | some b =>
      if b.run = .away then
        -- with the last copy the banks are saved as it leaves them (R418)
        let last := !s'.banksBusy b.id
        let t := (s'.teamsOf b.id).headD Team.reset
        match s'.writePieces t b.bsave.toNat (if last then bsavePieces s' b else [(0x200 + 4 * j.tag, leBytes 4 (1 + 16 * status))]) with
        | .ok s => if last then s.setBlock { b with hold := .saved } else s
        | .fault va lv =>
          if j.refuse then s.refusedTeam t va 10 kindWrite
          else (s.pageFault j.die j.core j.proc va kindWrite lv 0).setJob { j with form := 4, len := status, waits := [pageOf va] }
        | .refuse va c => s.refusedTeam t va c kindWrite
      else s'
    | none => s'

/-- A job's work taken to its end, or to what it waits for: a page fault is recorded for it, and held writes of compressed
pages are stored first, and a copy unit begins no access at a photo-finish stop (R422). A job whose status stands ends when its last held write is performed. -/
def State.stepJob (s : State) (j : Job) : State :=
  if j.waits ≠ [] ∨ s.engHeld 0 j.id ∨ (j.form < 3 ∧ j.block ≠ 0 ∧ s.pfsHolds j.die j.core 0xF) then s
  else if j.form = 4 then s.endJob j j.len
  else match s.runJob j with
  | .wait s (.fault va lv k) =>
    let core := if j.form = 3 then 0xFF else j.core
    let s := s.pageFault j.die core j.proc va k lv (if j.form = 3 then 3 else 1)
    s.setJob { j with waits := [pageOf va] }
  | .wait s _ => s
  | .done s st => if s.engHeld 0 j.id then s.setJob { j with form := 4, len := st } else s.endJob j st

/-- COPY_DONE: a copy of a copy unit. -/
def execCopyDone (job : Nat) (s : State) : Res :=
  .next (match s.jobs.find? (fun j => decide (j.id = job) && decide (j.form ≠ 3)) with
    | some j => s.stepJob j
    | none => s)

/-- CPYJ_DONE: a job of the decompression engine. -/
def execCpyjDone (job : Nat) (s : State) : Res :=
  .next (match s.jobs.find? (fun j => decide (j.id = job) && decide (j.form = 3 ∨ j.form = 4)) with
    | some j => s.stepJob j
    | none => s)

/-! ## TWAIT (R270) -/

/-- Fields of TWAIT: .all and .any write a pair. -/
def formTwait (sub : Nat) (r : Reg) : Form :=
  { cls := 5, d := if sub = 2 then .scalarOpt else .spairOpt, a := .spair, x := decide (r.xf 0 6 = sub) }

/-- TWAIT: its mask is read at issue; the group is held until it completes. -/
def twaitBody (sub : Nat) (r : Reg) (s : State) (e : Mask) (tg : List (List Nat)) : Out :=
  let t := s.me
  let ds := if r.d = 31 then [] else sregs r.d (decide (sub ≠ 2))
  if t.scalarsBusy ([r.a, r.a + 1] ++ ds) then .wait
  else if t.spairPois r.a then .trap 0x08 e 0 0 0
  else if !s.queueRoom r.fsel then .wait
  else
    let m := t.spair r.a &&& fullMask s.tagCount
    .go (s.pushEntry { s.entry r.fsel e tg (.twait sub r.d m) with lmask := s.grp, emask := s.grp, sbusy := ds, cap := leBytes 8 m.toNat })

/-- TWAIT.all. -/
def execTwaitAll (o : ShortOps) (s : State) : Res := let r := Reg.ofShort 0 o; s.issue (formTwait 0 r) r (twaitBody 0 r)
/-- TWAIT.all, long form. -/
def execTwaitAllLong (o : LongOps) (s : State) : Res := let r := Reg.ofLong o; s.issue (formTwait 0 r) r (twaitBody 0 r)
/-- TWAIT.any. -/
def execTwaitAny (o : LongOps) (s : State) : Res := let r := Reg.ofLong o; s.issue (formTwait 1 r) r (twaitBody 1 r)
/-- TWAIT.find. -/
def execTwaitFind (o : LongOps) (s : State) : Res := let r := Reg.ofLong o; s.issue (formTwait 2 r) r (twaitBody 2 r)

/-- TAGDONE of a block, tag n in bit n. -/
def Block.tagDone (b : Block) : Mask := maskOf b.tags.length (fun n => (b.tags.getD n CopyTag.reset).done)

/-- What a TWAIT over M answers: `none` while it holds. -/
def twaitAnswer (b : Block) (sub : Nat) (m : Mask) : Option DWord :=
  let hit := m &&& b.tagDone
  let st := fun n => (b.tags.getD n CopyTag.reset).status
  match sub with
  | 0 => if hit = m then some (m &&& maskOf 64 (fun n => decide (st n ≠ 1))) else none
  | 1 => if m = 0 ∨ hit ≠ 0 then some hit else none
  | _ => if m = 0 then some 0x80000000 else if hit = 0 then none else some (BitVec.ofNat 64 (st (lowLane hit) * 2 ^ 8 + lowLane hit))

/-- TWAIT_COMPLETE: the result written, an acquire at .dv (R99, R270). -/
def execTwaitComplete (team entry : Nat) (s : State) : Res :=
  .next (match s.team team with
    | none => s
    | some t =>
      match t.activeEntry entry, s.block t.block with
      | some e, some b =>
        (match e.work with
         | .twait sub sd m =>
           (match twaitAnswer b sub m with
            | none => s
            | some v =>
              let s := if m = 0 then s else s.acquire 5 t.die t.core
              let t := if sd = 31 then t else if sub = 2 then t.setSreg sd (Elem.ofWord (bits v 0 32)) else t.setSpair sd v false
              s.setTeam (t.finish e))
         | _ => s)
      | _, _ => s)

/-! ## LNCH (R26, R27, R271, R272) -/

/-- Fields of LNCH. -/
def formLnch (r : Reg) : Form := { cls := 5, d := .spairOpt, a := .spair, x := decide (r.xf 0 6 = 0) }

/-- A launch record breaks no rule of R271: reserved bits zero. -/
def recordOk (bs : List Byte) : Bool :=
  decide (fieldAt bs 0x18 8 < 2) && ((bs.drop 0x20).take 0x20).all (fun b => decide (b = 0))

/-- A stall of the team on a page, or the trap of a refused read (R272 rows 4 and 5). -/
def State.lnchHalt (s : State) (h : Halt) : Out :=
  let t := s.me
  match h with
  | .fault va lv _ =>
    if t.stallRefused.contains (pageOf va) then
      let s' := s.logViolation t.die t.core va s.ctx.pc.toNat t.proc 10 kindRead 0 0
      .jump (({ s' with me := { s'.me with stallRefused := s'.me.stallRefused.filter (fun p => decide (p ≠ pageOf va)) } } : State).trapNow 0x0B 1 0 (BitVec.ofNat 64 va) 10)
    else
      let s' := s.pageFault t.die t.core t.proc va kindRead lv 0
      .jump { s' with me := { s'.me with stall := [pageOf va] } }
  | .refuse va c _ =>
    let s' := s.logViolation t.die t.core va s.ctx.pc.toNat t.proc c kindRead 0 0
    .jump (s'.trapNow 0x0B 1 0 (BitVec.ofNat 64 va) c)
  | .hold => .wait

/-- The child accepted (R17, R27, R272); one with a zero extent retires at once (R14). -/
def State.lnchGo (s : State) (r : Reg) (k : KDesc) (rec_ : List Byte) : State :=
  let t := s.me
  let p := s.myGrid
  let fa := s.ctx.selA r.fsel
  let fb := s.ctx.selB r.fsel
  let g : Grid :=
    { lseq := s.nextLseq, proc := t.proc, kd := k, args := BitVec.ofNat 64 (fieldAt rec_ 0x10 8), gx := fieldAt rec_ 8 4, gy := fieldAt rec_ 0xC 2,
      gz := fieldAt rec_ 0xE 2, depth := p.depth + 1, cls := p.cls, pin := decide (fieldAt rec_ 0x18 1 = 1),
      origin := .child p.lseq t.id fa fb, pre := [], left := 0, start := 0 }
  let s := s.releaseBy 5 t s.grp
  let s := { s with nextLseq := s.nextLseq + 1, me := if r.d = 31 then s.me else s.me.setSpair r.d (BitVec.ofNat 64 g.lseq) false }
  if g.gx = 0 ∨ g.gy = 0 ∨ g.gz = 0 then s.acquire 5 t.die t.core
  else
    let s := { s with me := { (s.me.incFlags fa fb) with kids := s.me.kids ++ [({ lseq := g.lseq, fla := fa, flb := fb, held := false } : Kid)] } }
    s.launch g (fun _ => t.die)

/-- LNCH: the checks of R272 in their order, then the child. -/
def lnchBody (r : Reg) (s : State) (_e : Mask) (_tg : List (List Nat)) : Out :=
  let t := s.me
  let ds := if r.d = 31 then [] else [r.d, r.d + 1]
  if t.scalarsBusy ([r.a, r.a + 1] ++ ds) then .wait
  else if t.spairPois r.a then .trap 0x08 1 0 0 0
  else
    let a := t.spair r.a
    if a.toNat % 64 ≠ 0 then .trap 0x09 1 0 a 0
    else if s.myGrid.depth = 10 then .trap 0x0D s.grp 0 0 0
    else if !s.flagsRoom r.fsel || (t.entries.drop t.suspended).any (fun x => !x.dropped && x.work.accesses) then .wait
    else
      let g := engOf t t.priv
      match s.engRead g 5 .global a.toNat 64 with
      | .error h => s.lnchHalt h
      | .ok (s1, rec_) =>
        let kd := fieldAt rec_ 0 8
        match s1.engRead g 5 .global kd 128 with
        | .error h => s.lnchHalt h
        | .ok (s2, kb) =>
          (match parseKDesc kb with
           | none => .trap 0x01 s.grp 0 0 0
           | some k =>
             if !recordOk rec_ || decide (kd % 128 ≠ 0) || !extentsOk k (fieldAt rec_ 8 4) (fieldAt rec_ 0xC 2) (fieldAt rec_ 0xE 2) ||
                !s.poolHolds t.die t.core t.proc k || !s.clusterFits t.die k then .trap 0x01 s.grp 0 0 0
             else .go (s2.lnchGo r k rec_))

/-- LNCH issues only in a group that holds the team leader, lane 0 (R27). -/
def State.issueLnch (s : State) (r : Reg) : Res := s.issueFit (formLnch r) r (s.grp.getLsbD 0) 0x06 (lnchBody r)

/-- LNCH. -/
def execLnch (o : ShortOps) (s : State) : Res := s.issueLnch (Reg.ofShort 0 o)
/-- LNCH, long form. -/
def execLnchLong (o : LongOps) (s : State) : Res := s.issueLnch (Reg.ofLong o)

end Sys2Proof.Machine
end

