-- ==== Sys2Proof/Machine/Fetch.lean ====
section
/-!
DEFINITION. Machine/Fetch: CLAUSE_FETCH (R28, R109, R400), the fate of words that decode to nothing (R123), which teams and groups
may issue (R23, R36, R39), and the scheduler's marks (R29, R30, R46).
-/

namespace Sys2Proof.Machine

/-- Every flag of the wait mask is zero and no set flag is at 15 (R28). -/
def Team.clauseReady (t : Team) (h : Word) : Bool :=
  (List.range 12).all (fun i => !(clauseWait h).testBit i || decide (t.flag i = 0)) &&
    decide (t.flag (clauseSetA h) ≠ 15) && decide (t.flag (clauseSetB h) ≠ 15)

/-- A fetch that has no clause: the stall of a page fault, the protection trap with the clause address as PC, the illegal clause (R109, R112,
R400). -/
def State.fetchHalt {α : Type} (s : State) (x : Fetched α) : State :=
  let t := s.me
  let refused := fun (va c : Nat) =>
    ((({ s with me := { t with stallRefused := t.stallRefused.filter (fun p => decide (p ≠ pageOf va)) } } : State).logViolation t.die t.core va s.ctx.hdr.toNat t.proc c kindFetch 0 (lowLane s.grp))).takeTrap
      { cause := 0x0B, sub := c, tpc := s.ctx.hdr, thdr := s.ctx.hdr, lanes := s.grp, info := 0, faddr := BitVec.ofNat 64 va, next := false }
  match x with
  | .fault va lv =>
    if t.stallRefused.contains (pageOf va) then refused va 10
    else let s := s.pageFault t.die t.core t.proc va kindFetch lv 0; { s with me := { s.me with stall := [pageOf va] } }
  | .refuse va c => refused va c
  | .bad => s.trapGroup 0x02
  | _ => s

/-- A wait point of the team's flags in a wait mask: the MXST writes whose batons they counted are mx-ready (R96, R248). -/
def State.waitPoint (s : State) (wait : Nat) : State :=
  s.mxReady (fun o => decide (o.team = s.me.id) && decide (o.lane = 64) && (wait.testBit o.fla || wait.testBit o.flb))

/-- CLAUSE_FETCH: the group stands at a clause header: the clause is fetched and checked, and when its flags are ready the
group stands at its first instruction (R28, R109); a clause with J marks the group (R30). -/
def execClauseFetch (s : State) : Res :=
  .next (
    match s.clauseAt s.me s.ctx.hdr with
    | .ok c =>
      if s.me.clauseReady c.h then
        let t := s.me.mapThreads s.grp (fun th => { th with pc := s.ctx.hdr + 4, hdr := s.ctx.hdr })
        ({ s with me := { t with jhint := if bit c.h 0 then t.jhint ||| s.grp else t.jhint &&& ~~~ s.grp } } : State).waitPoint
          (clauseWait c.h)
      else s
    | x => s.fetchHalt x)

/-! ## Words that are no instruction (R110, R123) -/

/-- Engine class of an OP (R110); 7 for any class and for control transfers. -/
def classOf (op : Nat) : Nat :=
  if op = 0 ∨ op = 0x14 ∨ op = 0x15 ∨ op = 0x1E ∨ op = 0x34 ∨ op = 0x35 ∨ (1 ≤ op ∧ op ≤ 7) then 7
  else if op = 0x1A ∨ op = 0x1B ∨ (0x60 ≤ op ∧ op ≤ 0x6F) then 3
  else if 0x10 ≤ op ∧ op ≤ 0x13 then 1
  else if op ≤ 0x1D then 0
  else if op ≤ 0x4F then 1
  else if op ≤ 0x5C then 2
  else if op ≤ 0x77 then 4
  else if op ≤ 0x7B then 5
  else 6

/-- A word refused before the class is looked at (R123 step 1): a reserved OP of R110, or a reserved sub-op of SOP, BAR, CPY, TWAIT or RQA
(R143, R144); a PFX goes with any class. The words that the decoder refuses of SOP with a sub-op below 14 break R119 (step 4). -/
def rejectsFirst (w0 : Word) : Bool :=
  let op := bitsN w0 24 7
  (decide (op = 0x18) && decide (14 ≤ bitsN w0 4 5)) || [0x1E, 0x1F, 0x3B, 0x3C, 0x3D, 0x3E, 0x3F, 0x5D, 0x5E, 0x5F, 0x6A, 0x78, 0x7A, 0x7E, 0x7F].contains op

/-- The trap of a word that the decoder refuses (R123). -/
def State.rejectCause (s : State) (w0 : Word) : Nat :=
  let op := bitsN w0 24 7
  if rejectsFirst w0 then 0x01
  else if classOf op ≠ 7 ∧ classOf op ≠ s.ctx.cls then 0x04
  else if classOf op = 6 ∧ !s.me.priv then 0x13
  else 0x01

/-! ## Issue groups and the teams that may issue (R23, R28, R31, R36, R39) -/

/-- Lanes held by a BAR.sync, a BAR.wait or a TWAIT: the group that issued one issues nothing until it completes (R228, R270). -/
def Team.heldLanes (t : Team) : Mask :=
  (t.entries.drop t.suspended).foldl (fun m e =>
    match e.work with
    | .bar _ sub .. => if e.dropped ∨ sub = 1 then m else m ||| e.gmask
    | .twait .. => if e.dropped then m else m ||| e.gmask
    | _ => m) 0

/-- Lanes that stand in an issue group: those that have not exited and wait in no WAITM. -/
def Team.issuing (t : Team) : Mask := t.live &&& ~~~ t.waitingLanes

/-- The issue groups of a team, in order of lowest lane: PC, clause header, lanes (R23). Lanes at one PC are one group; DESIGN CHOICE (log
entry 19): where they stand there under different headers, the group issues under the header of its lowest lane. A group with a held lane issues nothing, and the lanes that have come to its PC since wait
with it: they are one group (R23). -/
def Team.groups (t : Team) : List (BitVec 57 × BitVec 57 × Mask) :=
  let at_ := fun l => (t.thread l).pc
  ((((lanesOf t.issuing).map at_).eraseDups).map (fun k =>
    let m := maskOf t.width (fun l => t.issuing.getLsbD l && decide (at_ l = k))
    (k, (t.thread (lowLane m)).hdr, m))).filter (fun g => decide (g.2.2 &&& t.heldLanes = 0))

/-- An access that stalls its team: it waits on a page fault, or it is a RED.det that waits on a full spill area (R39, R104). -/
def Entry.stalls (e : Entry) : Bool :=
  !e.dropped && (!e.waits.isEmpty || (match e.work with | .redDet _ since => decide (since ≠ 0) | _ => false))

/-- An entry whose refusal is raised as a trap: a write-side one, or one of the matrix engine (R213, R251). -/
def Entry.trapsRefused (e : Entry) : Bool := !e.dropped && (e.work.refusable || (match e.work with | .matrix .. => true | _ => false))

/-- A team that may issue: it runs, no page fault and no full spill area stalls it, its block is resident with its whole unit, its grid has
started, its unit does not leave, and nothing stops it, a photo-finish stop at its count among them (R35, R36, R39, R372, R417, R422, R426). A team
that has come back raises a refusal that became known while it was away before it issues (R419); a stepped one issues after its step (R430). -/
def State.mayIssue (s : State) (t : Team) : Bool :=
  decide (t.id ≠ 0) && !t.agent && decide (t.run = .running) && t.stall.isEmpty && t.pend.isNone && !(t.entries.drop t.suspended).any Entry.stalls &&
    (match s.block t.block with
     | some b => decide (b.run = .resident) && (s.unitOf b).all (fun x => decide (x.run = .resident)) && !s.leaving b && (match s.grid b.grid with | some g => decide (g.start ≤ (s.die t.die).rclk.toNat) | none => true)
     | none => false) &&
    (let k := s.core t.die t.core; !(k.stopped ||| k.stopping).getLsbD t.part && decide (k.power = 0)) && !s.pfsReached t.die t.core &&
    !(decide (t.cls = 1) && (t.entries.drop t.suspended).any (fun e => decide (e.refused ≠ 0) && e.trapsRefused)) &&
    !(s.stepped t && t.stepAt.isSome && decide (t.frame = none))

/-- The group of the lanes of a mask is ready as far as its team and its clause's flags say (R28). -/
def State.groupReady (s : State) (t : Team) (m : Mask) : Bool :=
  s.mayIssue t && t.groups.any (fun g => decide (g.2.2 = m) &&
    (decide (g.1 ≠ g.2.1) || (match s.clauseAt t g.2.1 with | .ok c => t.clauseReady c.h | _ => true)))

/-! ## Scheduling marks (R29, R30) and the register cache (R46) -/

/-- Lanes of a team raised now; a lane raised before keeps its time (R29: the longest wait comes first). -/
def Team.raise (t : Team) (m : Mask) (now : Nat) : Team :=
  { t with raised := t.raised ||| m,
           raisedAt := (lanesOf m).foldl (fun tab l => if t.raised.getLsbD l then tab else tabSet tab l now) t.raisedAt }

/-- A group of a team is found ready or not ready (R29): one that is ready keeps the step at which it was first found so, as long as it is not chosen;
groups that are no more are forgotten. -/
def Team.foundReady (t : Team) (m : Mask) (ready : Bool) (now : Nat) : Team :=
  let kept := t.readySince.filter (fun p => t.groups.any (fun g => decide (g.2.2 = p.1)))
  { t with readySince :=
      if !ready then kept.filter (fun p => decide (p.1 ≠ m))
      else if kept.any (fun p => decide (p.1 = m)) then kept
      else (m, now) :: kept }

/-- A group has stood ready and not chosen for n cycles; a cycle is a step of the model (log entry 46). -/
def Team.waited (t : Team) (m : Mask) (now n : Nat) : Bool := t.readySince.any (fun p => decide (p.1 = m ∧ p.2 + n ≤ now))

/-- SCHED_READY_256: a group that has been ready and not chosen for 256 cycles is raised in its class (R29). -/
def execSchedReady256 (team : Nat) (lanes : Mask) (s : State) : Res :=
  .next (match s.team team with
    | some t => if s.groupReady t lanes ∧ t.waited lanes s.turn 256 then s.setTeam (t.raise lanes s.turn) else s
    | none => s)

/-- SCHED_READY_1024: a group raised before and still not chosen is raised above every class but firmware (R29). -/
def execSchedReady1024 (team : Nat) (lanes : Mask) (s : State) : Res :=
  .next (match s.team team with
    | some t => if s.groupReady t lanes ∧ t.waited lanes s.turn 1024 ∧ lanes &&& ~~~ t.raised = 0 then s.setTeam { t with raisedTop := t.raisedTop ||| lanes } else s
    | none => s)

/-- JOIN_HINT_EXPIRE: the team's other groups are favoured no longer (R30). -/
def execJoinHintExpire (team : Nat) (s : State) : Res :=
  .next (match s.team team with
    | some t => s.setTeam { t with jhint := 0 }
    | none => s)

/-- REGISTER_CACHE_FILL: an absent register is filled from its slot and poison row in the image (R44, R46); it waits while a page of them faults, and
a refused page contains the process (R408). -/
def execRegisterCacheFill (team reg : Nat) (s : State) : Res :=
  .next (match s.team team with
    | none => s
    | some t =>
      if !t.absent.contains reg then s
      else match s.readReg t reg with
        | .ok v =>
          ({ s with fresh := s.fresh + 16 } : State).setTeam
            { t with absent := t.absent.filter (fun n => decide (n ≠ reg)), vregs := if v.tag = .unset then t.vregs else tabSet t.vregs reg v }
        | .fault va lv =>
          let s := s.devFault t.die t.core t.proc va kindRead lv 0
          s.setTeam { t with absent := t.absent.filter (fun n => decide (n ≠ reg)) ++ [reg] }
        | .refuse va c => s.refusedTeam t va c kindRead)

end Sys2Proof.Machine
end

