-- ==== Sys2Proof/Machine/Integer.lean ====
section
/-!
DEFINITION. Machine/Integer: vector integer and logic instructions (R179 to R191).
-/

namespace Sys2Proof.Machine

/-- Integer types of R141. -/
def intTypes : List Nat := [0, 1, 7, 8, 9, 10]

/-- B as a register, or as an immediate under IMM (R181). -/
def immB (r : Reg) : Fld := if r.xb 5 then .any else .vec

/-- b of a lane: the register, or the 8-bit field sign-extended (R181). -/
def Team.bOr (t : Team) (r : Reg) (tg : List (List Nat)) (l : Nat) : Elem :=
  if r.xb 5 then Elem.ofWord (BitVec.ofInt 32 (sextN 8 r.b)) else t.src tg 2 l

/-- A result of one lane, poisoned by its sources (R60). -/
def res (v : Word) (ps : List Elem) : Elem := { val := v, pois := ps.any (fun e => e.pois) }

/-! ## IADD and ISUB (R182 to R184) -/

/-- Fields of IADD and ISUB: X[3] .ci, X[4] .co, X[5] IMM. -/
def formIadd (r : Reg) : Form :=
  let carry := r.xb 3 || r.xb 4
  { cls := 1, d := .vec, a := .vec, b := immB r, c := if carry then .num 24 else .zero, types := intTypes
    x := decide (r.xf 0 3 = 0) && decide (r.xf 6 2 = 0) && (!carry || decide (r.t < 2)), sat := !carry }

/-- IADD and ISUB: the wrapping or saturating result, or the carry form of R183. -/
def addBody (sub : Bool) (r : Reg) (s : State) (e : Mask) (tg : List (List Nat)) : Out :=
  let t := s.me
  let ci := r.xb 3
  let a := fun l => t.src tg 1 l
  let b := fun l => t.bOr r tg l
  if ci || r.xb 4 then
    let cin := fun l => if ci && t.pred r.c l then (1 : Int) else 0
    let sum := fun l => if sub then ((a l).val.toNat : Int) - ((b l).val.toNat : Int) - cin l else ((a l).val.toNat : Int) + ((b l).val.toNat : Int) + cin l
    let p := fun l => (a l).pois || (b l).pois || (ci && t.predPois r.c l)
    let t' := t.dst tg 0 0 e (fun l => { val := BitVec.ofInt 32 (sum l), pois := p l })
    .go { s with me := if r.xb 4 then t'.putPreds r.c e (fun l => if sub then decide (sum l < 0) else decide (2 ^ 32 ≤ sum l)) p else t' }
  else
    s.putLanes e tg (fun l =>
      let x := extInt r.t (a l).val.toNat
      let y := extInt r.t (b l).val.toNat
      res (storeInt r.t s.ctx.sat (if sub then x - y else x + y)) [a l, b l])

/-! ## The other arithmetic (R184) -/

/-- Fields of IMUL, IMIN and IMAX. -/
def formIntB (r : Reg) : Form :=
  { cls := 1, d := .vec, a := .vec, b := immB r, types := intTypes, x := decide (r.x = 0) || decide (r.x = 0x20) }

/-- A two-source result of ext_t values, stored under t without saturation. -/
def intB (f : Int → Int → Int) (r : Reg) (s : State) (e : Mask) (tg : List (List Nat)) : Out :=
  s.putLanes e tg (fun l =>
    let a := s.me.src tg 1 l
    let b := s.me.bOr r tg l
    res (storeInt r.t false (f (extInt r.t a.val.toNat) (extInt r.t b.val.toNat))) [a, b])

/-- Fields of IMULH. -/
def formImulh (r : Reg) : Form := { cls := 1, d := .vec, a := .vec, b := .vec, types := [0, 1], x := decide (r.x = 0) }

/-- IMULH: bits [63:32] of the exact product. -/
def imulhBody (r : Reg) (s : State) (e : Mask) (tg : List (List Nat)) : Out :=
  s.putLanes e tg (fun l =>
    let a := s.me.src tg 1 l
    let b := s.me.src tg 2 l
    res (BitVec.ofInt 32 (extInt r.t a.val.toNat * extInt r.t b.val.toNat / 2 ^ 32)) [a, b])

/-- Fields of IMAD. -/
def formImad (r : Reg) : Form :=
  { cls := 1, d := .vec, a := .vec, b := .vec, c := .vec, types := [0, 1, 7, 8], x := decide (r.x = 0), sat := true }

/-- IMAD: exact before wrapping or clamping. -/
def imadBody (r : Reg) (s : State) (e : Mask) (tg : List (List Nat)) : Out :=
  s.putLanes e tg (fun l =>
    let a := s.me.src tg 1 l
    let b := s.me.src tg 2 l
    let c := s.me.src tg 3 l
    res (storeInt r.t s.ctx.sat (extInt r.t a.val.toNat * extInt r.t b.val.toNat + extInt r.t c.val.toNat)) [a, b, c])

/-- Fields of IABS. -/
def formIabs (r : Reg) : Form := { cls := 1, d := .vec, a := .vec, types := [0, 7, 9], x := decide (r.x = 0), sat := true }

/-- IABS. -/
def iabsBody (r : Reg) (s : State) (e : Mask) (tg : List (List Nat)) : Out :=
  s.putLanes e tg (fun l =>
    let a := s.me.src tg 1 l
    res (storeInt r.t s.ctx.sat ((extInt r.t a.val.toNat).natAbs : Int)) [a])

/-- Fields of IADD3. -/
def formIadd3 (r : Reg) : Form :=
  { cls := 1, d := .vec, a := .vec, b := .vec, c := .vec, types := [0, 1], x := decide (r.x = 0) }

/-- IADD3. -/
def iadd3Body (s : State) (e : Mask) (tg : List (List Nat)) : Out :=
  s.putLanes e tg (fun l =>
    let a := s.me.src tg 1 l
    let b := s.me.src tg 2 l
    let c := s.me.src tg 3 l
    res (a.val + b.val + c.val) [a, b, c])

/-! ## Logic, shifts, counts (R185) -/

/-- Fields of the bitwise and shift OPs. -/
def formLogic (r : Reg) : Form :=
  { cls := 1, d := .vec, a := .vec, b := immB r, x := decide (r.x = 0) || decide (r.x = 0x20) }

/-- A two-source result of raw words. -/
def logicB (f : Word → Word → Word) (r : Reg) (s : State) (e : Mask) (tg : List (List Nat)) : Out :=
  s.putLanes e tg (fun l =>
    let a := s.me.src tg 1 l
    let b := s.me.bOr r tg l
    res (f a.val b.val) [a, b])

/-- SHL. -/
def shlWord (a b : Word) : Word := if 32 ≤ b.toNat then 0 else a <<< b.toNat
/-- SHR. -/
def shrWord (a b : Word) : Word := if 32 ≤ b.toNat then 0 else a >>> b.toNat
/-- SAR. -/
def sarWord (a b : Word) : Word := a.sshiftRight (Nat.min b.toNat 32)

/-- Fields of the one-source OPs. -/
def formUnary (r : Reg) : Form := { cls := 1, d := .vec, a := .vec, x := decide (r.x = 0) }

/-- A one-source result of raw words. -/
def unary (f : Word → Word) (s : State) (e : Mask) (tg : List (List Nat)) : Out :=
  s.putLanes e tg (fun l => let a := s.me.src tg 1 l; res (f a.val) [a])

/-- POPC. -/
def popWord (a : Word) : Word := BitVec.ofNat 32 ((List.range 32).filter (fun i => a.getLsbD i)).length
/-- CLZ. -/
def clzWord (a : Word) : Word := if a = 0 then 32 else BitVec.ofNat 32 (31 - Nat.log2 a.toNat)
/-- BREV. -/
def brevWord (a : Word) : Word :=
  (List.range 32).foldl (fun m i => if a.getLsbD i then m ||| BitVec.ofNat 32 (2 ^ (31 - i)) else m) 0

/-! ## Bit fields (R186) -/

/-- Fields of BFE: with IMM, B is the position and C the length. -/
def formBfe (r : Reg) : Form :=
  { cls := 1, d := .vec, a := .vec, b := immB r, c := if r.xb 5 then .any else .zero, types := [0, 1]
    x := decide (r.x = 0) || decide (r.x = 0x20) }

/-- BFE of a word. -/
def bfeWord (signed : Bool) (a : Word) (pos len : Nat) : Word :=
  let n := min len 32
  if n = 0 then 0
  else
    let top := signed && a.getLsbD 31
    let f := ((List.range n).map (fun k => if (if pos + k ≤ 31 then a.getLsbD (pos + k) else top) then 2 ^ k else 0)).foldl (· + ·) 0
    if signed then BitVec.ofInt 32 (sextN n f) else BitVec.ofNat 32 f

/-- BFE. -/
def bfeBody (r : Reg) (s : State) (e : Mask) (tg : List (List Nat)) : Out :=
  s.putLanes e tg (fun l =>
    let a := s.me.src tg 1 l
    let b := if r.xb 5 then Elem.ofWord (BitVec.ofNat 32 (r.b + 256 * r.c)) else s.me.src tg 2 l
    res (bfeWord (decide (r.t = 0)) a.val (bitsN b.val 0 8) (bitsN b.val 8 8)) [a, b])

/-- Fields of BFI and BMIX. -/
def formThree (r : Reg) : Form := { cls := 1, d := .vec, a := .vec, b := .vec, c := .vec, x := decide (r.x = 0) }

/-- A three-source result of raw words. -/
def three (f : Word → Word → Word → Word) (s : State) (e : Mask) (tg : List (List Nat)) : Out :=
  s.putLanes e tg (fun l =>
    let a := s.me.src tg 1 l
    let b := s.me.src tg 2 l
    let c := s.me.src tg 3 l
    res (f a.val b.val c.val) [a, b, c])

/-- BFI of words. -/
def bfiWord (a b c : Word) : Word :=
  let pos := bitsN b 0 8
  let n := min (bitsN b 8 8) (min 32 (32 - min pos 32))
  let m := BitVec.ofNat 32 ((2 ^ n - 1) * 2 ^ pos)
  (c &&& ~~~ m) ||| (BitVec.ofNat 32 (a.toNat * 2 ^ pos) &&& m)

/-- BMIX of words (R187). -/
def bmixWord (a sel c : Word) : Word :=
  let y := fun (j : Nat) => if j < 4 then bitsN a (8 * j) 8 else bitsN c (8 * (j - 4)) 8
  let byte := fun (i : Nat) =>
    let q := bitsN sel (8 * i) 8
    match q / 8 % 4 with
    | 0 => y (q % 8)
    | 1 => 0
    | 2 => if 128 ≤ y (q % 8) then 255 else 0
    | _ => 255
  BitVec.ofNat 32 (byte 0 + 2 ^ 8 * byte 1 + 2 ^ 16 * byte 2 + 2 ^ 24 * byte 3)

/-! ## Moves and selection (R188) -/

/-- Fields of SEL. -/
def formSel (r : Reg) : Form := { cls := 1, d := .vec, a := .vec, b := .vec, c := .num 24, x := decide (r.x = 0) }

/-- SEL: poisoned by its predicate and the chosen input only (R60). -/
def selBody (r : Reg) (s : State) (e : Mask) (tg : List (List Nat)) : Out :=
  s.putLanes e tg (fun l =>
    let v := if s.me.pred r.c l then s.me.src tg 1 l else s.me.src tg 2 l
    { v with pois := v.pois || s.me.predPois r.c l })

/-- Fields of MOV. -/
def formMov (r : Reg) : Form :=
  { cls := 7, d := .vec, a := if r.xb 0 then .num 24 else .vec, x := decide (r.x < 2) }

/-- MOV. -/
def movBody (s : State) (e : Mask) (tg : List (List Nat)) : Out := s.putLanes e tg (fun l => s.me.src tg 1 l)

/-- MOV.s. -/
def movSBody (r : Reg) (s : State) (e : Mask) (tg : List (List Nat)) : Out :=
  if s.me.scalarsBusy [r.a] then .wait else s.putLanes e tg (fun _ => s.me.sreg r.a)

/-- MOVI (R120, R188): the constant in every lane of the group. -/
def State.movi (s : State) (ok : Bool) (d : BitVec 8) (v : Word) : Res :=
  s.issuePlain 7 ok (fun s =>
    if (s.me.busyVec ++ s.me.absent).contains d.toNat then .wait
    else .go { s with me := s.me.dst (List.replicate 64 [d.toNat]) 0 0 s.grp (fun _ => Elem.ofWord v) })

/-! ## Comparison (R189) -/

/-- A float type code. -/
def isFloatT (t : Nat) : Bool := decide (2 ≤ t) && decide (t ≤ 6)

/-- Fields of CMP; a reserved condition is refused in a clause of any class (R123 step 1). -/
def formCmp (r : Reg) : Form :=
  let fl := isFloatT r.t
  { cls := if 8 ≤ r.xf 0 4 then 7 else 1, d := .num 24, a := .vec, b := immB r, types := [0, 1, 7, 8, 9, 10, 2, 3, 4], fi := fl
    x := decide (r.xf 0 4 < (if fl then 8 else 6)) && !r.xb 4 && decide (r.xf 6 2 = 0) && !(fl && r.xb 5) }

/-- A comparison of two ordered values: less, equal. -/
def condHolds (cc : Nat) (lt eq : Bool) : Bool :=
  match cc with
  | 0 => eq
  | 1 => !eq
  | 2 => lt
  | 3 => lt || eq
  | 4 => !lt && !eq
  | 5 => !lt
  | 6 => true
  | _ => false

/-- a below b among floats, +0 and −0 being equal. -/
def FV.less : FV → FV → Bool
  | .inf true, .inf true => false
  | .inf true, _ => true
  | .inf false, _ => false
  | _, .inf n => !n
  | a, b => decide (a.int < b.int)

/-- CMP of two floats: the answer and NV. -/
def fcmp (cc : Nat) (a b : FV) : Bool × Bool :=
  if a.isNan || b.isNan then
    (decide (cc = 1) || decide (cc = 7), (decide (2 ≤ cc) && decide (cc ≤ 5)) || a.isSnan || b.isSnan)
  else (condHolds cc (a.less b) (!(a.less b) && !(b.less a)), false)

/-- A float source of type t with FI applied. -/
def FV.of (t : Nat) (fi : Bool) (e : Elem) : FV := ((fmtOf t).decode e.val.toNat).flushIn (fmtOf t) fi

/-- CMP. -/
def cmpBody (r : Reg) (s : State) (e : Mask) (tg : List (List Nat)) : Out :=
  let t := s.me
  let a := fun l => t.src tg 1 l
  let b := fun l => t.bOr r tg l
  let p := fun l => (a l).pois || (b l).pois
  if isFloatT r.t then
    let v := fun l => fcmp (r.xf 0 4) (FV.of r.t r.fi (a l)) (FV.of r.t r.fi (b l))
    s.fpDone e (fun l => Exc.when (!p l && (v l).2) excNV) (fun s => .go { s with me := s.me.putPreds r.d e (fun l => (v l).1) p })
  else
    let x := fun l => extInt r.t (a l).val.toNat
    let y := fun l => extInt r.t (b l).val.toNat
    .go { s with me := t.putPreds r.d e (fun l => condHolds (r.xf 0 4) (decide (x l < y l)) (decide (x l = y l))) p }

/-! ## DOT4 (R190) -/

/-- Fields of DOT4. -/
def formDot4 (r : Reg) : Form :=
  let fl := isFloatT r.t
  { cls := 1, d := .vec, a := .vec, b := .vec, c := .vec, types := [9, 10, 5, 6], x := decide (r.x = 0), fi := fl, fo := fl,
    rnd := fl, sat := true }

/-- DOT4 of integers. -/
def dotInt (signed sat : Bool) (a b c : Word) : Word :=
  let t := if signed then 9 else 10
  let u := if signed then 0 else 1
  let sum := (List.range 4).foldl (fun (s : Int) k => s + extInt t (bitsN a (8 * k) 8) * extInt t (bitsN b (8 * k) 8)) (extInt u c.toNat)
  storeInt u sat sum

/-- DOT4 of FP8 bytes. -/
def dotFloat (o : Rnd) (f : Fmt) (fi : Bool) (a b c : Word) : FRes :=
  let v := fun (x : Word) (k : Nat) => (f.decode (bitsN x (8 * k) 8)).flushIn f fi
  o.dot4 ((List.range 4).map (fun k => (v a k, v b k))) ((fmtF32.decode c.toNat).flushIn fmtF32 fi)

/-- DOT4. -/
def dot4Body (r : Reg) (s : State) (e : Mask) (tg : List (List Nat)) : Out :=
  let t := s.me
  let a := fun l => t.src tg 1 l
  let b := fun l => t.src tg 2 l
  let c := fun l => t.src tg 3 l
  if isFloatT r.t then
    let o : Rnd := { f := fmtF32, mode := max 1 s.ctx.rnd, sat := s.ctx.sat, fo := r.fo }
    let v := fun l => dotFloat o (fmtOf r.t) r.fi (a l).val (b l).val (c l).val
    let p := fun l => (a l).pois || (b l).pois || (c l).pois
    s.fpDone e (fun l => if p l then 0 else (v l).exc) (fun s =>
      s.putLanes e tg (fun l => { val := BitVec.ofNat 32 (v l).bits, pois := p l }))
  else s.putLanes e tg (fun l => res (dotInt (decide (r.t = 9)) s.ctx.sat (a l).val (b l).val (c l).val) [a l, b l, c l])

/-! ## LEA (R191) -/

/-- Fields of LEA. -/
def formLea (r : Reg) : Form := { cls := 1, d := .pair, a := .pair, b := .vec, x := decide (r.x < 64) }

/-- LEA. -/
def leaBody (r : Reg) (s : State) (e : Mask) (tg : List (List Nat)) : Out :=
  let t := s.me
  let v := fun l =>
    let b := (t.src tg 2 l).val
    let idx : DWord := if r.xb 5 then b.zeroExtend 64 else b.signExtend 64
    t.srcPair tg 1 l + idx <<< r.xf 0 5
  .go { s with me := t.dstPair tg 0 e v (fun l => t.srcPairPois tg 1 l || (t.src tg 2 l).pois) }

/-! ## The instructions -/

/-- IADD. -/
def execIadd (o : ShortOps) (s : State) : Res := let r := Reg.ofShort 0 o; s.issue (formIadd r) r (addBody false r)
/-- IADD, long form. -/
def execIaddLong (o : LongOps) (s : State) : Res := let r := Reg.ofLong o; s.issue (formIadd r) r (addBody false r)
/-- ISUB. -/
def execIsub (o : ShortOps) (s : State) : Res := let r := Reg.ofShort 0 o; s.issue (formIadd r) r (addBody true r)
/-- ISUB, long form. -/
def execIsubLong (o : LongOps) (s : State) : Res := let r := Reg.ofLong o; s.issue (formIadd r) r (addBody true r)
/-- IMUL. -/
def execImul (o : ShortOps) (s : State) : Res := let r := Reg.ofShort 0 o; s.issue (formIntB r) r (intB (fun a b => a * b) r)
/-- IMUL, long form. -/
def execImulLong (o : LongOps) (s : State) : Res := let r := Reg.ofLong o; s.issue (formIntB r) r (intB (fun a b => a * b) r)
/-- IMULH. -/
def execImulh (o : ShortOps) (s : State) : Res := let r := Reg.ofShort 0 o; s.issue (formImulh r) r (imulhBody r)
/-- IMULH, long form. -/
def execImulhLong (o : LongOps) (s : State) : Res := let r := Reg.ofLong o; s.issue (formImulh r) r (imulhBody r)
/-- IMAD. -/
def execImad (o : ShortOps) (s : State) : Res := let r := Reg.ofShort 0 o; s.issue (formImad r) r (imadBody r)
/-- IMAD, long form. -/
def execImadLong (o : LongOps) (s : State) : Res := let r := Reg.ofLong o; s.issue (formImad r) r (imadBody r)
/-- IMIN. -/
def execImin (o : ShortOps) (s : State) : Res := let r := Reg.ofShort 0 o; s.issue (formIntB r) r (intB min r)
/-- IMIN, long form. -/
def execIminLong (o : LongOps) (s : State) : Res := let r := Reg.ofLong o; s.issue (formIntB r) r (intB min r)
/-- IMAX. -/
def execImax (o : ShortOps) (s : State) : Res := let r := Reg.ofShort 0 o; s.issue (formIntB r) r (intB max r)
/-- IMAX, long form. -/
def execImaxLong (o : LongOps) (s : State) : Res := let r := Reg.ofLong o; s.issue (formIntB r) r (intB max r)
/-- IABS. -/
def execIabs (o : ShortOps) (s : State) : Res := let r := Reg.ofShort 0 o; s.issue (formIabs r) r (iabsBody r)
/-- IABS, long form. -/
def execIabsLong (o : LongOps) (s : State) : Res := let r := Reg.ofLong o; s.issue (formIabs r) r (iabsBody r)
/-- AND. -/
def execAnd (o : ShortOps) (s : State) : Res := let r := Reg.ofShort 0 o; s.issue (formLogic r) r (logicB (fun a b => a &&& b) r)
/-- AND, long form. -/
def execAndLong (o : LongOps) (s : State) : Res := let r := Reg.ofLong o; s.issue (formLogic r) r (logicB (fun a b => a &&& b) r)
/-- OR. -/
def execOr (o : ShortOps) (s : State) : Res := let r := Reg.ofShort 0 o; s.issue (formLogic r) r (logicB (fun a b => a ||| b) r)
/-- OR, long form. -/
def execOrLong (o : LongOps) (s : State) : Res := let r := Reg.ofLong o; s.issue (formLogic r) r (logicB (fun a b => a ||| b) r)
/-- XOR. -/
def execXor (o : ShortOps) (s : State) : Res := let r := Reg.ofShort 0 o; s.issue (formLogic r) r (logicB (fun a b => a ^^^ b) r)
/-- XOR, long form. -/
def execXorLong (o : LongOps) (s : State) : Res := let r := Reg.ofLong o; s.issue (formLogic r) r (logicB (fun a b => a ^^^ b) r)
/-- SHL. -/
def execShl (o : ShortOps) (s : State) : Res := let r := Reg.ofShort 0 o; s.issue (formLogic r) r (logicB shlWord r)
/-- SHL, long form. -/
def execShlLong (o : LongOps) (s : State) : Res := let r := Reg.ofLong o; s.issue (formLogic r) r (logicB shlWord r)
/-- SHR. -/
def execShr (o : ShortOps) (s : State) : Res := let r := Reg.ofShort 0 o; s.issue (formLogic r) r (logicB shrWord r)
/-- SHR, long form. -/
def execShrLong (o : LongOps) (s : State) : Res := let r := Reg.ofLong o; s.issue (formLogic r) r (logicB shrWord r)
/-- SAR. -/
def execSar (o : ShortOps) (s : State) : Res := let r := Reg.ofShort 0 o; s.issue (formLogic r) r (logicB sarWord r)
/-- SAR, long form. -/
def execSarLong (o : LongOps) (s : State) : Res := let r := Reg.ofLong o; s.issue (formLogic r) r (logicB sarWord r)
/-- POPC. -/
def execPopc (o : ShortOps) (s : State) : Res := let r := Reg.ofShort 0 o; s.issue (formUnary r) r (unary popWord)
/-- POPC, long form. -/
def execPopcLong (o : LongOps) (s : State) : Res := let r := Reg.ofLong o; s.issue (formUnary r) r (unary popWord)
/-- CLZ. -/
def execClz (o : ShortOps) (s : State) : Res := let r := Reg.ofShort 0 o; s.issue (formUnary r) r (unary clzWord)
/-- CLZ, long form. -/
def execClzLong (o : LongOps) (s : State) : Res := let r := Reg.ofLong o; s.issue (formUnary r) r (unary clzWord)
/-- BFE. -/
def execBfe (o : ShortOps) (s : State) : Res := let r := Reg.ofShort 0 o; s.issue (formBfe r) r (bfeBody r)
/-- BFE, long form. -/
def execBfeLong (o : LongOps) (s : State) : Res := let r := Reg.ofLong o; s.issue (formBfe r) r (bfeBody r)
/-- BFI. -/
def execBfi (o : ShortOps) (s : State) : Res := let r := Reg.ofShort 0 o; s.issue (formThree r) r (three bfiWord)
/-- BFI, long form. -/
def execBfiLong (o : LongOps) (s : State) : Res := let r := Reg.ofLong o; s.issue (formThree r) r (three bfiWord)
/-- BMIX. -/
def execBmix (o : ShortOps) (s : State) : Res := let r := Reg.ofShort 0 o; s.issue (formThree r) r (three bmixWord)
/-- BMIX, long form. -/
def execBmixLong (o : LongOps) (s : State) : Res := let r := Reg.ofLong o; s.issue (formThree r) r (three bmixWord)
/-- SEL. -/
def execSel (o : ShortOps) (s : State) : Res := let r := Reg.ofShort 0 o; s.issue (formSel r) r (selBody r)
/-- SEL, long form. -/
def execSelLong (o : LongOps) (s : State) : Res := let r := Reg.ofLong o; s.issue (formSel r) r (selBody r)
/-- MOV. -/
def execMov (o : ShortOps) (s : State) : Res := let r := Reg.ofShort 0 o; s.issue (formMov r) r (movBody)
/-- MOV, long form. -/
def execMovLong (o : LongOps) (s : State) : Res := let r := Reg.ofLong o; s.issue (formMov r) r (movBody)
/-- MOV.s. -/
def execMovS (o : LongOps) (s : State) : Res := let r := Reg.ofLong o; s.issue (formMov r) r (movSBody r)
/-- MOVI. -/
def execMovi (d : BitVec 8) (imm : BitVec 16) (s : State) : Res := s.movi true d (imm.signExtend 32)
/-- MOVI, long form: the low half of W0 is zero. -/
def execMoviLong (d : BitVec 8) (z : BitVec 16) (w1 : Word) (s : State) : Res := s.movi (decide (z = 0)) d w1
/-- CMP. -/
def execCmp (o : ShortOps) (s : State) : Res := let r := Reg.ofShort 0 o; s.issue (formCmp r) r (cmpBody r)
/-- CMP, long form. -/
def execCmpLong (o : LongOps) (s : State) : Res := let r := Reg.ofLong o; s.issue (formCmp r) r (cmpBody r)
/-- DOT4. -/
def execDot4 (o : ShortOps) (s : State) : Res := let r := Reg.ofShort 9 o; s.issue (formDot4 r) r (dot4Body r)
/-- DOT4, long form. -/
def execDot4Long (o : LongOps) (s : State) : Res := let r := Reg.ofLong o; s.issue (formDot4 r) r (dot4Body r)
/-- LEA. -/
def execLea (o : ShortOps) (s : State) : Res := let r := Reg.ofShort 0 o; s.issue (formLea r) r (leaBody r)
/-- LEA, long form. -/
def execLeaLong (o : LongOps) (s : State) : Res := let r := Reg.ofLong o; s.issue (formLea r) r (leaBody r)
/-- IADD3. -/
def execIadd3 (o : ShortOps) (s : State) : Res := let r := Reg.ofShort 0 o; s.issue (formIadd3 r) r (iadd3Body)
/-- IADD3, long form. -/
def execIadd3Long (o : LongOps) (s : State) : Res := let r := Reg.ofLong o; s.issue (formIadd3 r) r (iadd3Body)
/-- BREV. -/
def execBrev (o : ShortOps) (s : State) : Res := let r := Reg.ofShort 0 o; s.issue (formUnary r) r (unary brevWord)
/-- BREV, long form. -/
def execBrevLong (o : LongOps) (s : State) : Res := let r := Reg.ofLong o; s.issue (formUnary r) r (unary brevWord)

end Sys2Proof.Machine
end

