-- ==== Sys2Proof/Machine/Special.lean ====
section
/-!
DEFINITION. Machine/Special: the correctly rounded special functions (R202, R203, R246). An irrational value is enclosed
between two fixed-point numbers of P fraction bits; where both ends round alike, that is the correctly rounded result, and
where they do not, P grows. The error bound of an enclosure is 2^20 units of its last place; the series below make fewer
than 2^12 truncations of one unit, each amplified by less than 2^6.
-/

namespace Sys2Proof.Machine

/-- Error bound of an enclosure, in units of the last place. -/
def encErr : Int := 2 ^ 20

/-- Truncated product of two fixed-point numbers. -/
def fxMul (p : Nat) (a b : Int) : Int := a * b / (2 ^ p : Int)

/-- Sum of the series t, t·x/d1, t·x·x/(d1·d2), …: the terms until the fuel ends; `dv` gives the divisor of term n. -/
def fxSeries (p : Nat) (x : Int) (dv : Nat → Nat) : Nat → Nat → Int → Int → Int
  | 0, _, _, acc => acc
  | fuel + 1, n, t, acc =>
    let t' := fxMul p t x / (dv n : Int)
    fxSeries p x dv fuel (n + 1) t' (acc + t')

/-- atanh series: Σ x^(2n+1)/(2n+1) for |x| ≤ 1/3; `sq` is x². -/
def fxAtanhLoop (p : Nat) (sq : Int) : Nat → Nat → Int → Int → Int
  | 0, _, _, acc => acc
  | fuel + 1, n, pw, acc =>
    let pw' := fxMul p pw sq
    fxAtanhLoop p sq fuel (n + 1) pw' (acc + pw' / ((2 * n + 1 : Nat) : Int))

/-- atanh x. -/
def fxAtanh (p : Nat) (x : Int) : Int := fxAtanhLoop p (fxMul p x x) p 1 x x

/-- ln 2 = 2 atanh(1/3). -/
def fxLn2 (p : Nat) : Int := 2 * fxAtanh p ((2 ^ p : Int) / 3)

/-- atan(1/k) by its alternating series. -/
def fxAtanInv (p k : Nat) : Int :=
  fxAtanhLoop p (-((2 ^ p : Int) / ((k * k : Nat) : Int))) p 1 ((2 ^ p : Int) / (k : Int)) ((2 ^ p : Int) / (k : Int))

/-- π = 16 atan(1/5) − 4 atan(1/239). -/
def fxPi (p : Nat) : Int := 16 * fxAtanInv p 5 - 4 * fxAtanInv p 239

/-- e^x for |x| ≤ 1. -/
def fxExp (p : Nat) (x : Int) : Int := fxSeries p x (fun n => n + 1) p 0 (2 ^ p) (2 ^ p)

/-- cos x for |x| ≤ 1. -/
def fxCos (p : Nat) (x : Int) : Int := fxSeries p (-(fxMul p x x)) (fun n => (2 * n + 1) * (2 * n + 2)) p 0 (2 ^ p) (2 ^ p)

/-- Results of the two ends of an enclosure agree. -/
def Rnd.ends (o : Rnd) (neg : Bool) (lo hi : Int) (e : Int) : Option FRes :=
  if lo ≤ 0 then none
  else
    let a := o.round neg lo.toNat 1 e
    let b := o.round neg hi.toNat 1 e
    if a = b then some a else none

/-- Precisions tried. -/
def precisions : List Nat := [256, 512, 1024, 2048]

/-- The first precision whose enclosure separates: `f p` is the magnitude with p fraction bits, times 2^`e` as its last unit
says; the fall-back keeps one of the ends, which of them being open. -/
def Rnd.enclose (o : Rnd) (neg : Bool) (f : Nat → Int × Int) : FRes :=
  let try_ := fun (p : Nat) => let v := f p; o.ends neg (v.1 - encErr) (v.1 + encErr) v.2
  match precisions.findSome? try_ with
  | some r => r
  | none =>
    let v := f 2048
    o.round neg (if Config.roundUp v.1.toNat then v.1 + encErr else max 1 (v.1 - encErr)).toNat 1 v.2

/-- A magnitude just above or just below a positive x × 2^e, by less than any rounding can see (2^-80 of it). -/
def Rnd.near (o : Rnd) (neg : Bool) (x : Nat) (e : Int) (above : Bool) : FRes :=
  o.round neg (if above then x * 2 ^ 80 + 1 else x * 2 ^ 80 - 1) 1 (e - 80)

/-- 2^a (R202, R203). -/
def Rnd.exp2 (o : Rnd) (a : FV) : FRes :=
  match a with
  | .nan s => o.invalid s
  | .inf m => if m then o.zero false else o.infinite false 0
  | .fin m x =>
    let v : Int := if m then -(x : Int) else x
    let k := v / (2 ^ 149 : Int)
    let f := v % (2 ^ 149 : Int)
    if 2000 ≤ k then o.near false 1 2000 true
    else if k < -2000 then o.near false 1 (-2000) true
    else if f = 0 then o.round false 1 1 k
    else if x < 2 ^ 89 then o.near false 1 0 (!m)
    else o.enclose false (fun p => (fxExp p (fxMul p (f * 2 ^ (p - 149)) (fxLn2 p)), k - p))

/-- log2 a (R202, R203). -/
def Rnd.log2 (o : Rnd) (a : FV) : FRes :=
  match a with
  | .nan s => o.invalid s
  | .inf m => if m then o.invalid true else o.infinite false 0
  | .fin m x =>
    if x = 0 then o.infinite true excDZ
    else if m then o.invalid true
    else
      let n := Nat.log2 x
      let k : Int := (n : Int) - 149
      if x = 2 ^ n then o.ofInteger k
      else
        let f := fun (p : Nat) =>
          -- m' = x / 2^n in [1, 2): log2 m' = 2 atanh((m' − 1)/(m' + 1)) / ln 2
          let mant : Int := (x * 2 ^ p / 2 ^ n : Nat)
          let one : Int := 2 ^ p
          let t := (mant - one) * one / (mant + one)
          let l := 2 * fxAtanh p t * one / fxLn2 p
          (l + k * one)
        let neg := decide (k < 0)
        o.enclose neg (fun p => (if neg then -(f p) else f p, -(p : Int)))

/-- cos(2π r) for r × 2^-149 turns, r at most an eighth of a turn. -/
def trigCos (r p : Nat) : Int := fxCos p (fxMul p (2 * fxPi p) ((r * 2 ^ (p - 149) : Nat) : Int))

/-- sin(2π r) for r × 2^-149 turns, r at most an eighth of a turn, at 2^(log2 r − 149 − p): θ × (sin θ / θ). -/
def trigSin (r p : Nat) : Int :=
  let th := fxMul p (2 * fxPi p) ((r * 2 ^ (p - 149) : Nat) : Int)
  let q := fxSeries p (-(fxMul p th th)) (fun n => (2 * n + 2) * (2 * n + 3)) p 0 (2 ^ p) (2 ^ p)
  fxMul p (2 * fxPi p * (r : Int) / (2 ^ Nat.log2 r : Int)) q

/-- sin(2π r) or cos(2π r) for r × 2^-149 turns in [0, 1/8], not an exact case; sign given. -/
def Rnd.trigEighth (o : Rnd) (neg cosine : Bool) (r : Nat) : FRes :=
  if cosine then
    if r < 2 ^ 89 then o.near neg 1 0 false else o.enclose neg (fun p => (trigCos r p, -(p : Int)))
  else o.enclose neg (fun p => (trigSin r p, (Nat.log2 r : Int) - 149 - (p : Int)))

/-- sin(2π t) for t × 2^-149 turns in [0, 1): by octants; `zneg` is the sign of an exact zero. -/
def Rnd.sinTurn (o : Rnd) (t : Nat) (flip zneg : Bool) : FRes :=
  let half := 2 ^ 148
  let quarter := 2 ^ 147
  let eighth := 2 ^ 146
  let neg := flip != decide (half ≤ t)
  let u := t % half
  let v := if u ≤ quarter then u else half - u
  if v = 0 then o.zero zneg
  else if v = quarter then o.round neg 1 1 0
  else if v ≤ eighth then o.trigEighth neg false v
  else o.trigEighth neg true (quarter - v)

/-- sin(2πa) (R202, R203). -/
def Rnd.sin (o : Rnd) (a : FV) : FRes :=
  match a with
  | .nan s => o.invalid s
  | .inf _ => o.invalid true
  | .fin m x => o.sinTurn (x % 2 ^ 149) m m

/-- cos(2πa) (R202, R203): the sine a quarter turn on; an exact zero is +0. -/
def Rnd.cos (o : Rnd) (a : FV) : FRes :=
  match a with
  | .nan s => o.invalid s
  | .inf _ => o.invalid true
  | .fin _ x => o.sinTurn ((x + 2 ^ 147) % 2 ^ 149) false false

/-- e^-y for y = n/2^149 ≥ 0 as a fixed-point number: 2^-k e^-r with k = floor(y / ln 2). -/
def fxExpNeg (p : Nat) (y : Int) : Int :=
  let ln2 := fxLn2 p
  let k := y / ln2
  fxExp p (-(y - k * ln2)) / (2 ^ k.toNat : Int)

/-- tanh a (R202, R203). -/
def Rnd.tanh (o : Rnd) (a : FV) : FRes :=
  match a with
  | .nan s => o.invalid s
  | .inf m => o.round m 1 1 0
  | .fin m x =>
    if x = 0 then o.zero m
    else if x < 2 ^ 109 then o.near m x (-149) false
    else if 2 ^ 155 ≤ x then o.near m 1 0 false
    else o.enclose m (fun p =>
      let one : Int := 2 ^ p
      let y : Int := ((2 * x * 2 ^ (p - 149) : Nat) : Int)
      let ex := fxExpNeg p y
      ((one - ex) * one / (one + ex), -(p : Int)))

/-- Σ z^(2n+1)/(1·3·5···(2n+1)) for the normal distribution; z² is `sq`. -/
def fxPhiLoop (p : Nat) (sq : Int) : Nat → Nat → Int → Int → Int
  | 0, _, _, acc => acc
  | fuel + 1, n, t, acc =>
    let t' := fxMul p t sq / ((2 * n + 1 : Nat) : Int)
    fxPhiLoop p sq fuel (n + 1) t' (acc + t')

/-- √(2π) as a fixed-point number. -/
def fxSqrt2Pi (p : Nat) : Int := (isqrt (2 * fxPi p * 2 ^ p).toNat : Int)

/-- z Φ(z) for a magnitude z = x × 2^-149 below 16 and its sign, at 2^-p: Φ(z) = 1/2 ± φ(z) Σ, computed 512 bits finer,
since Σ reaches e^128. -/
def fxGelu (p0 : Nat) (m : Bool) (x : Nat) : Int :=
  let p := p0 + 512
  let z : Int := ((x * 2 ^ (p - 149) : Nat) : Int)
  let sq := fxMul p z z
  let sum := fxPhiLoop p sq p 1 z z
  let phi := fxExpNeg p (sq / 2) * 2 ^ p / fxSqrt2Pi p
  let half : Int := 2 ^ (p - 1)
  let big := if m then half - fxMul p phi sum else half + fxMul p phi sum
  fxMul p z big / 2 ^ 512

/-- x Φ(x) (R246): ±0 and infinities as stated there; below −15 the value is under every f32 subnormal's half. -/
def Rnd.gelu (o : Rnd) (a : FV) : FRes :=
  match a with
  | .nan s => o.invalid s
  | .inf m => if m then o.zero true else o.infinite false 0
  | .fin m x =>
    if x = 0 then o.zero m
    else if x < 2 ^ 79 then o.near m x (-150) (!m)
    else if 2 ^ 153 ≤ x then (if m then o.near true 1 (-1000) true else o.near false x (-149) false)
    else o.enclose m (fun p => (fxGelu p m x, -(p : Int)))

end Sys2Proof.Machine
end

