-- ==== Sys2Proof/Machine/Floating.lean ====
section
/-!
DEFINITION. Machine/Floating: floating-point arithmetic, conversions, classification, quantising and special functions (R192
to R203).
-/

namespace Sys2Proof.Machine

/-- A rounding field: codes 0 to 5 (R193). -/
def rndField (n : Nat) : Bool := decide (n ≤ 5)

/-- The mode in force (R70): the PFX override, the instruction's own field, the default. -/
def State.mode (s : State) (own dflt : Nat) : Nat := if s.ctx.rnd ≠ 0 then s.ctx.rnd else if own ≠ 0 then own else dflt

/-- How a result is written, with rounding in X[2:0] and .sat in X[3]. -/
def State.rndX (s : State) (r : Reg) (f : Fmt) : Rnd :=
  { f := f, mode := s.mode (r.xf 0 3) 1, sat := s.ctx.sat || r.xb 3, fo := r.fo }

/-- How a result is written, with rounding in X[6:4] and .sat in X[7]. -/
def State.rndHigh (s : State) (r : Reg) (f : Fmt) : Rnd :=
  { f := f, mode := s.mode (r.xf 4 3) 1, sat := s.ctx.sat || r.xb 7, fo := r.fo }

/-- Results and exceptions of the executing lanes; a lane with a poisoned source signals nothing (R194). -/
def State.fpLanes (s : State) (e : Mask) (tg : List (List Nat)) (v : Nat → FRes) (p : Nat → Bool) : Out :=
  s.fpDone e (fun l => if p l then 0 else (v l).exc) (fun s => s.putLanes e tg (fun l => { val := BitVec.ofNat 32 (v l).bits, pois := p l }))

/-- A float source of the instruction's type, FI applied. -/
def Team.fsrc (t : Team) (r : Reg) (tg : List (List Nat)) (k l : Nat) : FV := FV.of r.t r.fi (t.src tg k l)

/-! ## Arithmetic (R196, R197) -/

/-- Fields of FADD, FSUB, FMUL and FSCALE. -/
def formF2 (r : Reg) : Form :=
  { cls := 1, d := .vec, a := .vec, b := .vec, types := [2, 3, 4], x := rndField (r.xf 0 3) && decide (r.x < 16),
    fi := true, fo := true, rnd := true, sat := true }

/-- A two-source float result. -/
def f2Body (f : Rnd → FV → FV → FRes) (r : Reg) (s : State) (e : Mask) (tg : List (List Nat)) : Out :=
  let t := s.me
  s.fpLanes e tg (fun l => f (s.rndX r (fmtOf r.t)) (t.fsrc r tg 1 l) (t.fsrc r tg 2 l))
    (fun l => (t.src tg 1 l).pois || (t.src tg 2 l).pois)

/-- Fields of FFMA. -/
def formFfma (r : Reg) : Form := { formF2 r with c := .vec }

/-- FFMA. -/
def ffmaBody (r : Reg) (s : State) (e : Mask) (tg : List (List Nat)) : Out :=
  let t := s.me
  s.fpLanes e tg (fun l => (s.rndX r (fmtOf r.t)).fma (t.fsrc r tg 1 l) (t.fsrc r tg 2 l) (t.fsrc r tg 3 l))
    (fun l => (t.src tg 1 l).pois || (t.src tg 2 l).pois || (t.src tg 3 l).pois)

/-- Fields of FMIN and FMAX. -/
def formFmin (r : Reg) : Form :=
  { cls := 1, d := .vec, a := .vec, b := .vec, types := [2, 3, 4], x := decide (r.x = 0), fi := true, fo := true }

/-- FMIN and FMAX: no rounding takes place. -/
def fminBody (big : Bool) (r : Reg) (s : State) (e : Mask) (tg : List (List Nat)) : Out :=
  f2Body (fun o a b => ({ o with mode := 1, sat := false }).minmax big a b) r s e tg

/-- FSCALE: vB is an integer, which FI does not touch. -/
def fscaleBody (r : Reg) (s : State) (e : Mask) (tg : List (List Nat)) : Out :=
  let t := s.me
  s.fpLanes e tg (fun l => (s.rndX r (fmtOf r.t)).scale (t.fsrc r tg 1 l) (t.src tg 2 l).val.toInt)
    (fun l => (t.src tg 1 l).pois || (t.src tg 2 l).pois)

/-- Fields of FRND. -/
def formFrnd (r : Reg) : Form :=
  { cls := 1, d := .vec, a := .vec, types := [2, 3, 4], x := rndField r.x, fi := true, rnd := true }

/-- A one-source float result. -/
def f1Body (f : Rnd → FV → FRes) (r : Reg) (s : State) (e : Mask) (tg : List (List Nat)) : Out :=
  let t := s.me
  s.fpLanes e tg (fun l => f (s.rndX r (fmtOf r.t)) (t.fsrc r tg 1 l)) (fun l => (t.src tg 1 l).pois)

/-! ## Packed halves (R198) -/

/-- Fields of PKADD and PKMUL. -/
def formPk (r : Reg) : Form :=
  { cls := 1, d := .vec, a := .vec, b := .vec, types := [11, 12], x := rndField (r.xf 0 3) && decide (r.x < 64),
    fi := true, fo := true, rnd := true, sat := true }

/-- Fields of PKFMA. -/
def formPkfma (r : Reg) : Form := { formPk r with c := .vec }

/-- Format of the halves. -/
def pkFmt (r : Reg) : Fmt := if r.t = 11 then fmtF16 else fmtBF16

/-- Half h of an element, FI applied. -/
def half (r : Reg) (x : Elem) (h : Nat) : FV := ((pkFmt r).decode (bitsN x.val (16 * h) 16)).flushIn (pkFmt r) r.fi

/-- Which half of vB meets half h of vA. -/
def bsel (r : Reg) (h : Nat) : Nat :=
  match r.xf 4 2 with
  | 0 => h
  | 1 => 1 - h
  | 2 => 0
  | _ => 1

/-- Two halves put together; the lane signals the union (R194). -/
def joinHalves (lo hi : FRes) : FRes := { bits := lo.bits + 2 ^ 16 * hi.bits, exc := lo.exc ||| hi.exc }

/-- A packed result. -/
def pkBody (f : Rnd → FV → FV → FV → FRes) (three : Bool) (r : Reg) (s : State) (e : Mask) (tg : List (List Nat)) : Out :=
  let t := s.me
  let one := fun (l h : Nat) => f (s.rndX r (pkFmt r)) (half r (t.src tg 1 l) h) (half r (t.src tg 2 l) (bsel r h)) (half r (t.src tg 3 l) h)
  s.fpLanes e tg (fun l => joinHalves (one l 0) (one l 1))
    (fun l => (t.src tg 1 l).pois || (t.src tg 2 l).pois || (three && (t.src tg 3 l).pois))

/-! ## Conversions (R142, R199) and classification (R200) -/

/-- A float source code (R142). -/
def floatCode (n : Nat) : Bool := [0, 3, 4, 5, 6].contains n

/-- Fields of FCVT. -/
def formFcvt (r : Reg) : Form :=
  { cls := 1, d := .vec, a := .vec, types := [2, 3, 4, 5, 6], x := floatCode (r.xf 0 4) && rndField (r.xf 4 3),
    fi := true, fo := true, rnd := true, sat := true }

/-- FCVT. -/
def fcvtBody (r : Reg) (s : State) (e : Mask) (tg : List (List Nat)) : Out :=
  let t := s.me
  s.fpLanes e tg (fun l => (s.rndHigh r (fmtOf r.t)).convert (FV.of (r.xf 0 4) r.fi (t.src tg 1 l))) (fun l => (t.src tg 1 l).pois)

/-- Fields of I2F. -/
def formI2f (r : Reg) : Form :=
  { cls := 1, d := .vec, a := .vec, types := [2, 3, 4], x := intTypes.contains (r.xf 0 4) && rndField (r.xf 4 3),
    fo := true, rnd := true, sat := true }

/-- I2F. -/
def i2fBody (r : Reg) (s : State) (e : Mask) (tg : List (List Nat)) : Out :=
  let t := s.me
  s.fpLanes e tg (fun l => (s.rndHigh r (fmtOf r.t)).ofInteger (extInt (r.xf 0 4) (t.src tg 1 l).val.toNat)) (fun l => (t.src tg 1 l).pois)

/-- Fields of F2I. -/
def formF2i (r : Reg) : Form :=
  { cls := 1, d := .vec, a := .vec, types := intTypes, x := floatCode (r.xf 0 4) && rndField (r.xf 4 3) && !r.xb 7,
    fi := true, rnd := true, sat := true }

/-- F2I: the default mode is rz (R70). -/
def f2iBody (r : Reg) (s : State) (e : Mask) (tg : List (List Nat)) : Out :=
  let t := s.me
  s.fpLanes e tg (fun l =>
      let v := toInteger r.t (s.mode (r.xf 4 3) 2) (FV.of (r.xf 0 4) r.fi (t.src tg 1 l))
      { bits := v.1.toNat, exc := v.2 }) (fun l => (t.src tg 1 l).pois)

/-- Fields of FCLASS. -/
def formFclass (r : Reg) : Form :=
  { cls := 1, d := .vec, a := .vec, types := [2, 3, 4], x := decide (r.x = 0), fi := true }

/-- FCLASS: signals nothing. -/
def fclassBody (r : Reg) (s : State) (e : Mask) (tg : List (List Nat)) : Out :=
  s.putLanes e tg (fun l => res (classify (fmtOf r.t) (s.me.fsrc r tg 1 l)) [s.me.src tg 1 l])

/-! ## QNT (R201) -/

/-- Registers that QNT writes. -/
def qntRegs (t : Nat) : Nat := if t = 15 then 9 else 5

/-- Fields of QNT. -/
def formQnt (r : Reg) : Form :=
  { cls := 1, d := .run (qntRegs r.t), a := .run 32, b := if r.t = 14 then .run 8 else .zero, types := [13, 14, 15]
    x := decide (r.x = 0) || (decide (r.t = 15) && decide (r.x = 1)), fi := true }

/-- The block that QNT forms in a lane, as words. DESIGN CHOICE (log entry 68): FI = 1 flushes the 32 elements and leaves the codebook halves as
they are. -/
def qntLane (r : Reg) (t : Team) (tg : List (List Nat)) (l : Nat) : List Word :=
  let vs := (List.range 32).map (fun i => FV.of 2 r.fi (t.srcAt tg 1 i l))
  let cb := (List.range 16).map (fun i => bits (t.srcAt tg 2 (i / 2) l).val (16 * (i % 2)) 16)
  let k : Blk := if r.t = 15 then .mx8 (r.xb 0) else if r.t = 14 then .c4 else .i4x
  let bs := k.quantise cb vs
  (List.range (qntRegs r.t)).map (fun j => BitVec.ofNat 32 (ofLeBytes ((bs.drop (4 * j)).take 4)))

/-- QNT. -/
def qntBody (r : Reg) (s : State) (e : Mask) (tg : List (List Nat)) : Out :=
  let t := s.me
  let p := fun l => (List.range 32).any (fun i => (t.srcAt tg 1 i l).pois) || (decide (r.t = 14) && (List.range 8).any (fun i => (t.srcAt tg 2 i l).pois))
  let nv := fun l => (List.range 32).any (fun i => (FV.of 2 r.fi (t.srcAt tg 1 i l)).isSnan)
  s.fpDone e (fun l => Exc.when (!p l && nv l) excNV) (fun s =>
    .go { s with me := s.me.dstRun tg 0 (qntRegs r.t) e (fun j l => { val := (qntLane r t tg l).getD j 0, pois := p l }) })

/-! ## Special functions (R202, R203) -/

/-- Fields of the special functions. -/
def formSfu (r : Reg) : Form :=
  { cls := 2, d := .vec, a := .vec, types := [2, 3, 4], x := rndField (r.xf 0 3) && decide (r.x < 16),
    fi := true, fo := true, rnd := true, sat := true }

/-! ## The instructions -/

/-- FADD. -/
def execFadd (o : ShortOps) (s : State) : Res := let r := Reg.ofShort 2 o; s.issue (formF2 r) r (f2Body Rnd.add r)
/-- FADD, long form. -/
def execFaddLong (o : LongOps) (s : State) : Res := let r := Reg.ofLong o; s.issue (formF2 r) r (f2Body Rnd.add r)
/-- FSUB. -/
def execFsub (o : ShortOps) (s : State) : Res := let r := Reg.ofShort 2 o; s.issue (formF2 r) r (f2Body (fun o a b => o.add a b.negate) r)
/-- FSUB, long form. -/
def execFsubLong (o : LongOps) (s : State) : Res := let r := Reg.ofLong o; s.issue (formF2 r) r (f2Body (fun o a b => o.add a b.negate) r)
/-- FMUL. -/
def execFmul (o : ShortOps) (s : State) : Res := let r := Reg.ofShort 2 o; s.issue (formF2 r) r (f2Body Rnd.mul r)
/-- FMUL, long form. -/
def execFmulLong (o : LongOps) (s : State) : Res := let r := Reg.ofLong o; s.issue (formF2 r) r (f2Body Rnd.mul r)
/-- FFMA. -/
def execFfma (o : ShortOps) (s : State) : Res := let r := Reg.ofShort 2 o; s.issue (formFfma r) r (ffmaBody r)
/-- FFMA, long form. -/
def execFfmaLong (o : LongOps) (s : State) : Res := let r := Reg.ofLong o; s.issue (formFfma r) r (ffmaBody r)
/-- FMIN. -/
def execFmin (o : ShortOps) (s : State) : Res := let r := Reg.ofShort 2 o; s.issue (formFmin r) r (fminBody false r)
/-- FMIN, long form. -/
def execFminLong (o : LongOps) (s : State) : Res := let r := Reg.ofLong o; s.issue (formFmin r) r (fminBody false r)
/-- FMAX. -/
def execFmax (o : ShortOps) (s : State) : Res := let r := Reg.ofShort 2 o; s.issue (formFmin r) r (fminBody true r)
/-- FMAX, long form. -/
def execFmaxLong (o : LongOps) (s : State) : Res := let r := Reg.ofLong o; s.issue (formFmin r) r (fminBody true r)
/-- FCVT. -/
def execFcvt (o : ShortOps) (s : State) : Res := let r := Reg.ofShort 3 o; s.issue (formFcvt r) r (fcvtBody r)
/-- FCVT, long form. -/
def execFcvtLong (o : LongOps) (s : State) : Res := let r := Reg.ofLong o; s.issue (formFcvt r) r (fcvtBody r)
/-- I2F. -/
def execI2f (o : ShortOps) (s : State) : Res := let r := Reg.ofShort 2 o; s.issue (formI2f r) r (i2fBody r)
/-- I2F, long form. -/
def execI2fLong (o : LongOps) (s : State) : Res := let r := Reg.ofLong o; s.issue (formI2f r) r (i2fBody r)
/-- F2I. -/
def execF2i (o : ShortOps) (s : State) : Res := let r := Reg.ofShort 0 o; s.issue (formF2i r) r (f2iBody r)
/-- F2I, long form. -/
def execF2iLong (o : LongOps) (s : State) : Res := let r := Reg.ofLong o; s.issue (formF2i r) r (f2iBody r)
/-- PKADD. -/
def execPkadd (o : ShortOps) (s : State) : Res := let r := Reg.ofShort 11 o; s.issue (formPk r) r (pkBody (fun o a b _ => o.add a b) false r)
/-- PKADD, long form. -/
def execPkaddLong (o : LongOps) (s : State) : Res := let r := Reg.ofLong o; s.issue (formPk r) r (pkBody (fun o a b _ => o.add a b) false r)
/-- PKMUL. -/
def execPkmul (o : ShortOps) (s : State) : Res := let r := Reg.ofShort 11 o; s.issue (formPk r) r (pkBody (fun o a b _ => o.mul a b) false r)
/-- PKMUL, long form. -/
def execPkmulLong (o : LongOps) (s : State) : Res := let r := Reg.ofLong o; s.issue (formPk r) r (pkBody (fun o a b _ => o.mul a b) false r)
/-- PKFMA. -/
def execPkfma (o : ShortOps) (s : State) : Res := let r := Reg.ofShort 11 o; s.issue (formPkfma r) r (pkBody Rnd.fma true r)
/-- PKFMA, long form. -/
def execPkfmaLong (o : LongOps) (s : State) : Res := let r := Reg.ofLong o; s.issue (formPkfma r) r (pkBody Rnd.fma true r)
/-- FCLASS. -/
def execFclass (o : ShortOps) (s : State) : Res := let r := Reg.ofShort 2 o; s.issue (formFclass r) r (fclassBody r)
/-- FCLASS, long form. -/
def execFclassLong (o : LongOps) (s : State) : Res := let r := Reg.ofLong o; s.issue (formFclass r) r (fclassBody r)
/-- FSCALE. -/
def execFscale (o : ShortOps) (s : State) : Res := let r := Reg.ofShort 2 o; s.issue (formF2 r) r (fscaleBody r)
/-- FSCALE, long form. -/
def execFscaleLong (o : LongOps) (s : State) : Res := let r := Reg.ofLong o; s.issue (formF2 r) r (fscaleBody r)
/-- FRND. -/
def execFrnd (o : ShortOps) (s : State) : Res := let r := Reg.ofShort 2 o; s.issue (formFrnd r) r (f1Body Rnd.integral r)
/-- FRND, long form. -/
def execFrndLong (o : LongOps) (s : State) : Res := let r := Reg.ofLong o; s.issue (formFrnd r) r (f1Body Rnd.integral r)
/-- QNT. -/
def execQnt (o : ShortOps) (s : State) : Res := let r := Reg.ofShort 13 o; s.issue (formQnt r) r (qntBody r)
/-- QNT, long form. -/
def execQntLong (o : LongOps) (s : State) : Res := let r := Reg.ofLong o; s.issue (formQnt r) r (qntBody r)
/-- FRCP. -/
def execFrcp (o : ShortOps) (s : State) : Res := let r := Reg.ofShort 2 o; s.issue (formSfu r) r (f1Body Rnd.recip r)
/-- FRCP, long form. -/
def execFrcpLong (o : LongOps) (s : State) : Res := let r := Reg.ofLong o; s.issue (formSfu r) r (f1Body Rnd.recip r)
/-- FRSQ. -/
def execFrsq (o : ShortOps) (s : State) : Res := let r := Reg.ofShort 2 o; s.issue (formSfu r) r (f1Body Rnd.rsqrt r)
/-- FRSQ, long form. -/
def execFrsqLong (o : LongOps) (s : State) : Res := let r := Reg.ofLong o; s.issue (formSfu r) r (f1Body Rnd.rsqrt r)
/-- FSQRT. -/
def execFsqrt (o : ShortOps) (s : State) : Res := let r := Reg.ofShort 2 o; s.issue (formSfu r) r (f1Body Rnd.sqrt r)
/-- FSQRT, long form. -/
def execFsqrtLong (o : LongOps) (s : State) : Res := let r := Reg.ofLong o; s.issue (formSfu r) r (f1Body Rnd.sqrt r)
/-- FEXP2. -/
def execFexp2 (o : ShortOps) (s : State) : Res := let r := Reg.ofShort 2 o; s.issue (formSfu r) r (f1Body Rnd.exp2 r)
/-- FEXP2, long form. -/
def execFexp2Long (o : LongOps) (s : State) : Res := let r := Reg.ofLong o; s.issue (formSfu r) r (f1Body Rnd.exp2 r)
/-- FLOG2. -/
def execFlog2 (o : ShortOps) (s : State) : Res := let r := Reg.ofShort 2 o; s.issue (formSfu r) r (f1Body Rnd.log2 r)
/-- FLOG2, long form. -/
def execFlog2Long (o : LongOps) (s : State) : Res := let r := Reg.ofLong o; s.issue (formSfu r) r (f1Body Rnd.log2 r)
/-- FSIN. -/
def execFsin (o : ShortOps) (s : State) : Res := let r := Reg.ofShort 2 o; s.issue (formSfu r) r (f1Body Rnd.sin r)
/-- FSIN, long form. -/
def execFsinLong (o : LongOps) (s : State) : Res := let r := Reg.ofLong o; s.issue (formSfu r) r (f1Body Rnd.sin r)
/-- FCOS. -/
def execFcos (o : ShortOps) (s : State) : Res := let r := Reg.ofShort 2 o; s.issue (formSfu r) r (f1Body Rnd.cos r)
/-- FCOS, long form. -/
def execFcosLong (o : LongOps) (s : State) : Res := let r := Reg.ofLong o; s.issue (formSfu r) r (f1Body Rnd.cos r)
/-- FTANH. -/
def execFtanh (o : ShortOps) (s : State) : Res := let r := Reg.ofShort 2 o; s.issue (formSfu r) r (f1Body Rnd.tanh r)
/-- FTANH, long form. -/
def execFtanhLong (o : LongOps) (s : State) : Res := let r := Reg.ofLong o; s.issue (formSfu r) r (f1Body Rnd.tanh r)

end Sys2Proof.Machine
end

