-- ==== Sys2Proof/Machine/Matrix.lean ====
section
/-!
DEFINITION. Machine/Matrix: the matrix instructions (R234 to R254): operand maps, issue and its faults, the arithmetic of R77,
what each instruction does when it completes, the operand latch, and accumulator slots.
-/

namespace Sys2Proof.Machine

/-! ## Operand maps (R236, R237) -/

/-- An operand map. -/
structure MapD where
  base : Nat
  rs : Nat
  ss : Nat
  swz : Nat
  sepsc : Bool
  trans : Bool
  space : Nat
  fmt : Nat
  sp : Nat
  cb : Nat
  /-- A reserved field is not zero. -/
  rsv : Bool
  deriving DecidableEq, Repr

/-- The map that 32 bytes hold. -/
def mapOf (bs : List Byte) : MapD :=
  let w := fieldAt bs 0x0C 4
  { base := fieldAt bs 0 8, rs := fieldAt bs 8 4, ss := w / 2 ^ 16, swz := w / 2 ^ 8 % 4, sepsc := decide (w / 2 ^ 7 % 2 = 1),
    trans := decide (w / 2 ^ 6 % 2 = 1), space := w / 2 ^ 4 % 4, fmt := w % 16, sp := fieldAt bs 0x10 8, cb := fieldAt bs 0x18 4,
    rsv := decide (w / 2 ^ 10 % 64 ≠ 0) || decide (fieldAt bs 0x1C 4 ≠ 0) }

/-- How the elements of an operand are stored. -/
inductive EKind where
  | f32 | f16 | bf16 | e4m3 | e5m2
  | mx (e5 : Bool)
  | i4x | c4 | auto
  deriving DecidableEq, Repr

/-- Element size of a plain format; 0 for a block format or auto. -/
def EKind.es : EKind → Nat
  | .f32 => 4
  | .f16 => 2
  | .bf16 => 2
  | .e4m3 => 1
  | .e5m2 => 1
  | _ => 0

/-- Bytes of a block's elements; 0 where the format has no blocks. -/
def EKind.eb : EKind → Nat
  | .mx _ => 32
  | .i4x => 16
  | .c4 => 16
  | _ => 0

/-- FORMAT of a map of MXA. -/
def kindOfFormat : Nat → EKind
  | 0 => .f16
  | 1 => .bf16
  | 2 => .mx false
  | 3 => .mx true
  | 4 => .i4x
  | 5 => .c4
  | _ => .auto

/-- T of MXLD and MXST, with E5M2. -/
def kindOfType (t : Nat) (e5 : Bool) : EKind :=
  match t with
  | 3 => .f16
  | 4 => .bf16
  | 5 => .e4m3
  | 6 => .e5m2
  | 0xD => .i4x
  | 0xF => .mx e5
  | _ => .f32

/-- SPACE: 0 scratchpad, 1 tile memory, 2 global. -/
def MapD.sel (m : MapD) : Space := match m.space with | 0 => .scratch | 1 => .tile | _ => .global

/-- An address of the map's space: modulo 2^32 in an on-chip memory, 2^64 in global memory. -/
def MapD.wrap (m : MapD) (a : Nat) : Nat := match m.space with | 2 => a % 2 ^ 64 | _ => a % 2 ^ 32

/-- The swizzle. -/
def MapD.sw (m : MapD) (s o : Nat) : Nat := if m.swz = 0 then o else Nat.xor o (s % 2 ^ (m.swz + 1) * 32)

/-- Address of element (r, k) of a plain format, or of the view that auto reads. -/
def MapD.plainAt (m : MapD) (es r k : Nat) : Nat :=
  if m.space = 1 then
    let u := if es = 4 then 2 else 1
    8192 * (m.base % 256 + k * u) + 2 * u * (m.base / 256 % 4096 + r)
  else
    let o := if m.trans then k * m.rs + r * es else r * m.rs + k * es
    m.wrap (m.base + m.sw (if m.trans then k else r) o)

/-- Addresses of the elements and of the scale byte of block b of row r. -/
def MapD.blockAt (m : MapD) (eb r b : Nat) : Nat × Nat :=
  if m.sepsc then (m.wrap (m.base + m.sw r (r * m.rs + b * eb)), m.wrap (m.sp + r * m.ss + b))
  else
    let a := m.wrap (m.base + m.sw r (r * m.rs + b * (eb + 1)))
    (a, m.wrap (a + eb))

/-! ## Faults at issue (R250) -/

/-- Sub-cause 1. -/
def MapD.bad1 (m : MapD) (mxa : Bool) (k : EKind) : Bool :=
  let blk := decide (k.eb ≠ 0)
  let plain := decide (k.es ≠ 0)
  (mxa && decide (7 ≤ m.fmt)) || decide (m.space = 3) || m.rsv || (m.trans && !plain) || (decide (k = .auto) && decide (m.space ≠ 2)) ||
  (m.sepsc && plain) ||
  (decide (m.space = 1) && (decide (m.rs ≠ 0) || decide (m.swz ≠ 0) || m.trans || m.sepsc || blk || decide (k = .auto))) ||
  (match m.space with
   | 0 => decide (2 ^ 32 ≤ m.base)
   | 1 => decide (2 ^ 20 ≤ m.base)
   | _ => decide (2 ^ 57 ≤ m.base))

/-- Sub-cause 2 of a map's own fields. -/
def MapD.bad2 (m : MapD) (k : EKind) : Bool :=
  if m.space = 1 then decide (k.es = 4) && decide (m.base % 2 = 1)
  else decide (k.es ≠ 0) && (decide (m.base % k.es ≠ 0) || decide (m.rs % k.es ≠ 0))

/-- What a read at issue of 32 bytes at a scratchpad offset gives: the offset is refused with sub-cause 2, the bytes are
poisoned, or the bytes. -/
inductive Cap where
  | bad
  | pois
  | ok (bs : List Byte)
  deriving DecidableEq, Repr

/-- A map, or a codebook, read at issue (R238). -/
def Block.capture (b : Block) (o : Nat) : Cap :=
  if o % 32 ≠ 0 ∨ !b.scratch.inside o 32 then .bad
  else if b.scratch.poisoned o 32 then .pois else .ok (b.scratch.read o 32)

/-- An unfinished access of the team orders a scratchpad read of n bytes behind it (R89, R238). -/
def Team.scratchWait (t : Team) (o n : Nat) : Bool :=
  (t.entries.drop t.suspended).any (fun f => !f.dropped && (f.work.acq ||
    (match f.work.extent with
     | some (.scratch, k) => f.work.writes && (lanesOf f.lmask).any (fun l =>
         let a := (f.addr.getD l 0).toNat
         decide (a < o + n) && decide (o < a + k))
     | _ => false)))

/-- A map with its codebook. -/
structure View where
  m : MapD
  k : EKind
  raw : List Byte
  cb : List Byte
  deriving DecidableEq, Repr

/-- Reading a map at issue answers a trap, a wait, or the view. -/
inductive MapRes where
  | trap (cause sub : Nat)
  | wait
  | ok (v : View)
  deriving DecidableEq, Repr

/-- The map at an offset, for MXA (`mxa`) or with a type's elements, and the codebook that it names: poisoned words of either come before
sub-causes 1 and 2, as R123 puts poison before the checks of the instruction (R238, R250). -/
def State.readMap (s : State) (o : Nat) (mxa : Bool) (kind : EKind) : MapRes :=
  let b := s.myBlock
  if s.me.scratchWait o 32 then .wait
  else match b.capture o with
  | .bad => .trap 0x14 2
  | .pois => .trap 0x08 0
  | .ok bs =>
    let m := mapOf bs
    let k := if mxa then kindOfFormat m.fmt else kind
    let done := fun (cb : List Byte) =>
      if m.bad1 mxa k then MapRes.trap 0x14 1 else if m.bad2 k then .trap 0x14 2 else .ok { m := m, k := k, raw := bs, cb := cb }
    if k ≠ .c4 then done []
    else if s.me.scratchWait m.cb 32 then .wait
    else match b.capture m.cb with
      | .bad => .trap 0x14 (if m.bad1 mxa k then 1 else 2)
      | .pois => .trap 0x08 0
      | .ok cb => done cb

/-- Two maps read together: a read that must wait comes first, then poison, then the checks of the first map and of the second. -/
def MapRes.both (a b : MapRes) : Except (Option (Nat × Nat)) (View × View) :=
  match a, b with
  | .wait, _ => .error none
  | _, .wait => .error none
  | .ok v, .ok w => .ok (v, w)
  | .trap 0x08 k, _ => .error (some (0x08, k))
  | _, .trap 0x08 k => .error (some (0x08, k))
  | .trap c k, _ => .error (some (c, k))
  | _, .trap c k => .error (some (c, k))

/-! ## Entries of matrix instructions (R252, R414) -/

/-- Capture block of a matrix instruction. -/
def mxCapture (v1 v2 : Option View) (param : Nat) (latched : Bool) : List Byte :=
  let pad := fun (n : Nat) (bs : List Byte) => (bs ++ List.replicate n (0 : Byte)).take n
  let raw := fun (v : Option View) => pad 32 (match v with | some x => x.raw | none => [])
  let cb := fun (v : Option View) => pad 32 (match v with | some x => x.cb | none => [])
  raw v1 ++ raw v2 ++ cb v1 ++ leBytes 4 param ++ leBytes 4 (if latched then 1 else 0) ++ leBytes 8 0 ++ cb v2

/-- First and second map of an entry's capture block, with MXA's formats or a type's. -/
def Entry.view (e : Entry) (second mxa : Bool) (kind : EKind) : View :=
  let raw := (e.cap.drop (if second then 0x20 else 0)).take 32
  let m := mapOf raw
  { m := m, k := if mxa then kindOfFormat m.fmt else kind, raw := raw, cb := (e.cap.drop (if second then 0x70 else 0x40)).take 32 }

/-- M and N of X. -/
def dimM (x : Nat) : Nat := 32 * 2 ^ (x % 4)
def dimN (x : Nat) : Nat := 16 * 2 ^ (x / 4 % 4)

/-! ## Issue -/

/-- The tile of a matrix instruction set busy (R247). -/
def State.setBusy (s : State) (tile : Nat) : State :=
  let b := s.myBlock
  match b.acc[tile]? with
  | some a => s.setBlock { b with acc := setAt b.acc tile { a with busy := true } }
  | none => s

/-- R123 to the field checks, then the convergence of R32, then the lanes. -/
def State.issueMatrix (s : State) (F : Form) (r : Reg) (body : State → Mask → List (List Nat) → Out) : Res :=
  match s.refusal F.cls (F.ok r && decide (r.g = 31)) F.rnd F.sat with
  | some c => .next (s.trapGroup c)
  | none => if s.grp = fullMask s.me.width ∧ s.me.live = s.grp then s.issueLanes F r body else .next (s.trapGroup 0x06)

/-- A precise trap of a matrix instruction, naming all lanes. -/
def mxTrap (s : State) (cause sub : Nat) : Out := .trap cause s.grp 0 0 sub

/-- The entry of a matrix instruction on a tile joins the queue: a tile not allocated is sub-cause 3, found after the sub-causes of the instruction's own
operands (DEDUCED, log entry 31), a busy one makes it wait. -/
def State.mxPush (s : State) (r : Reg) (e : Mask) (tg : List (List Nat)) (op tile : Nat) (f : Entry → Entry) : Out :=
  match s.myBlock.acc[tile]? with
  | none => mxTrap s 0x14 3
  | some a =>
    if a.busy || !s.queueRoom r.fsel then .wait
    else
      let ent := f (s.entry r.fsel e tg (.matrix op r.x r.t r.c tile))
      .go (((s.pushEntry ent).setBusy tile).erAppend s.me ent
        (if ent.regA || bit (ent.cap.getD 0x64 0) 0 then
           latchBytes { s.me.latch with valid := true, asrc := bit ent.w0 5, a := r.a, afmt := r.b / 64 % 2, m := r.x % 4, c := r.c, vals := ent.data.headD [] }
         else []) (some a.elems) false)

/-! ## MXA (R241 to R243) -/

/-- ASRC, AFMT, and registers of the A run. -/
def Reg.asrc (r : Reg) : Bool := decide (r.b / 32 % 2 = 1)
def Reg.afmt (r : Reg) : Nat := r.b / 64 % 2
def mxaRun (w : Nat) (r : Reg) : Nat := (dimM r.x + w - 1) / w * (8 * (r.c + 1))

/-- The A run lies within 64 registers and v255 (R242). -/
def mxaRunOk (w : Nat) (r : Reg) : Bool := decide (mxaRun w r ≤ 64) && decide (r.a + mxaRun w r ≤ 256)

/-- The latch serves an MXA (R243). -/
def Latch.fits (l : Latch) (r : Reg) : Bool :=
  decide (l.asrc = r.asrc) && decide (l.a = r.a) && decide (l.afmt = r.afmt) && decide (l.m = r.x % 4) && decide (l.c = r.c)

/-- Fields of MXA for a team of width w; its A run is read only where it takes A from registers. -/
def formMxa (w : Nat) (held : Bool) (r : Reg) : Form :=
  { cls := 4, d := .num 128, b := .any, c := .any
    a := if r.asrc then .loose (if mxaRunOk w r && !held then mxaRun w r else 0) else .num 24
    x := decide (r.x % 4 ≠ 3) && decide (r.x / 4 % 4 ≠ 3) && decide (r.b % 32 < 24) && decide (r.b < 128) && (r.asrc || decide (r.afmt = 0)) &&
         (!r.xb 5 || r.asrc || decide (dimM r.x * 16 * (r.c + 1) ≤ 32768)) }

/-- The A values of a register run, in register order; lanes that hold no row give zero. -/
def Team.mxaVals (t : Team) (r : Reg) : List Word :=
  (List.range (mxaRun t.width r)).flatMap (fun j => (List.range t.width).map (fun l =>
    if j / (8 * (r.c + 1)) * t.width + l < dimM r.x then (t.velem (r.a + j) l).val else 0))

/-- Lanes with a poisoned element in the run (R242). -/
def Team.mxaPois (t : Team) (r : Reg) : Mask :=
  maskOf t.width (fun l => (List.range (mxaRun t.width r)).any (fun j => (t.velem (r.a + j) l).pois))

/-- MXA. -/
def mxaBody (r : Reg) (s : State) (e : Mask) (tg : List (List Nat)) : Out :=
  let t := s.me
  let held := t.latch.valid
  let sB := r.b % 32
  let regs := if r.asrc then [sB] else [r.a, sB]
  if t.scalarsBusy regs then .wait
  else if r.asrc && decide (2 ≤ (t.entries.filter (fun x => x.regA && !x.dropped)).length) then .wait
  else if regs.any (fun i => (t.sreg i).pois) then mxTrap s 0x08 0
  else if !held && r.asrc && mxaRunOk t.width r && decide (t.mxaPois r ≠ 0) then .trap 0x08 (t.mxaPois r) 0 0 0
  else if held && !t.latch.fits r then mxTrap s 0x14 7
  else if r.asrc && !mxaRunOk t.width r then mxTrap s 0x14 6
  else if t.latch.pending then .wait
  else
    let mA := if held || r.asrc then MapRes.ok { m := mapOf [], k := .f16, raw := [], cb := [] } else s.readMap (t.sreg r.a).val.toNat true .f16
    match mA.both (s.readMap (t.sreg sB).val.toNat true .f16) with
    | .error (some (c, k)) => mxTrap s c k
    | .error none => .wait
    | .ok (a, b) =>
      let vals := if held then t.latch.vals else if r.asrc then t.mxaVals r else []
      let reuse := r.xb 5
      let latch : Latch :=
        if reuse then { valid := true, asrc := r.asrc, a := r.a, afmt := r.afmt, m := r.x % 4, c := r.c, vals := vals } else Latch.reset
      match s.mxPush r e tg 0x70 r.d (fun ent => { ent with cap := mxCapture (some a) (some b) 0 held, data := [vals] }) with
      | .go s' => .go { s' with me := { s'.me with latch := latch } }
      | x => x

/-! ## The other matrix instructions (R239, R244, R246) -/

/-- Fields of MXZ. -/
def formMxz : Form := { cls := 4, d := .num 128 }

/-- MXZ. -/
def mxzBody (r : Reg) (s : State) (e : Mask) (tg : List (List Nat)) : Out :=
  s.mxPush r e tg 0x71 r.d (fun ent => { ent with cap := mxCapture none none 0 false })

/-- Fields of MXLD. -/
def formMxld (r : Reg) : Form :=
  { cls := 4, d := .num 128, a := .num 24, types := [2, 3, 4], x := decide (r.x % 4 ≠ 3) && decide (r.x / 4 % 4 ≠ 3) && decide (r.xf 4 2 = 0) }

/-- Fields of MXST; rounding and saturation for the scalar formats below f32 (R240). -/
def formMxst (r : Reg) : Form :=
  let rs := decide (3 ≤ r.t ∧ r.t ≤ 6)
  { cls := 4, d := .num 128, a := .num 24, types := [2, 3, 4, 5, 6, 0xD, 0xF], rnd := rs, sat := rs
    x := decide (r.x % 4 ≠ 3) && decide (r.x / 4 % 4 ≠ 3) && !r.xb 5 && (!r.xb 4 || decide (r.t = 0xF)) &&
         (decide (r.t ≠ 0xF ∧ r.t ≠ 0xD) || decide (r.x / 4 % 4 ≠ 0)) }

/-- MXLD and MXST: one map of the type's elements. -/
def mxMapBody (op : Nat) (r : Reg) (s : State) (e : Mask) (tg : List (List Nat)) : Out :=
  let t := s.me
  if t.scalarsBusy [r.a] then .wait
  else if (t.sreg r.a).pois then mxTrap s 0x08 0
  else match s.readMap (t.sreg r.a).val.toNat false (kindOfType r.t (r.xb 4)) with
  | .trap c k => mxTrap s c k
  | .wait => .wait
  | .ok v => s.mxPush r e tg op r.d (fun ent => { ent with cap := mxCapture (some v) none 0 false })

/-- Elements of MXRD and MXWR. -/
def Reg.mxCount (r : Reg) : Nat := r.xf 0 6 + 1

/-- Fields of MXRD and MXWR: c0 + count at most 64, row0 below 128, a run within v255. -/
def formMxrw (rd : Bool) (r : Reg) : Form :=
  { cls := 4, d := if rd then .run r.mxCount else .num 128, a := if rd then .num 128 else .run r.mxCount, b := .num 128, c := .num 64, types := [2]
    x := decide (r.c + r.mxCount ≤ 64) }

/-- MXRD. -/
def mxrdBody (r : Reg) (s : State) (e : Mask) (tg : List (List Nat)) : Out :=
  if 128 < r.b + s.me.width then mxTrap s 0x14 6
  else s.mxPush r e tg 0x74 r.a (fun ent =>
    { ent with cap := mxCapture none none 0 false, busy := s.me.dstBusy r e r.mxCount tg, data := [[BitVec.ofNat 32 r.b]] })

/-- MXWR: its data is read at issue. -/
def mxwrBody (r : Reg) (s : State) (e : Mask) (tg : List (List Nat)) : Out :=
  let bad := s.me.poisRun e tg 1 r.mxCount
  if bad ≠ 0 then .trap 0x08 bad 0 0 0
  else if 128 < r.b + s.me.width then mxTrap s 0x14 6
  else s.mxPush r e tg 0x75 r.d (fun ent =>
    { ent with cap := mxCapture none none 0 false, data := s.me.dataOf e tg 1 r.mxCount, addr := List.replicate s.me.width (BitVec.ofNat 64 r.b) })

/-- Fields of MXEP. -/
def formMxep (r : Reg) : Form :=
  { cls := 4, d := .num 128, c := .num 5, rnd := true, sat := true
    a := if r.xf 0 2 = 0 then .zero else .num 24
    x := decide (r.xf 2 3 ≤ 3) && !r.xb 5 }

/-- MXEP. -/
def mxepBody (r : Reg) (s : State) (e : Mask) (tg : List (List Nat)) : Out :=
  let t := s.me
  if r.xf 0 2 = 0 then s.mxPush r e tg 0x77 r.d (fun ent => { ent with cap := mxCapture none none 0 false })
  else if t.scalarsBusy [r.a] then .wait
  else if (t.sreg r.a).pois then mxTrap s 0x08 0
  else
    let p := (t.sreg r.a).val.toNat
    if p % 32 ≠ 0 ∨ !s.myBlock.scratch.inside p 32 then mxTrap s 0x14 2
    else s.mxPush r e tg 0x77 r.d (fun ent => { ent with cap := mxCapture none none p false })

/-- Fields of MXAL: k from 1 to 128. -/
def formMxal (free : Bool) (r : Reg) : Form :=
  { cls := 4, d := .scalarOpt, b := .any, x := decide (1 ≤ r.b ∧ r.b ≤ 128) && decide (r.xf 0 6 = if free then 1 else 0) }

/-- The tiles of the block after MXAL: the count in its save area's header follows (R420), sd receives the number of tiles before, and the engine log
takes a record (R432). The team stalls while the page of the header faults. -/
def State.mxalDone (s : State) (r : Reg) (e : Mask) (tg : List (List Nat)) (acc : List AccTile) : Out :=
  let b := s.myBlock
  let n := b.acc.length
  match (s.setBlock { b with acc := acc }).writePieces s.me b.bsave.toNat [(0x14, leBytes 4 acc.length)] with
  | .ok u =>
    let u := if r.d = 31 then u else { u with me := u.me.setSreg r.d (Elem.ofWord (BitVec.ofNat 32 n)) }
    .go (u.erAppend s.me { s.entry 0 e tg (.matrix 0x76 r.x r.t r.c 0) with cap := mxCapture none none 0 false } [] none false)
  | .fault va lv => .jump (s.frameHalt va lv kindWrite)
  | .refuse va c => .jump (s.refusedTeam s.me va c kindWrite)

/-- MXAL (R235): done at issue. -/
def mxalBody (free : Bool) (r : Reg) (s : State) (e : Mask) (tg : List (List Nat)) : Out :=
  let t := s.me
  let b := s.myBlock
  let n := b.acc.length
  let regs := if r.d = 31 then [] else [r.d]
  if t.scalarsBusy regs then .wait
  else
    if free then
      if n < r.b then mxTrap s 0x0C 0
      else if (b.acc.drop (n - r.b)).any (fun a => a.busy) then .wait
      else s.mxalDone r e tg (b.acc.take (n - r.b))
    else if b.accMax < n + r.b then mxTrap s 0x0C 0
    else s.mxalDone r e tg (b.acc ++ List.replicate r.b AccTile.zero)

/-- MXA. -/
def execMxa (o : ShortOps) (s : State) : Res := let r := Reg.ofShort 0 o; s.issueMatrix (formMxa s.me.width s.me.latch.valid r) r (mxaBody r)
/-- MXA, long form. -/
def execMxaLong (o : LongOps) (s : State) : Res := let r := Reg.ofLong o; s.issueMatrix (formMxa s.me.width s.me.latch.valid r) r (mxaBody r)
/-- MXZ. -/
def execMxz (o : ShortOps) (s : State) : Res := let r := Reg.ofShort 0 o; s.issueMatrix { formMxz with x := decide (r.xf 0 6 = 0) } r (mxzBody r)
/-- MXZ, long form. -/
def execMxzLong (o : LongOps) (s : State) : Res := let r := Reg.ofLong o; s.issueMatrix { formMxz with x := decide (r.xf 0 6 = 0) } r (mxzBody r)
/-- MXLD. -/
def execMxld (o : ShortOps) (s : State) : Res := let r := Reg.ofShort 2 o; s.issueMatrix (formMxld r) r (mxMapBody 0x72 r)
/-- MXLD, long form. -/
def execMxldLong (o : LongOps) (s : State) : Res := let r := Reg.ofLong o; s.issueMatrix (formMxld r) r (mxMapBody 0x72 r)
/-- MXST. -/
def execMxst (o : ShortOps) (s : State) : Res := let r := Reg.ofShort 2 o; s.issueMatrix (formMxst r) r (mxMapBody 0x73 r)
/-- MXST, long form. -/
def execMxstLong (o : LongOps) (s : State) : Res := let r := Reg.ofLong o; s.issueMatrix (formMxst r) r (mxMapBody 0x73 r)
/-- MXRD. -/
def execMxrd (o : ShortOps) (s : State) : Res := let r := Reg.ofShort 2 o; s.issueMatrix (formMxrw true r) r (mxrdBody r)
/-- MXRD, long form. -/
def execMxrdLong (o : LongOps) (s : State) : Res := let r := Reg.ofLong o; s.issueMatrix (formMxrw true r) r (mxrdBody r)
/-- MXWR. -/
def execMxwr (o : ShortOps) (s : State) : Res := let r := Reg.ofShort 2 o; s.issueMatrix (formMxrw false r) r (mxwrBody r)
/-- MXWR, long form. -/
def execMxwrLong (o : LongOps) (s : State) : Res := let r := Reg.ofLong o; s.issueMatrix (formMxrw false r) r (mxwrBody r)
/-- MXAL.alloc. -/
def execMxalAlloc (o : ShortOps) (s : State) : Res := let r := Reg.ofShort 0 o; s.issueMatrix (formMxal false r) r (mxalBody false r)
/-- MXAL.alloc, long form. -/
def execMxalAllocLong (o : LongOps) (s : State) : Res := let r := Reg.ofLong o; s.issueMatrix (formMxal false r) r (mxalBody false r)
/-- MXAL.free. -/
def execMxalFree (o : LongOps) (s : State) : Res := let r := Reg.ofLong o; s.issueMatrix (formMxal true r) r (mxalBody true r)
/-- MXEP. -/
def execMxep (o : ShortOps) (s : State) : Res := let r := Reg.ofShort 0 o; s.issueMatrix (formMxep r) r (mxepBody r)
/-- MXEP, long form. -/
def execMxepLong (o : LongOps) (s : State) : Res := let r := Reg.ofLong o; s.issueMatrix (formMxep r) r (mxepBody r)

/-! ## Element values: an f16 or bf16 pattern in [15:0], a scale byte in [23:16], bf16 in [24] -/

/-- A value that f16 holds, as its pattern. -/
def f16Of (v : FV) : Nat := (({ f := fmtF16, mode := 1, sat := false, fo := false } : Rnd).exact v).bits

/-- A pattern with its scale. -/
def elemWord (bits scale : Nat) (bf : Bool) : Word := BitVec.ofNat 32 (bits % 2 ^ 16 + scale % 256 * 2 ^ 16 + (if bf then 2 ^ 24 else 0))

/-- The exact value, in units of 2^-160 (R69). -/
def elemVal (x : Word) : FV := scaled ((if bit x 24 then fmtBF16 else fmtF16).decode (bitsN x 0 16)) (bitsN x 16 8)

/-- Element q of a block, before its scale, with the scale byte. -/
def blockWord (k : EKind) (bs : List Byte) (cb : List (BitVec 16)) (scale q : Nat) : Word :=
  let v := match k with
    | .mx e5 => (if e5 then fmtE5M2 else fmtE4M3).decode (bs.getD q 0).toNat
    | .i4x => i4xElem bs q
    | _ => fmtF16.decode (cb.getD (nibble bs q) 0).toNat
  elemWord (f16Of v) scale false

/-- A plain element of at most 16 bits. -/
def plainWord (k : EKind) (bs : List Byte) : Word :=
  let x := ofLeBytes bs
  match k with
  | .bf16 => elemWord x 127 true
  | .e4m3 => elemWord (f16Of (fmtE4M3.decode x)) 127 false
  | .e5m2 => elemWord (f16Of (fmtE5M2.decode x)) 127 false
  | _ => elemWord x 127 false

/-- The 16 entries of a codebook. -/
def codebook (bs : List Byte) : List (BitVec 16) := (List.range 16).map (fun i => BitVec.ofNat 16 (fieldAt bs (2 * i) 2))

/-- Kind of a format-range view (R309). -/
def FmtRange.kind (r : FmtRange) : EKind :=
  match r.format with
  | 0 => .f16
  | 1 => .e4m3
  | 2 => .e5m2
  | 3 => .mx false
  | 4 => .mx true
  | 5 => .i4x
  | _ => .c4

/-! ## The engine at work -/

/-- A matrix instruction at work: the state as its reads leave it, its team and order, the tile, the A values kept, the slices or rows done, the
sectors kept from slices done, and why it stops. -/
structure Mx where
  s : State
  team : Nat
  order : Nat
  acc : List (Nat × Word)
  vals : List Word
  done : Nat
  kept : List (Sector × List Byte)
  halt : Option Halt
  deriving DecidableEq, Repr

/-- Scope of the operand path: what the die shows of a line (R97). -/
def mxScope : Nat := 4

/-- The 32 bytes that a matrix instruction reads of a sector where they are not those that stand there: the sector as a slice done read it, or
as it stood before a write that is not mx-ready, which is open (R97). -/
def Mx.other (z : Mx) (k : Sector) : Option (List Byte) :=
  match z.kept.find? (fun p => decide (p.1 = k)) with
  | some p => some p.2
  | none =>
    let os := z.s.mxOld.filter (fun o => decide (o.place = k))
    match Config.mxOld z.team z.order k.space k.owner k.ix % (os.length + 1) with
    | 0 => none
    | i + 1 => (os[i]?).map (fun o => o.bytes)

/-- Bytes that stand at an address of a space, as the operand path returns them. -/
def Mx.sectorBytes (z : Mx) (space owner a : Nat) (bs : List Byte) : List Byte :=
  if z.kept = [] ∧ z.s.mxOld = [] then bs
  else mapIx (fun i b => match z.other { space := space, owner := owner, ix := (a + i) / 32 } with
    | some w => w.getD ((a + i) % 32) b
    | none => b) bs

/-- Bytes of an operand (R97). -/
def Mx.read (z : Mx) (x : Eng) (sp : Space) (a n : Nat) : Mx × List Byte :=
  match z.halt with
  | some _ => (z, [])
  | none =>
    match z.s.engPieces x kindRead sp a n, z.s.engRead x mxScope sp a n with
    | .ok ps, .ok (s, bs) =>
      let z := { z with s := s }
      (z, (ps.foldl (fun (r : List Byte × List Byte) p =>
        let b := s.pieceBase x p
        (r.1 ++ z.sectorBytes b.1 b.2.1 b.2.2 (r.2.take p.size), r.2.drop p.size)) ([], bs)).1)
    | .error h, _ => ({ z with halt := some h }, [])
    | _, .error h => ({ z with halt := some h }, [])

/-- The stored bytes of an element that auto reads, and of its scale (R309). -/
def FmtRange.pieces (f : FmtRange) (e : Nat) : Piece × Option Piece :=
  let pl := f.places e
  (.mem pl.1.1 pl.1.2 0 false, pl.2.map (fun q => .mem q 1 0 false))

/-- Stored bytes of a view: held while their block is (R105). -/
def Mx.stored (z : Mx) (x : Eng) (a pa n : Nat) : Mx × List Byte :=
  match z.halt with
  | some _ => (z, [])
  | none =>
    if z.s.blockHeld pa || z.s.blockHeld (pa + n - 1) then ({ z with halt := some .hold }, [])
    else
      let (s, bs, bad) := z.s.readGlobal mxScope x.die x.core pa n
      let z := { z with s := s, halt := if bad then some (.refuse a 9 kindRead) else none }
      (z, z.sectorBytes 0 0 pa bs)

/-- One element of an operand. -/
def Mx.elem (z : Mx) (x : Eng) (v : View) (r k : Nat) : Mx × Word :=
  match v.k with
  | .auto =>
    let a := v.m.plainAt 2 r k
    (match z.s.translate x.die x.core x.proc x.priv kindRead (BitVec.ofNat 64 a) with
     | .fault lv => ({ z with halt := z.halt <|> some (.fault a lv kindRead) }, 0)
     | .refuse c => ({ z with halt := z.halt <|> some (.refuse a c kindRead) }, 0)
     | .ok pa _ =>
       match z.s.fmtAt pa with
       | none => let (z, bs) := z.read x .global a 2; (z, plainWord .f16 bs)
       | some f =>
         let e := (pa - f.base) / 2
         let pl := f.places e
         let (z, bs) := z.stored x a pl.1.1 pl.1.2
         let (z, sc) := match pl.2 with | some q => z.stored x a q 1 | none => (z, [127])
         (z, if f.kind.eb ≠ 0 then blockWord f.kind bs f.codebook (ofLeBytes sc) (e % 32) else plainWord f.kind bs))
  | kd =>
    if kd.eb ≠ 0 then
      let at_ := v.m.blockAt kd.eb r (k / 32)
      let (z, bs) := z.read x v.m.sel at_.1 kd.eb
      let (z, sc) := z.read x v.m.sel at_.2 1
      (z, blockWord kd bs (codebook v.cb) (ofLeBytes sc) (k % 32))
    else
      let (z, bs) := z.read x v.m.sel (v.m.plainAt kd.es r k) kd.es
      (z, plainWord kd bs)

/-- A list of elements. -/
def Mx.elems (z : Mx) (x : Eng) (v : View) (rk : List (Nat × Nat)) : Mx × List Word :=
  rk.foldl (fun (p : Mx × List Word) q =>
    match p.1.halt with
    | some _ => p
    | none => let (z, w) := p.1.elem x v q.1 q.2; (z, p.2 ++ [w])) (z, [])

/-- One slice of R77 on an accumulator element. -/
def sliceStep (acc : Word) (ps : List (FV × FV)) : Word :=
  let t := ps.foldl (fun s p => s.plus (mulExact p.1 p.2)) Sum.zero
  let a := fmtF32.decode acc.toNat
  if t.bad || (t.pinf && t.ninf) then 0x7FC00000
  else if t.pinf || t.ninf then
    (match a with
     | .nan _ => 0x7FC00000
     | .inf m => if m = t.ninf then (if m then 0xFF800000 else 0x7F800000) else 0x7FC00000
     | _ => if t.ninf then 0xFF800000 else 0x7F800000)
  else if t.val = 0 then acc
  else match a with
    | .nan _ => 0x7FC00000
    | .inf _ => acc
    | v => BitVec.ofNat 32 (({ f := fmtF32, mode := 1, sat := false, fo := false } : Rnd).ofInt (v.int * 2 ^ 171 + t.val) (-320) false).bits

/-- Element (i, k) of A from latched values: those of a register run in register order, those read from memory slice by slice. -/
def latchElem (asrc bf : Bool) (vals : List Word) (w m c i k : Nat) : Word :=
  if asrc then
    let x := vals.getD ((i / w * (8 * (c + 1)) + k / 2) * w + i % w) 0
    elemWord (bitsN x (16 * (k % 2)) 16) 127 bf
  else vals.getD ((k / 16 * m + i) * 16 + k % 16) 0

/-- Shape and source of an MXA. -/
structure MxaD where
  m : Nat
  n : Nat
  c : Nat
  neg : Bool
  /-- A comes from kept values; from a register run; as bf16. -/
  kept : Bool
  asrc : Bool
  bf : Bool
  w : Nat
  a : View
  b : View
  deriving DecidableEq, Repr

/-- The A values that a slice has read, put at their place among those kept for the latch: a slice done again after its progress was lowered
replaces its own. DESIGN CHOICE (log entry 31): those of slices that a handler skipped by raising the progress are open (R243, R253). -/
def Mx.takeA (z : Mx) (at_ : Nat) (as_ : List Word) : Mx :=
  let gap := at_ - z.vals.length
  let open_ := (List.range gap).map (fun i => Config.freeWord (4 * z.s.fresh + i))
  { z with s := { z.s with fresh := z.s.fresh + gap }, vals := (z.vals ++ open_).take at_ ++ as_ ++ z.vals.drop (at_ + as_.length) }

/-- One K-slice of an MXA: the slice is applied whole, or not at all when a read halts. -/
def Mx.slice (z : Mx) (x : Eng) (d : MxaD) (q : Nat) : Mx :=
  match z.halt with
  | some _ => z
  | none =>
    let ks := (List.range 16).map (fun j => 16 * q + j)
    let (z1, as_) := if d.kept then (z, (List.range d.m).flatMap (fun i => ks.map (fun k => latchElem d.asrc d.bf z.vals d.w d.m d.c i k)))
                     else z.elems x d.a ((List.range d.m).flatMap (fun i => ks.map (fun k => (i, k))))
    let (z2, bs) := z1.elems x d.b ((List.range d.n).flatMap (fun j => ks.map (fun k => (j, k))))
    match z2.halt with
    | some _ => z2
    | none =>
      let av := as_.map (fun a => if d.neg then (elemVal a).negate else elemVal a)
      let bv := bs.map elemVal
      let row := fun (l : List FV) i => (l.drop (16 * i)).take 16
      let acc := (List.range d.m).foldl (fun acc i => (List.range d.n).foldl (fun acc j =>
        let o := 64 * i + j
        defSet 0 acc o (sliceStep (defGet 0 acc o) ((row av i).zip (row bv j)))) acc) z2.acc
      let z2 := if d.kept then z2 else z2.takeA (q * d.m * 16) as_
      { z2 with acc := acc, done := q + 1 }

/-- Pieces of an element's bytes, as far as they can be reached. -/
def State.elemPieces (s : State) (x : Eng) (v : View) (r k : Nat) : List Piece :=
  let at_ := fun (a n : Nat) => match s.engPieces x kindRead v.m.sel a n with | .ok ps => ps | .error _ => []
  match v.k with
  | .auto =>
    let a := v.m.plainAt 2 r k
    (match s.translate x.die x.core x.proc x.priv kindRead (BitVec.ofNat 64 a) with
     | .ok pa _ => (match s.fmtAt pa with
         | none => at_ a 2
         | some f => let q := f.pieces ((pa - f.base) / 2); q.1 :: q.2.toList)
     | _ => [])
  | kd => if kd.eb ≠ 0 then let b := v.m.blockAt kd.eb r (k / 32); at_ b.1 kd.eb ++ at_ b.2 1 else at_ (v.m.plainAt kd.es r k) kd.es

/-- Sectors that slices of an MXA read. -/
def State.sliceSectors (s : State) (x : Eng) (d : MxaD) (qs : List Nat) : List Sector :=
  let ks := qs.flatMap (fun q => (List.range 16).map (fun j => 16 * q + j))
  let of := fun (v : View) (n : Nat) => (List.range n).flatMap (fun i => ks.flatMap (fun k => (s.elemPieces x v i k).flatMap (s.pieceSectors x)))
  ((if d.kept then [] else of d.a d.m) ++ of d.b d.n).eraseDups

/-- An MXA that stands between two slices, `first` of which was the first it did now: the sectors that slices done have read and slices to come
read again stay as they were read (R97, log entry 31). -/
def Mx.keep (z : Mx) (x : Eng) (d : MxaD) (first : Nat) : Mx :=
  let rest := z.s.sliceSectors x d ((List.range (d.c + 1)).filter (fun q => decide (z.done ≤ q)))
  let now := (z.s.sliceSectors x d ((List.range z.done).filter (fun q => decide (first ≤ q)))).filter (fun k => !(z.kept.any (fun p => decide (p.1 = k))))
  { z with kept := z.kept.filter (fun p => rest.contains p.1) ++
      (now.filter rest.contains).map (fun k => (k, (z.other k).getD (z.s.sectorNow x.die x.core k))) }

/-- The slices of an MXA from the first not yet done: all of them, or one. -/
def Mx.mxa (z : Mx) (x : Eng) (d : MxaD) (one : Bool) : Mx :=
  let n := if one then min (z.done + 1) (d.c + 1) else d.c + 1
  let z' := (List.range n).foldl (fun z q => if z.done ≤ q then z.slice x d q else z) z
  if z'.done ≤ d.c then z'.keep x d z.done else z'

/-- Rows from the first not done, each column of the region written by a function of row and column. -/
def fillRows (acc : List (Nat × Word)) (from_ m n : Nat) (f : Nat → Nat → Word) : List (Nat × Word) :=
  (List.range (m - from_)).foldl (fun acc i => (List.range n).foldl (fun acc j =>
    defSet 0 acc (64 * (from_ + i) + j) (f (from_ + i) j)) acc) acc

/-- An element of MXLD: f32 copied, f16 and bf16 widened, a NaN 0x7FC00000. -/
def widen (k : EKind) (bs : List Byte) : Word :=
  match k with
  | .f32 => BitVec.ofNat 32 (ofLeBytes bs)
  | _ => BitVec.ofNat 32 (({ f := fmtF32, mode := 1, sat := false, fo := false } : Rnd).exact
           ((if k = .bf16 then fmtBF16 else fmtF16).decode (ofLeBytes bs))).bits

/-- MXLD: the tile as it was when a read halts (R251). -/
def Mx.mxld (z : Mx) (x : Eng) (v : View) (m n : Nat) : Mx :=
  let rk := (List.range (m - z.done)).flatMap (fun i => (List.range n).map (fun j => (z.done + i, j)))
  let (z', ws) := rk.foldl (fun (p : Mx × List Word) q =>
    let (z, bs) := p.1.read x v.m.sel (v.m.plainAt v.k.es q.1 q.2) v.k.es
    (z, p.2 ++ [widen v.k bs])) (z, [])
  match z'.halt with
  | some _ => { z' with acc := z.acc }
  | none => { z' with acc := fillRows z.acc z.done m n (fun i j => ws.getD ((i - z.done) * n + j) 0), done := m }

/-- Activation and conversion of MXEP (R246). -/
def mxAct (o : Rnd) (act conv : Nat) (x : Word) : Word :=
  let y : Word := match act with
    | 1 => (match fmtF32.decode x.toNat with
        | .nan _ => x
        | .inf m => if m then 0 else x
        | .fin m v => if m ∨ v = 0 then 0 else x)
    | 2 => BitVec.ofNat 32 (o.gelu (fmtF32.decode x.toNat)).bits
    | 3 => BitVec.ofNat 32 (o.tanh (fmtF32.decode x.toNat)).bits
    | _ => x
  if conv = 0 then y
  else
    let f := fmtOf (conv + 2)
    let r := ({ o with f := f } : Rnd).convert (fmtF32.decode y.toNat)
    BitVec.ofNat 32 (({ f := fmtF32, mode := 1, sat := false, fo := false } : Rnd).exact (f.decode r.bits)).bits

/-- One element of MXEP: scale, bias, activation, conversion. -/
def mxepElem (o : Rnd) (x : Nat) (conv : Nat) (sc bi : Word) (v : Word) : Word :=
  let a := fmtF32.decode v.toNat
  let f := fun (w : Word) => fmtF32.decode w.toNat
  let y : Word := match x % 4 with
    | 1 => BitVec.ofNat 32 (o.mul a (f sc)).bits
    | 2 => BitVec.ofNat 32 (o.add a (f bi)).bits
    | 3 => BitVec.ofNat 32 (o.fma a (f sc) (f bi)).bits
    | _ => v
  mxAct o (x / 4 % 8) conv y

/-- MXEP. -/
def Mx.mxep (z : Mx) (x : Eng) (o : Rnd) (xs conv p : Nat) : Mx :=
  let words := fun (bs : List Byte) => (List.range 64).map (fun j => BitVec.ofNat 32 (fieldAt bs (4 * j) 4))
  let (z1, sc) := if xs % 2 = 1 then z.read x .scratch p 256 else (z, [])
  let (z2, bi) := if xs / 2 % 2 = 1 then z1.read x .scratch (p + 256) 256 else (z1, [])
  match z2.halt with
  | some _ => z2
  | none => { z2 with
      acc := fillRows z.acc z.done 128 64 (fun i j =>
        mxepElem o xs conv ((words sc).getD j 0) ((words bi).getD j 0) (defGet 0 z.acc (64 * i + j)))
      done := 128 }

/-- The writes of MXST, row by row: address and bytes (R245). -/
def mxstWrites (o : Rnd) (v : View) (acc : List (Nat × Word)) (from_ m n : Nat) : List (Nat × List Byte) :=
  (List.range (m - from_)).flatMap (fun d =>
    let i := from_ + d
    if v.k.eb ≠ 0 then
      let blk : Blk := match v.k with | .mx e5 => .mx8 e5 | _ => .i4x
      (List.range (n / 32)).flatMap (fun b =>
        let bs := blk.quantise [] ((List.range 32).map (fun q => fmtF32.decode (defGet 0 acc (64 * i + 32 * b + q)).toNat))
        let at_ := v.m.blockAt v.k.eb i b
        [(at_.1, bs.take v.k.eb), (at_.2, bs.drop v.k.eb)])
    else
      (List.range n).map (fun j =>
        let w := defGet 0 acc (64 * i + j)
        let x := if v.k = .f32 then w.toNat else (o.convert (fmtF32.decode w.toNat)).bits
        let size := if v.m.space = 1 ∧ v.k.es = 1 then 2 else v.k.es
        (v.m.plainAt v.k.es i j, leBytes size x)))

/-- MXST: nothing is written unless every byte of the destination may be (R245, R251); its elements together clear the marks of the words and lines that
they cover whole (R298, R447); what it writes is mx-ready from a wait point of its baton on
(R96, R248). -/
def Mx.mxst (z : Mx) (x : Eng) (o : Rnd) (v : View) (m n team entry : Nat) : Mx :=
  let ws := mxstWrites o v z.acc z.done m n
  let ps := ws.foldl (fun (r : Except Halt (List (List Piece × List Byte))) w =>
    match r with
    | .ok l => (match z.s.engPieces x kindWrite v.m.sel w.1 w.2.length with
        | .ok p => .ok (l ++ [(p, w.2)])
        | .error h => .error h)
    | e => e) (.ok [])
  match ps with
  | .error h => { z with halt := some h }
  | .ok l =>
    let note := fun (s : State) => match s.team team with
      | some t => (match t.entries.find? (fun e => decide (e.order = entry)) with
          | some e => s.noteSectors t 64 e.fla e.flb ((l.flatMap (fun p => p.1.flatMap (s.pieceSectors x))).eraseDups)
          | none => s)
      | none => s
    let s : State := l.foldl (fun s p => s.engWrite x 0 team entry p.1 p.2) (note z.s)
    { z with s := s.engClean x (l.flatMap (fun p => p.1)), done := m }

/-! ## MATRIX_COMPLETE (R247, R250 to R252) -/

/-- Rounding and saturation that stand in an entry's prefix (R240). -/
def Entry.rnd (e : Entry) (f : Fmt) : Rnd :=
  { f := f, mode := max 1 (bitsN e.pfxw 21 3), sat := bit e.pfxw 20, fo := false }

/-- A matrix operand fault known after issue: the entry faulted with its progress, and the team's imprecise trap (R251). -/
def State.mxFault (s : State) (id order va sub : Nat) : State :=
  match s.team id with
  | none => s
  | some t =>
    match t.entries.find? (fun e => decide (e.order = order)) with
    | none => s
    | some e =>
      (s.setTeam ((t.setEntry { e with faulted := true, refused := 0, waits := [] }).dropStep order)).trapTeam id
        { cause := 0x14, sub := sub, tpc := e.pc, thdr := e.hdr, lanes := fullMask t.width, info := 0, faddr := BitVec.ofNat 64 va, next := false }

/-- A tile of a block with a change. -/
def State.onTile (s : State) (blk tile : Nat) (f : AccTile → AccTile) : State :=
  match s.block blk with
  | none => s
  | some b => match b.acc[tile]? with
    | some a => s.setBlock { b with acc := setAt b.acc tile (f a) }
    | none => s

/-- The tile of an entry's block with new elements, the most recently used of its block; freed when the entry is done. -/
def State.putTile (s : State) (blk tile : Nat) (acc : List (Nat × Word)) (busy : Bool) : State :=
  match s.block blk with
  | none => s
  | some b =>
    match b.acc[tile]? with
    | none => s
    | some a => s.setBlock { b with acc := setAt b.acc tile { a with elems := acc, busy := busy, used := b.acc.foldl (fun m a => max m a.used) 0 + 1 } }

/-- What an MXA of REUSE read from memory left in the latch that waits for it (R243). -/
def Team.fillLatch (t : Team) (e : Entry) (x : Nat) (vals : List Word) : Team :=
  if decide (x / 32 % 2 = 1) && t.latch.pending && !e.regA && !bit (e.cap.getD 0x64 0) 0 then { t with latch := { t.latch with vals := vals } } else t

/-- The outcome of a matrix entry's work put into the state. -/
def State.mxClose (s : State) (id order tile blk : Nat) (op x : Nat) (z : Mx) (held : Bool) : State :=
  let s := if op = 0x74 then s else s.putTile blk tile z.acc true
  match s.team id with
  | none => s
  | some t =>
    match t.entries.find? (fun e => decide (e.order = order)) with
    | none => s
    | some e =>
      let e := { e with progress := BitVec.ofNat 32 z.done, data := if op = 0x70 then [z.vals] else e.data, kept := z.kept }
      match z.halt with
      | some (.fault va lv k) =>
        let a := BitVec.ofNat 64 va
        ((s.setTeam (t.setEntry { e with addr := if op = 0x75 then e.addr else List.replicate t.width a, waits := [pageOf va] })).pageFault
          t.die t.core t.proc va k lv 2)
      | some (.refuse va c k) =>
        let s := s.setTeam (t.setEntry e)
        let s := s.logViolation t.die t.core va e.pc.toNat t.proc c k 2 0
        s.mxFault id order va (if c = 9 then 5 else 4)
      | some .hold => s.setTeam (t.setEntry e)
      | none =>
        if held then s.setTeam (t.setEntry e)
        else
          let t := if op = 0x70 then t.fillLatch e x z.vals else t
          (s.setTeam (t.finish e)).putTile blk tile z.acc false

/-- A matrix instruction reads the tile that it names: MXA, MXST, MXRD and MXEP do (R241 to R246). -/
def readsTile (op : Nat) : Bool := decide (op = 0x70 ∨ op = 0x73 ∨ op = 0x74 ∨ op = 0x77)

/-- A matrix instruction replaces every element of the tile: MXZ, and MXLD of the full shape (R241, R244). -/
def coversTile (op x : Nat) : Bool := decide (op = 0x71) || (decide (op = 0x72) && decide (dimM x = 128) && decide (dimN x = 64))

/-- The work of a matrix entry, whose tile is resident, taken to its end or to what halts it, at a photo-finish stop where it
stands (R422); with `one`, an MXA by one K-slice (R252). The next instruction to read a tile that an uncorrectable error has met raises sub-cause 5;
DESIGN CHOICE (log entry 31): the tile has no address, and none is entered (R250, R447). -/
def State.mxStep (s : State) (t : Team) (e : Entry) (op x ty c tile : Nat) (one : Bool) : State :=
  match s.block t.block with
  | none => s
  | some b =>
    match b.acc[tile]? with
    | none => s
    | some a =>
      if !a.slot || s.pfsHolds t.die t.core (BitVec.ofNat 4 (2 ^ t.part)) then s
      else if e.refused ≠ 0 then s.mxFault t.id e.order e.refAddr.toNat 4
      else if a.bad ∧ readsTile op then (s.onTile t.block tile (fun a => { a with bad := false })).mxFault t.id e.order 0 5
      else
        let s := if a.bad ∧ coversTile op x then s.onTile t.block tile (fun a => { a with bad := false }) else s
        let g := engOf t e.priv
        let z : Mx := { s := s, team := t.id, order := e.order, acc := a.elems, vals := if op = 0x70 then e.data.headD [] else [],
                        done := e.progress.toNat, kept := e.kept, halt := none }
        let fin := fun (z : Mx) (held : Bool) => z.s.mxClose t.id e.order tile t.block op x z held
        match op with
        | 0x70 =>
          let latched := bit (e.cap.getD 0x64 0) 0
          let z := z.mxa g { m := dimM x, n := dimN x, c := c, neg := decide (x / 16 % 2 = 1), kept := latched || e.regA, asrc := e.regA, bf := bit e.w0 6,
                             w := t.width, a := e.view false true .f16, b := e.view true true .f16 } one
          fin { z with s := z.s.count t.die (0x140 + 0x100 * t.core + 0xC0) (16 * (z.done - e.progress.toNat)) } (decide (z.done ≤ c))
        | 0x71 => fin { z with acc := fillRows z.acc z.done 128 64 (fun _ _ => 0), done := 128 } false
        | 0x72 => fin (z.mxld g (e.view false false (kindOfType ty false)) (dimM x) (dimN x)) false
        | 0x73 =>
          if dimM x ≤ z.done then fin z (s.engHeld t.id e.order)
          else
            let k := kindOfType ty (decide (x / 16 % 2 = 1))
            let z := z.mxst g (e.rnd (fmtOf ty)) (e.view false false k) (dimM x) (dimN x) t.id e.order
            fin z (z.s.engHeld t.id e.order)
        | 0x74 =>
          let r0 := ((e.data.headD []).headD 0).toNat
          let ls := (List.range t.width).filter (fun l => decide (z.done ≤ r0 + l))
          let t' := t.deliver e (ls.map (fun l => (l, (List.range (x % 64 + 1)).map (fun j => Elem.ofWord (defGet 0 a.elems (64 * (r0 + l) + c + j))))))
          (s.setTeam t').mxClose t.id e.order tile t.block op x z false
        | 0x75 =>
          let r0 := (e.addr.getD 0 0).toNat
          let ls := (List.range t.width).filter (fun l => decide (z.done ≤ r0 + l))
          fin { z with acc := ls.foldl (fun acc l => (List.range (x % 64 + 1)).foldl (fun acc j =>
            defSet 0 acc (64 * (r0 + l) + c + j) ((e.data.getD l []).getD j 0)) acc) z.acc } false
        | _ => fin (z.mxep g (e.rnd fmtF32) x c (fieldAt e.cap 0x60 4)) false

/-- MATRIX_COMPLETE: the effect of the instruction, whole, and its completion; or the reason why it goes no further. -/
def execMatrixComplete (team entry : Nat) (s : State) : Res :=
  .next (match s.team team with
    | none => s
    | some t =>
      match t.activeEntry entry with
      | none => s
      | some e =>
        match e.work with
        | .matrix op x ty c tile => if e.waits.isEmpty then s.mxStep t e op x ty c tile false else s
        | _ => s)

/-- One K-slice of an MXA that has more than one to do: a trap, a stop or pre-emption may find it there (R252). -/
def State.oneSlice (s : State) (team entry : Nat) : State :=
  match s.team team with
  | none => s
  | some t =>
    match t.activeEntry entry with
    | none => s
    | some e =>
      match e.work with
      | .matrix 0x70 x ty c tile => if e.waits.isEmpty && decide (e.progress.toNat < c) then s.mxStep t e 0x70 x ty c tile true else s
      | _ => s

/-! ## Accumulator slots (R254) -/

/-- Tile slots of a core. -/
def accSlots : Nat := 128

/-- Tiles of a core that are resident: block and tile number. -/
def State.resident (s : State) (d c : Nat) : List (Block × Nat) :=
  (s.blocksOn d c).flatMap (fun b => ((mapIx (fun i (a : AccTile) => (i, a)) b.acc).filter (fun p => p.2.slot)).map (fun p => (b, p.1)))

/-- A block has a baton outstanding; a pre-empted block counts as having none. DEDUCED (log entry 31): an unfinished matrix instruction that counts on no
flag is one too, since its tile is in use as another's is (R247, R254). -/
def State.hasBaton (s : State) (b : Block) : Bool :=
  decide (b.run ≠ .away) && (s.teamsOf b.id).any (fun t => t.entries.any (fun e => match e.work with | .matrix .. => !e.dropped | _ => false))

/-- Entries of a core that wait for a slot: launch number of the block, team, entry order. -/
def State.slotWaits (s : State) (d c : Nat) : List (Nat × Nat × Nat) :=
  (s.allTeams.filter (fun t => decide (t.die = d ∧ t.core = c) && !t.agent)).flatMap (fun t =>
    match s.block t.block with
    | none => []
    | some b => (t.entries.drop t.suspended).filterMap (fun e =>
        match e.work with
        | .matrix _ _ _ _ tile => (match b.acc[tile]? with
            | some a => if !a.slot && !e.dropped && decide (t.run ≠ .away) then some (s.launchOf b, t.id, e.order) else none
            | none => none)
        | _ => none))

/-- A tile is in use by an instruction that has it resident: one of a team that goes on, not of one that stands in a trap, is parked, stopped
or away (R252, R254). -/
def State.tileInUse (s : State) (b : Block) (tile : Nat) : Bool :=
  decide (b.run ≠ .away) && (s.teamsOf b.id).any (fun t => decide (t.run = .running) && (t.entries.drop t.suspended).any (fun e => !e.dropped &&
    (match e.work with | .matrix _ _ _ _ k => decide (k = tile) | _ => false)))

/-- When a resident tile was last used among the tiles of its block. -/
def usedOf (p : Block × Nat) : Nat := match p.1.acc[p.2]? with | some a => a.used | none => 0

/-- The tile evicted for a request of launch number `l`: none in use, none of an older block with a baton outstanding; one of
the youngest block first, and within it the least recently used. -/
def State.victim (s : State) (d c l : Nat) : Option (Block × Nat) :=
  let cands := (s.resident d c).filter (fun p => !s.tileInUse p.1 p.2 && !(decide (s.launchOf p.1 < l) && s.hasBaton p.1))
  cands.foldl (fun (m : Option (Block × Nat)) p => match m with
    | none => some p
    | some q =>
      if s.launchOf q.1 < s.launchOf p.1 ∨ (s.launchOf q.1 = s.launchOf p.1 ∧ usedOf p < usedOf q) then some p else some q) none

/-- Eviction: the tile written to its block's image (R421). A page of the image that faults is waited for, and a refused one contains the process
(R408). -/
def State.evict (s : State) (b : Block) (tile : Nat) : State :=
  match b.acc[tile]?, (s.teamsOf b.id).head? with
  | some a, some t =>
    (match s.writePieces t (b.accBase.toNat + 32768 * tile) [(0, tileImage a.elems)] with
     | .ok s => (s.onTile b.id tile (fun x => { x with slot := false, out := true })).count t.die (0x140 + 0x100 * t.core + 0xF0) 1
     | .fault va lv => s.devFault t.die t.core t.proc va kindWrite lv 0
     | .refuse va c => s.refusedTeam t va c kindWrite)
  | _, _ => s.onTile b.id tile (fun x => { x with slot := false })

/-- The elements of a tile from the words of its image, from a number on. -/
def imageElems : Nat → List Byte → List (Nat × Word)
  | i, a :: b :: c :: d :: r =>
    let w : Word := d ++ c ++ b ++ a
    if w = 0 then imageElems (i + 1) r else (i, w) :: imageElems (i + 1) r
  | _, _ => []

/-- The image of a tile read back, row by row, and whether a row is uncorrectable. DEDUCED (log entry 31): such a row reads as an accumulator row
does, 0x7FC00000 (R447). -/
def State.readTile (s : State) (t : Team) (base : Nat) : Acc (List Byte × Bool) :=
  (List.range 128).foldl (fun (a : Acc (List Byte × Bool)) i => a.bind (fun r =>
    match s.readVirt t.die t.core t.proc true (base + 256 * i) 256 with
    | .ok bs => .ok (r.1 ++ bs, r.2)
    | .refuse va c => if c = 9 then .ok (r.1 ++ (List.range 64).flatMap (fun _ => leBytes 4 0x7FC00000), true) else .refuse va c
    | .fault va lv => .fault va lv)) (.ok ([], false))

/-- A slot given to a tile: one that has been evicted is read back from its image (R254). -/
def State.fill (s : State) (t : Team) (b : Block) (tile : Nat) : State :=
  match b.acc[tile]? with
  | none => s
  | some a =>
    if !a.out then s.onTile b.id tile (fun x => { x with slot := true })
    else match s.readTile t (b.accBase.toNat + 32768 * tile) with
      | .ok (bs, bad) => s.onTile b.id tile (fun x => { x with slot := true, out := false, bad := x.bad || bad, elems := imageElems 0 bs })
      | .fault va lv => s.devFault t.die t.core t.proc va kindRead lv 0
      | .refuse va c => s.refusedTeam t va c kindRead

/-- ACCUM_SLOT_GRANT: the waiting request of the oldest block gets a slot; where none is free, a tile is evicted first (R254). -/
def execAccumSlotGrant (team entry : Nat) (s : State) : Res :=
  .next (match s.team team with
    | none => s
    | some t =>
      let ws := s.slotWaits t.die t.core
      let least := ws.foldl (fun m w => min m w.1) (ws.headD (0, 0, 0)).1
      match ws.find? (fun w => decide (w.2.1 = team ∧ w.2.2 = entry)), s.block t.block, t.entries.find? (fun e => decide (e.order = entry)) with
      | some w, some b, some e =>
        (match e.work with
         | .matrix _ _ _ _ tile =>
           if w.1 ≠ least then s
           else if (s.resident t.die t.core).length < accSlots then s.fill t b tile
           else match s.victim t.die t.core (s.launchOf b) with
             | some p => s.evict p.1 p.2
             | none => s
         | _ => s)
      | _, _, _ => s)

end Sys2Proof.Machine
end

