-- ==== Sys2Proof/Machine/Ras.lean ====
section
/-!
DEFINITION. Machine/Ras: error protection and records (R439, R447, R450), splits (R452, R453), power states, arbiter, limits
and thermal events (R454 to R456).
-/

namespace Sys2Proof.Machine

/-! ## Errors (R447) -/

/-- KIND, ADDR and core of an error's record (R449). -/
def siteRecord : EccSite → Nat × Nat × Nat
  | .l1 c ln => (1, ln * 128, c)
  | .scratch c _ _ => (1, 0, c)
  | .tile c _ _ => (1, 0, c)
  | .fifo c _ _ _ => (1, 0, c)
  | .vreg c _ _ _ => (2, 0, c)
  | .pred c _ _ _ => (2, 0, c)
  | .sreg c _ _ => (2, 0, c)
  | .header c _ => (2, 0, c)
  | .accum c _ _ _ => (3, 0, c)
  | .dieCache ln => (4, ln * 128, 0xFF)
  | .hbm ln => (5, ln * 128, 0xFF)
  | .capacity ln => (6, ln * 128, 0xFF)

/-- The record of an error at a site. -/
def State.siteError (s : State) (d : Nat) (x : EccSite) (sev : Nat) : State :=
  let r := siteRecord x
  s.recordError d r.1 r.2.1 r.2.2 sev

/-- ECC_CORRECTED: no value changes; the error is recorded (R447, R450). -/
def execEccCorrected (die : Nat) (site : EccSite) (s : State) : Res := .next (s.siteError die site 0)

/-- PATROL_SCRUB: a patrol read of a line whose data is correct or corrected changes no value (R447). -/
def execPatrolScrub (_die _line : Nat) (s : State) : Res := .next s

/-- The trap record of an uncorrectable error in a team's header lines or thread records: it parks with NESTED 0x08 (R415, R447). -/
def Trap.header : Trap := { cause := 8, sub := 0, tpc := 0, thdr := 0, lanes := 0, info := 0, faddr := 0, next := false, park := true }

/-- What uncorrectable data at a site does (R447). The lines of a team that is away stand in its image, and have no site. -/
def State.spoil (s : State) (d : Nat) : EccSite → State
  | .l1 c ln => s.setCore d c { s.core d c with bad := defSet false (s.core d c).bad ln true }
  | .scratch _ b o => match s.block b with
      | some x => s.setBank x .scratch ((s.bankOf x .scratch).mark (o / 8 * 8) 8)
      | none => s
  | .tile _ b o => match s.block b with
      | some x => s.setBank x .tile ((s.bankOf x .tile).mark (o / 8 * 8) 8)
      | none => s
  | .fifo _ b k p => match s.block b with
      | some x => s.setBlock { x with fifos := mapIx (fun i q =>
          if i = k then mapIx (fun j e => if j / 2 = p / 2 then ({ e with pois := true } : Elem) else e) q else q) x.fifos }
      | none => s
  | .vreg _ t r l => match s.team t with
      | some x => s.setTeam (x.vwrite r false [(l, { (x.velem r l) with pois := true })])
      | none => s
  | .pred _ t r l => match s.team t with
      | some x => s.setTeam (x.setPred r l (x.pred r l) true)
      | none => s
  | .sreg _ t r => match s.team t with
      | some x => s.setTeam (x.setSreg r { (x.sreg r) with pois := true })
      | none => s
  | .header _ t => match s.team t with
      | some x =>
        if x.agent then s.restartAgent x.die x.core
        else if x.run = .away then s
        else s.trapTeam t Trap.header
      | none => s
  | .accum _ b tl row => match s.block b with
      | some x => (match x.acc[tl]? with
          | some a =>
            let es := (List.range 64).foldl (fun es j => defSet 0 es (64 * row + j) (0x7FC00000 : Word)) a.elems
            s.setBlock { x with acc := setAt x.acc tl { a with bad := true, elems := es } }
          | none => s)
      | none => s
  | .dieCache ln => s.poisonLine ln
  | .hbm ln => s.poisonLine ln
  | .capacity ln => s.poisonLine ln

/-- ECC_UNCORRECTABLE: the consequence of R447, and its record. -/
def execEccUncorrectable (die : Nat) (site : EccSite) (s : State) : Res := .next ((s.spoil die site).siteError die site 1)

/-! ## Boundaries (R439) -/

/-- The two dies are joined by a boundary of the package. -/
def joined (a b : Nat) : Bool := decide (a < 8 ∧ b < 8) && ((decide (a / 4 = b / 4) && (decide (a + 1 = b) || decide (b + 1 = a))) || decide (a + 4 = b ∨ b + 4 = a))

/-- Dies reached from a set over boundaries that are up; fuel counts rounds. -/
def State.reach (s : State) : Nat → List Nat → List Nat
  | 0, l => l
  | n + 1, l =>
    s.reach n ((diesIn s.present).filter (fun d => l.contains d ||
      l.any (fun e => joined e d && !s.down.any (fun x => x == (min e d, max e d)))))

/-- The present dies form one connected set. -/
def State.connected (s : State) : Bool :=
  let ds := diesIn s.present
  decide (s.reach 8 (ds.take 1) = ds)

/-- The device trips: it holds until the host resets it, and its work is lost (R439, R456). -/
def State.trip (s : State) : State := { s with tripped := true, agenda := s.agenda.filter (fun i => match i with | .powerOnReset => true | _ => false) }

/-- LINK_DOWN: a boundary that fails to retrain is marked down and recorded; dies no longer connected trip the device, with a record on the rings that it can reach, those of the dies joined to the
lowest present one (R439, R447). -/
def execLinkDown (a b : Nat) (s : State) : Res :=
  .next (
    if !joined a b then s
    else
      let s := { s with down := (min a b, max a b) :: s.down.filter (fun x => x != (min a b, max a b)) }
      if s.connected then s.recordError (min a b) 7 0 0xFF 2
      else ((s.reach 8 ((diesIn s.present).take 1)).foldl (fun s d => s.recordError d 7 0 0xFF 1) s).trip)

/-! ## Splits (R452, R453) -/

/-- Offsets of a record whose counters are counted in the state as the steps take place (R453): arena bytes and tiles dealt of the die; of core p the
cycles of the control slot of each partition, matrix k-steps, copy bytes, accumulator evictions and tiles retired. -/
def countedOffset (o : Nat) : Bool :=
  let q := (o - 0x140) % 0x100
  decide (o = 0xA8 ∨ o = 0xB0) || (decide (0x140 ≤ o) && decide (o < 0x2540) &&
    (decide (q < 0xC0 ∧ q % 48 = 8) || [0xC0, 0xD0, 0xF0, 0xF8].contains q))

/-- The neighbours of a die that is present, lowest id first (R439, R453). -/
def State.neighbours (s : State) (d : Nat) : List Nat := (diesIn s.present).filter (fun e => joined (min d e) (max d e))

/-- The units that run as the tick comes have run in this interval. -/
def State.latchRan (s : State) (d : Nat) : State :=
  let s := if (s.die d).power = 0 then s.count d (0x3000 + 36) 1 else s
  (s.logical d).foldl (fun s c => if (s.core d c).power = 0 ∧ (s.die d).power = 0 then s.count d (0x3000 + c) 1 else s) s

/-- The counters of a die latched for the tick T, with the K in force and the budget (R452). -/
def State.latchTick (s : State) (d t : Nat) : State :=
  let s := s.latchRan d
  let x := s.die d
  s.setDie d { x with latched := x.latched ++ [(t, bitsN (s.splAt t) 0 5, x.budget, x.counters)] }

/-- The ticks that a race clock passes when it goes from one count to another: the multiples of 2^K with EN set, by the SPL_CTL in force at each (R451,
R452). What has taken place at a count belongs to that count's tick, which is latched as the clock leaves it. -/
def State.ticksDue (s : State) (old new : Nat) : List Nat :=
  if !bit (defGet 0 s.csr 0x400) 31 && s.splNext.all (fun p => !bit p.1 31) then []
  else ((List.range (ceilDiv new 1024 - ceilDiv old 1024)).map (fun i => (ceilDiv old 1024 + i) * 1024)).filter (fun t =>
    bit (s.splAt t) 31 && decide (t % 2 ^ bitsN (s.splAt t) 0 5 = 0))

/-- Groups that a lane slot issued in packs beyond the first: as many of its groups as the packing left out, at most all but one; a free value for each
count of groups (R25, R453). -/
def packed (d o n : Nat) : Nat := (Config.splitsCounter d o n).toNat % max n 1

/-- One word of the record of a latched tick: T, SEQ, die and K, the counted offsets, the budget; every other counter of R453 is traffic or
time, a free value for each interval in which its unit ran. -/
def State.splitsWord (s : State) (d : Nat) (x : Nat × Nat × Nat × List (Nat × DWord)) (wi i : Nat) : Nat :=
  let o := 8 * i
  let n := fun (o : Nat) => (defGet 0 x.2.2.2 o).toNat
  let ran := fun (u : Nat) => n (0x3000 + u)
  if i = 0 then x.1 else if i = 1 then wi else if i = 2 then d + x.2.1 * 2 ^ 8
  else if o < 0x40 then 0
  else if o = 0xA0 then x.2.2.1
  else if o < 0x140 then
    if countedOffset o then n o
    else if 0xB8 ≤ o then 0
    else if 0x70 ≤ o ∧ o < 0x90 ∧ (s.neighbours d).length ≤ (o - 0x70) / 8 then 0
    else (Config.splitsCounter d o (if o = 0x98 then ran 36 else x.1)).toNat
  else if o < 0x2540 then
    let p := (o - 0x140) / 0x100
    let q := (o - 0x140) % 0x100
    if !s.enabled d p then 0
    else if countedOffset o then n o
    else if q < 0xC0 ∧ q % 48 = 0 then n o - packed d (o + 40) (n o)
    else if q < 0xC0 ∧ q % 48 = 40 then packed d o (n (o - 40))
    else (Config.splitsCounter d o (ran p)).toNat
  else 0

/-- SPLITS_TICK: the record of the oldest tick that the die has latched is written, or counted lost (R452, R453). -/
def execSplitsTick (die : Nat) (s : State) : Res :=
  let x := s.die die
  .next (
    match x.latched with
    | [] => s
    | r :: rest =>
      let s := s.setDie die { x with latched := rest }
      let cap := (x.reg 0x249).toNat
      let wi := (x.reg 0x24A).toNat
      if cap ≤ ringFill (x.reg 0x24A) (x.reg 0x24B) ∨ x.reg 0x248 = 0 then
        s.setDie die ((s.die die).setReg 0x24C (BitVec.ofNat 64 (min ((x.reg 0x24C).toNat + 1) (2 ^ 32 - 1))))
      else
        let wi' := (wi + 1) % 2 ^ 32
        let s := s.homeWords ((x.reg 0x248).toNat + 0x2800 * (wi % cap)) ((List.range 0x500).map (s.splitsWord die r wi'))
        s.setDie die ((s.die die).setReg 0x24A (BitVec.ofNat 64 wi')))

/-! ## Power (R454 to R456) -/

/-- Exit latency of a state in µs (R454). -/
def exitLatency : Nat → Nat
  | 0 => 0
  | 1 => 1
  | 2 => 20
  | _ => 500

/-- No work but the agent's on a core: the condition of S1. -/
def State.coreIdle (s : State) (d c : Nat) : Bool :=
  !s.allTeams.any (fun t => decide (t.die = d ∧ t.core = c) && !t.agent && s.onCore t) && !s.jobs.any (fun j => decide (j.die = d ∧ j.core = c)) &&
    decide ((s.core d c).moving = []) && decide ((s.core d c).waking = []) && decide ((s.core d c).stopping = 0) && decide ((s.core d c).reg 0x119 ≠ 1)

/-- A queue holds a packet that has not completed: a claimed one, or, while it runs, one that is still to be claimed (R454). -/
def Queue.busy (q : Queue) : Bool := decide (q.staged ≠ []) || decide (q.state = 0) && decide (q.claim < q.wi)

/-- The condition of a state of a unit (R454). -/
def State.mayEnter (s : State) (u : PowerUnit) (st : Nat) : Bool :=
  decide (exitLatency st ≤ (defGet 0 s.csr 0x408).toNat) &&
  (match u with
   | .core d c => decide (st = 1) && s.coreIdle d c
   | .die d => decide (st = 2) && (s.logical d).all (fun c => decide (1 ≤ (s.core d c).power) && decide ((s.core d c).queue = [])) &&
       !s.queues.any (fun q => decide (q.home = d) && q.busy) && decide (s.passes = [])
   | .device => decide (st = 3) && (diesIn s.present).all (fun d => let x := s.die d
       decide (2 ≤ x.power) && decide (x.reg 0x214 = x.reg 0x215) && decide (x.reg 0x242 = x.reg 0x243)) && !bit (defGet 0 s.csr 0x400) 31)

/-- POWER_STATE_ENTER: a unit enters a state whose condition holds; in S3 the die caches are written back (R454). -/
def execPowerStateEnter (u : PowerUnit) (state : Nat) (s : State) : Res :=
  .next (
    if !s.mayEnter u state then s
    else match u with
      | .core d c => (s.setCore d c { s.core d c with power := state }).count d (0x3000 + c) 1
      | .die d => (s.setDie d { s.die d with power := state }).count d (0x3000 + 36) 1
      | .device => { s.publishAll with power := state })

/-- POWER_STATE_WAKE: the unit is in S0, and so are the die and the device that hold it, whose deeper states ask for a deeper state of
each part (R454). -/
def execPowerStateWake (u : PowerUnit) (s : State) : Res :=
  .next (
    match u with
    | .core d c => let s := s.setCore d c { s.core d c with power := 0 }; { s.setDie d { s.die d with power := 0 } with power := 0 }
    | .die d => { s.setDie d { s.die d with power := 0 } with power := 0 }
    | .device => { s with power := 0 })

/-- Budgets that the arbiter may assign: their sum is within PWR_LIMIT, and each within its die's current limit, which the spec does not give in W
(R455). -/
def State.mayAssign (s : State) (budgets : List Nat) : Bool :=
  decide (budgets.foldl (· + ·) 0 ≤ (defGet 0 s.csr 0x409).toNat) && (mapIx (fun d b => decide (b ≤ Config.dieLimit d)) budgets).all id

/-- ARBITER_UPDATE: measured power and a budget for each die; budgets beyond a limit are never assigned (R455). -/
def execArbiterUpdate (budgets : List Nat) (power : Nat) (s : State) : Res :=
  .next (
    if !s.mayAssign budgets then s
    else
      let s := (List.range 8).foldl (fun s d => match budgets[d]? with
        | some b => s.setDie d { s.die d with budget := b, lastUpdate := (s.die d).rclk.toNat, throttling := false, clock := 16 }
        | none => s) s
      { s with csr := defSet 0 s.csr 0x40A (BitVec.ofNat 64 (power % 2 ^ 16)) })

/-- The clock one step of 1/16 lower, down to 1/4 (R455). -/
def State.throttle (s : State) (d : Nat) : State :=
  let x := s.die d
  s.setDie d { x with throttling := true, clock := max 4 (x.clock - 1) }

/-- LIMITER_THROTTLE (R455). -/
def execLimiterThrottle (die : Nat) (s : State) : Res := .next (s.throttle die)

/-- No update has reached a die for 100 µs, 100 000 counts of its race clock (R4, R455). -/
def State.unserved (s : State) (d : Nat) : Bool := decide ((s.die d).lastUpdate + 100000 ≤ (s.die d).rclk.toNat)

/-- ARBITER_FALLBACK: no update for 100 µs: the die takes an equal part of PWR_LIMIT, and a record of KIND 12 is written; the next 100 µs begin (R455). -/
def execArbiterFallback (die : Nat) (s : State) : Res :=
  let n := (diesIn s.present).length
  .next (
    if !s.unserved die then s
    else (s.setDie die { s.die die with budget := (defGet 0 s.csr 0x409).toNat / n, lastUpdate := (s.die die).rclk.toNat }).recordError die 12 0 0xFF 2)

/-- THERMAL_THROTTLE (R456). -/
def execThermalThrottle (die : Nat) (s : State) : Res := .next ((s.throttle die).recordError die 10 0 0xFF 2)

/-- THERMAL_TRIP: a KIND 11 record on die 0's ring if it is reachable, and the device holds (R456). -/
def execThermalTrip (_die : Nat) (s : State) : Res := .next ((if s.connected then s.recordError 0 11 0 0xFF 2 else s).trip)

end Sys2Proof.Machine
end

