-- ==== Sys2Proof/Machine/RayTest.lean ====
section
/-!
DEFINITION. Machine/RayTest: BOXT, TRIT and SEGT on exact values (R204 to R207). Finite coordinates are integers in units of
2^-149.
-/

namespace Sys2Proof.Machine

/-- Rounding of the ray tests: f32, rn. -/
def rayRnd : Rnd := { f := fmtF32, mode := 1, sat := false, fo := false }

/-- +∞, what a miss writes. -/
def missWord : Word := 0x7F800000

/-- An exact quotient rounded, with a zero written as +0 (R204); d ≠ 0. -/
def rayQuot (n d : Int) : Word :=
  if n = 0 then 0
  else
    let b := (rayRnd.round (decide ((n < 0) ≠ (d < 0))) n.natAbs d.natAbs 0).bits
    if b = 0x80000000 then 0 else BitVec.ofNat 32 b

/-- A vector of three integers. -/
abbrev V3 := Int × Int × Int

def V3.sub (a b : V3) : V3 := (a.1 - b.1, a.2.1 - b.2.1, a.2.2 - b.2.2)
def V3.dot (a b : V3) : Int := a.1 * b.1 + a.2.1 * b.2.1 + a.2.2 * b.2.2
def V3.cross (a b : V3) : V3 := (a.2.1 * b.2.2 - a.2.2 * b.2.1, a.2.2 * b.1 - a.1 * b.2.2, a.1 * b.2.1 - a.2.1 * b.1)
def V3.scale (k : Int) (a : V3) : V3 := (k * a.1, k * a.2.1, k * a.2.2)
def V3.add (a b : V3) : V3 := (a.1 + b.1, a.2.1 + b.2.1, a.2.2 + b.2.2)

/-- Three values from place i of a run. -/
def v3At (vs : List FV) (i : Nat) : V3 := ((vs.getD i (.nan false)).int, (vs.getD (i + 1) (.nan false)).int, (vs.getD (i + 2) (.nan false)).int)

/-- A finite value. -/
def FV.isFin : FV → Bool
  | .fin .. => true
  | _ => false

/-- The ray of a lane; none where the test counts as a miss (R204): o, d, tmin, tmax. -/
def rayOf (vs : List FV) : Option (V3 × V3 × FV × FV) :=
  let v := fun i => vs.getD i (.nan false)
  let d := v3At vs 3
  if (List.range 7).all (fun i => (v i).isFin) && !(v 7).isNan && !(!(v 7).isFin && (v 7).neg) && decide (d ≠ (0, 0, 0)) then
    some (v3At vs 0, d, v 6, v 7)
  else none

/-- tmin ≤ n/d ≤ tmax for an exact quotient, d ≠ 0. -/
def inRange (tmin tmax : FV) (n d : Int) : Bool :=
  let n := if d < 0 then -n else n
  let d := if d < 0 then -d else d
  let le := fun (a : FV) => decide (a.int * d ≤ n * 2 ^ 149)
  let ge := fun (a : FV) => decide (n * 2 ^ 149 ≤ a.int * d)
  le tmin && (!tmax.isFin || ge tmax)

/-! ## BOXT (R205) -/

/-- (b − o)/d rounded to f32; b may be infinite. -/
def slabT (b : FV) (o d : Int) : FV :=
  match b with
  | .inf n => .inf (n != decide (d < 0))
  | b => fmtF32.decode (rayQuot (b.int - o) d).toNat

/-- near of one box, none for a miss. -/
def boxNear (o d : V3) (tmin tmax : FV) (b : List FV) : Option FV :=
  let axis := fun (i : Nat) => (match i with | 0 => o.1 | 1 => o.2.1 | _ => o.2.2, match i with | 0 => d.1 | 1 => d.2.1 | _ => d.2.2)
  let lo := fun i => b.getD i (.nan false)
  let hi := fun i => b.getD (3 + i) (.nan false)
  let ok := (List.range 6).all (fun i => !(b.getD i (.nan false)).isNan) && (List.range 3).all (fun i => !(hi i).less (lo i))
  let st := (List.range 3).foldl (fun (a : Bool × FV × FV) i =>
    let oi := (axis i).1
    let di := (axis i).2
    let fo : FV := .fin (decide (oi < 0)) oi.natAbs
    if di = 0 then (a.1 && !(fo.less (lo i)) && !((hi i).less fo), a.2.1, a.2.2)
    else
      let t0 := slabT (lo i) oi di
      let t1 := slabT (hi i) oi di
      let mn := if t1.less t0 then t1 else t0
      let mx := if t1.less t0 then t0 else t1
      (a.1, if a.2.1.less mn then mn else a.2.1, if mx.less a.2.2 then mx else a.2.2)) (ok, tmin, tmax)
  if st.1 && !st.2.2.less st.2.1 then some st.2.1 else none

/-- A value that f32 holds, a zero as +0 (R204). -/
def rayOut (v : FV) : Word :=
  match v with
  | .fin _ 0 => 0
  | v => BitVec.ofNat 32 (rayRnd.exact v).bits

/-- Insertion of a box into the order by near, ties to the lower index. -/
def insertBox (p : Nat × FV) : List (Nat × FV) → List (Nat × FV)
  | [] => [p]
  | q :: t => if p.2.less q.2 then p :: q :: t else q :: insertBox p t

/-- The five words of BOXT. -/
def boxtWords (ray box : List FV) : List Word :=
  let near := fun (k : Nat) =>
    match rayOf ray with
    | none => none
    | some (o, d, tmin, tmax) => boxNear o d tmin tmax ((box.drop (6 * k)).take 6)
  let nears := (List.range 4).map near
  let hits := (List.range 4).filterMap (fun k => (nears.getD k none).map (fun v => (k, v)))
  let order := (hits.foldl (fun l p => insertBox p l) []).map (fun p => p.1) ++ (List.range 4).filter (fun k => (nears.getD k none).isNone)
  let mask := (hits.map (fun p => 2 ^ p.1)).foldl (· + ·) 0
  let ord := (mapIx (fun i k => k * 4 ^ i) order).foldl (· + ·) 0
  nears.map (fun v => match v with | some x => rayOut x | none => missWord) ++ [BitVec.ofNat 32 (mask + 256 * ord)]

/-! ## TRIT (R206) -/

/-- The four words of a miss. -/
def missWords : List Word := [missWord, 0, 0, 0]

/-- The four words of TRIT. -/
def tritWords (ray tri : List FV) : List Word :=
  match rayOf ray with
  | none => missWords
  | some (o, d, tmin, tmax) =>
    let p0 := v3At tri 0
    let e1 := (v3At tri 3).sub p0
    let e2 := (v3At tri 6).sub p0
    let s := o.sub p0
    let det := e1.dot (d.cross e2)
    if !(List.range 9).all (fun i => (tri.getD i (.nan false)).isFin) || decide (det = 0) then missWords
    else
      let q := s.cross e1
      let sg : Int := if det < 0 then -1 else 1
      let u := s.dot (d.cross e2)
      let v := d.dot q
      let t := e2.dot q
      if 0 ≤ sg * u ∧ 0 ≤ sg * v ∧ sg * (u + v) ≤ sg * det ∧ inRange tmin tmax t det then
        [rayQuot t det, rayQuot u det, rayQuot v det, if det < 0 then 3 else 1]
      else missWords

/-! ## SEGT (R207) -/

/-- dd × perp(x). -/
def perpScaled (d : V3) (x : V3) : V3 := (V3.scale (d.dot d) x).sub (V3.scale (x.dot d) d)

/-- The four words of SEGT. -/
def segtWords (ray seg : List FV) : List Word :=
  match rayOf ray with
  | none => missWords
  | some (o, d, tmin, tmax) =>
    let w := fun i => (seg.getD i (.nan false)).int
    if !(List.range 8).all (fun i => (seg.getD i (.nan false)).isFin) || decide (w 3 < 0) || decide (w 7 < 0) then missWords
    else
      let p0 := v3At seg 0
      let a := (v3At seg 4).sub p0
      let c := p0.sub o
      let dd := d.dot d
      let pa := perpScaled d a
      let aa := pa.dot pa
      let raw := -((perpScaled d c).dot pa)
      let sd := if aa = 0 then 1 else aa
      let sn := if aa = 0 then 0 else max 0 (min aa raw)
      let h2 := (sd - sn) * w 3 + sn * w 7
      let ev := (V3.scale sd c).add (V3.scale sn a)
      let pe := perpScaled d ev
      let r2 := pe.dot pe
      if 4 * r2 ≤ h2 * h2 * (dd * dd) ∧ inRange tmin tmax (ev.dot d) (sd * dd) then
        [rayQuot (ev.dot d) (sd * dd), rayQuot sn sd,
         if h2 = 0 ∨ r2 = 0 then 0 else BitVec.ofNat 32 (rayRnd.root (4 * r2).natAbs (h2 * h2 * (dd * dd)).natAbs 0).bits, 1]
      else missWords

/-! ## The instructions -/

/-- Fields of a ray test: runs of n results and m inputs beside the ray. -/
def formRay (n m : Nat) (r : Reg) : Form :=
  { cls := 2, d := .run n, a := .run 8, b := .run m, types := [2], x := decide (r.x = 0), fi := true }

/-- A ray test: a poisoned input poisons every output of its lane (R204). -/
def rayBody (n m : Nat) (f : List FV → List FV → List Word) (r : Reg) (s : State) (e : Mask) (tg : List (List Nat)) : Out :=
  let t := s.me
  let run := fun (k n l : Nat) => (List.range n).map (fun i => FV.of 2 r.fi (t.srcAt tg k i l))
  let p := fun l => (List.range 8).any (fun i => (t.srcAt tg 1 i l).pois) || (List.range m).any (fun i => (t.srcAt tg 2 i l).pois)
  .go { s with me := t.dstRun tg 0 n e (fun j l => { val := (f (run 1 8 l) (run 2 m l)).getD j 0, pois := p l }) }

/-- BOXT. -/
def execBoxt (o : ShortOps) (s : State) : Res := let r := Reg.ofShort 2 o; s.issue (formRay 5 24 r) r (rayBody 5 24 boxtWords r)
/-- BOXT, long form. -/
def execBoxtLong (o : LongOps) (s : State) : Res := let r := Reg.ofLong o; s.issue (formRay 5 24 r) r (rayBody 5 24 boxtWords r)
/-- TRIT. -/
def execTrit (o : ShortOps) (s : State) : Res := let r := Reg.ofShort 2 o; s.issue (formRay 4 9 r) r (rayBody 4 9 tritWords r)
/-- TRIT, long form. -/
def execTritLong (o : LongOps) (s : State) : Res := let r := Reg.ofLong o; s.issue (formRay 4 9 r) r (rayBody 4 9 tritWords r)
/-- SEGT. -/
def execSegt (o : ShortOps) (s : State) : Res := let r := Reg.ofShort 2 o; s.issue (formRay 4 8 r) r (rayBody 4 8 segtWords r)
/-- SEGT, long form. -/
def execSegtLong (o : LongOps) (s : State) : Res := let r := Reg.ofLong o; s.issue (formRay 4 8 r) r (rayBody 4 8 segtWords r)

end Sys2Proof.Machine
end

