-- ==== Sys2Proof/Machine/Render.lean ====
section
/-!
DEFINITION. Machine/Render: BIN and TILEQ (R274 to R276), the raster rules (R319 to R322), the arena and partial flushes
(R316, R317), the marshal's deal (R318), visibility (R323 to R325), fragment teams (R326 to R328), tile kernels and spill
slots (R330, R331).
-/

namespace Sys2Proof.Machine

/-! ## Raster rules (R319 to R322) -/

/-- A primitive for the raster unit: its kind (0 triangle, 1 line, 2 point, 3 ribbon, 4 covers nothing), coordinates in 1/256
pixel, depths in units of 2^-149, widths in units of 2^-141 of 1/256 pixel. -/
structure Shape where
  kind : Nat
  xs : List Int
  ys : List Int
  zs : List Int
  w0 : Nat
  w1 : Nat
  deriving DecidableEq, Repr

/-- The 14 words of a run as a primitive; none where it is discarded (R275). -/
def shapeOf (run : List Word) : Option Shape :=
  let w := fun i => (run.getD i 0)
  let k := bitsN (w 0) 0 2
  let n := match k with | 0 => 3 | 2 => 1 | _ => 2
  let zs := (List.range n).map (fun i => fmtF32.decode (w (10 + i)).toNat)
  if bitsN (w 0) 2 30 ≠ 0 ∨ zs.any (fun z => match z with | .fin .. => false | _ => true) then none
  else
    let width := match fmtF32.decode (w 13).toNat with | .fin false m => m | _ => 0
    some { kind := if k ≠ 0 ∧ k ≠ 3 ∧ width = 0 then 4 else k
           xs := (List.range n).map (fun i => (w (4 + i)).toInt), ys := (List.range n).map (fun i => (w (7 + i)).toInt)
           zs := zs.map FV.int
           w0 := if k = 3 then bitsN (w 13) 0 16 * 2 ^ 141 else width
           w1 := if k = 3 then bitsN (w 13) 16 16 * 2 ^ 141 else width }

/-- Edge function of a directed edge at a point (R320). -/
def edgeFn (xa ya xb yb sx sy : Int) : Int := (xb - xa) * (sy - ya) - (yb - ya) * (sx - xa)

/-- A sample lies inside an edge: strictly, or on a top or left edge (R320). -/
def edgeIn (xa ya xb yb sx sy : Int) : Bool :=
  let e := edgeFn xa ya xb yb sx sy
  decide (0 < e) || (decide (e = 0) && ((decide (ya = yb) && decide (xa < xb)) || decide (yb < ya)))

/-- The exact depth of a triangle at a sample that it covers, as a fraction (R320, R322). -/
def Shape.triangle (h : Shape) (cull : Nat) (sx sy : Int) : Option (Int × Nat) :=
  let x := fun i => h.xs.getD i 0
  let y := fun i => h.ys.getD i 0
  let z := fun i => h.zs.getD i 0
  let a := (x 1 - x 0) * (y 2 - y 0) - (x 2 - x 0) * (y 1 - y 0)
  if a = 0 ∨ (cull = 1 ∧ a < 0) ∨ (cull = 2 ∧ 0 < a) then none
  else
    let (i, j) := if a < 0 then (2, 1) else (1, 2)
    let e := fun p q => edgeFn (x p) (y p) (x q) (y q) sx sy
    let inside := fun p q => edgeIn (x p) (y p) (x q) (y q) sx sy
    if inside 0 i && inside i j && inside j 0 then some (e i j * z 0 + e j 0 * z i + e 0 i * z j, a.natAbs) else none

/-- The exact depth of a line or ribbon at a sample that it covers (R321, R322). -/
def Shape.stroke (h : Shape) (sx sy : Int) : Option (Int × Nat) :=
  let x0 := h.xs.getD 0 0
  let y0 := h.ys.getD 0 0
  let ax := h.xs.getD 1 0 - x0
  let ay := h.ys.getD 1 0 - y0
  let aa := ax * ax + ay * ay
  let qx := sx - x0
  let qy := sy - y0
  let dot := qx * ax + qy * ay
  let cross := qx * ay - qy * ax
  if aa = 0 ∨ dot < 0 ∨ aa ≤ dot then none
  else
    let w := (aa - dot) * (h.w0 : Int) + dot * (h.w1 : Int)
    if 4 * (cross * cross) * aa * 2 ^ 282 ≤ w * w then
      some (h.zs.getD 0 0 * aa + dot * (h.zs.getD 1 0 - h.zs.getD 0 0), aa.natAbs)
    else none

/-- The exact depth of a point at a sample that it covers (R321, R322). -/
def Shape.point (h : Shape) (sx sy : Int) : Option (Int × Nat) :=
  let w : Int := (h.w0 : Nat)
  let inside := fun (q : Int) => decide (-w ≤ 2 * q * 2 ^ 141) && decide (2 * q * 2 ^ 141 < w)
  if inside (sx - h.xs.getD 0 0) && inside (sy - h.ys.getD 0 0) then some (h.zs.getD 0 0, 1) else none

/-- The f32 depth of a primitive at a sample (R322): none where it does not cover the sample. -/
def Shape.depth (h : Shape) (cull : Nat) (sx sy : Int) : Option Nat :=
  let q := match h.kind with
    | 0 => h.triangle cull sx sy
    | 1 => h.stroke sx sy
    | 2 => h.point sx sy
    | 3 => h.stroke sx sy
    | _ => none
  match q with
  | none => none
  | some (n, d) =>
    let o : Rnd := { f := fmtF32, mode := 1, sat := false, fo := false }
    let z := if n = 0 then 0 else (o.round (decide (n < 0)) n.natAbs d (-149)).bits
    match fmtF32.decode z with
    | .fin neg m => if m = 0 ∨ (!neg ∧ m ≤ 2 ^ 149) then some z else none
    | _ => none

/-- An f32 depth as it is stored (R322). -/
def storedDepth (d24 : Bool) (z : Nat) : Word :=
  if d24 then
    (match fmtF32.decode z with
     | .fin _ m => BitVec.ofNat 32 (roundDiv 1 false (m * (2 ^ 24 - 1)) (2 ^ 149) * 256)
     | _ => 0)
  else BitVec.ofNat 32 z

/-- A stored depth as a number to compare; a NaN that a program has stored compares with nothing (R322, log entry 60). -/
def depthKey (d24 : Bool) (w : Word) : Option Int :=
  if d24 then some (w.toNat : Int)
  else match fmtF32.decode w.toNat with
    | .nan _ => none
    | .inf neg => some (if neg then -(2 ^ 300) else 2 ^ 300)
    | v => some v.int

/-- The depth test, strictly (R324). -/
def depthPasses (d24 greater : Bool) (z d : Word) : Bool :=
  match depthKey d24 z, depthKey d24 d with
  | some a, some b => if greater then decide (b < a) else decide (a < b)
  | _, _ => false

/-- Equal depths. -/
def depthTies (d24 : Bool) (z d : Word) : Bool :=
  match depthKey d24 z, depthKey d24 d with
  | some a, some b => decide (a = b)
  | _, _ => false

/-- Sample offsets in 1/256 pixel (R319). -/
def Pass.offsets (p : Pass) : List (Int × Int) :=
  if p.samples4 then [(96, 32), (224, 96), (32, 160), (160, 224)] else [(128, 128)]

/-- Pixels that a primitive can reach in one direction: from its vertices and half its width. -/
def Shape.box (h : Shape) (vs : List Int) (n : Nat) : Nat × Nat :=
  let m : Int := if h.kind = 0 then 0 else (ceilDiv (max h.w0 h.w1) (2 ^ 142) : Nat)
  let lo := vs.foldl min (vs.headD 0)
  let hi := vs.foldl max (vs.headD 0)
  (((lo - m) / 256).toNat, min n ((hi + m) / 256 + 1).toNat)

/-- Samples of a tile that a primitive covers: pixel, sample, stored depth, in increasing pixel and sample. -/
def Pass.coverage (p : Pass) (h : Shape) (tile : Nat) : List (Nat × Nat × Word) :=
  let c := tile % p.tw
  let r := tile / p.tw
  let bx := h.box h.xs (64 * p.tw)
  let by_ := h.box h.ys (64 * p.th)
  ((List.range 64).filter (fun y => decide (by_.1 ≤ 64 * r + y ∧ 64 * r + y < by_.2))).flatMap (fun y =>
    ((List.range 64).filter (fun x => decide (bx.1 ≤ 64 * c + x ∧ 64 * c + x < bx.2))).flatMap (fun x =>
      (mapIx (fun i o => (i, o)) p.offsets).filterMap (fun so =>
        (h.depth p.cull (256 * (64 * c + x : Nat) + so.2.1) (256 * (64 * r + y : Nat) + so.2.2)).map
          (fun z => (64 * y + x, so.1, storedDepth p.d24 z)))))

/-- Tiles in which a primitive covers a sample, in increasing number (R275). -/
def Pass.reached (p : Pass) (h : Shape) : List Nat :=
  let bx := h.box h.xs (64 * p.tw)
  let by_ := h.box h.ys (64 * p.th)
  ((List.range p.th).filter (fun r => decide (by_.1 < 64 * (r + 1) ∧ 64 * r < by_.2))).flatMap (fun r =>
    ((List.range p.tw).filter (fun c => decide (bx.1 < 64 * (c + 1) ∧ 64 * c < bx.2))).filterMap (fun c =>
      if p.coverage h (p.tw * r + c) = [] then none else some (p.tw * r + c)))

/-! ## BIN (R274, R275) -/

/-- The pass and grid index of a binning grid. -/
def Grid.binning (g : Grid) : Option (Nat × Nat) := match g.origin with | .binning p i => some (p, i) | _ => Option.none

/-- Fields of BIN; legal in binning grids only. -/
def formBin (legal : Bool) (r : Reg) : Form := { cls := 2, d := .run 1, a := .run 14, x := legal && decide (r.xf 0 6 = 0) }

/-- Every member of the group counts one BIN (R275). -/
def State.countBin (s : State) : State := { s with me := s.me.mapThreads s.grp (fun th => { th with bins := th.bins + 1 }) }

/-- BIN: the run is captured, with the thread's count beside its type word, and the LCE is asked. -/
def binBody (r : Reg) (s : State) (e : Mask) (tg : List (List Nat)) : Out :=
  let t := s.me
  let bad := t.poisRun e tg 1 14
  if bad ≠ 0 then .trap 0x08 bad 0 0 0
  else if !s.queueRoom r.fsel then .wait
  else
    let addr := fun l => (BitVec.ofNat 32 (t.thread l).bins) ++ (t.srcAt tg 1 0 l).val
    let ent := { (s.entry r.fsel e tg .bin).withAddr t.width addr with
                 busy := t.dstBusy r e 1 tg
                 data := (List.range t.width).map (fun l => if e.getLsbD l then (List.range 13).map (fun j => (t.srcAt tg 1 (1 + j) l).val) else []) }
    .go ((s.pushEntry ent).countBin)

/-- BIN: with no executing lane it only counts. -/
def State.issueBin (s : State) (r : Reg) : Res :=
  let F := formBin s.myGrid.binning.isSome r
  match s.refusal F.cls (F.ok r) F.rnd F.sat with
  | some c => .next (s.trapGroup c)
  | none =>
    if r.guardPois s.me s.grp = 0 ∧ r.lanes s.me s.grp = 0 then .next s.countBin.advance
    else s.issueLanes F r (binBody r)

/-- BIN. -/
def execBin (o : ShortOps) (s : State) : Res := s.issueBin (Reg.ofShort 0 o)
/-- BIN, long form. -/
def execBinLong (o : LongOps) (s : State) : Res := s.issueBin (Reg.ofLong o)

/-- One key is earlier than another (R314). -/
def keyBefore : List Nat → List Nat → Bool
  | a :: as, b :: bs => decide (a < b) || (decide (a = b) && keyBefore as bs)
  | _, _ => false

/-- A primitive put in key order. -/
def putPrim (ps : List Prim) (x : Prim) : List Prim := ps.filter (fun y => keyBefore y.key x.key) ++ x :: ps.filter (fun y => !keyBefore y.key x.key)

/-- A die's share of the arena (R316). -/
def State.share (s : State) (p : Pass) : Nat := p.arenaSize / max 1 (diesIn s.present).length

/-- What the LCE makes of the next lane of a BIN: the pass's next lane and the primitive with its tiles; none = 0xFFFFFFFF. -/
def binLane (p : Pass) (e : Entry) (l : Nat) : Option (List Word × List Nat) :=
  let run := bits (e.addr.getD l 0) 0 32 :: e.data.getD l []
  (shapeOf run).map (fun h => (run, p.reached h))

/-- The bound on the bytes of a share that a primitive of n tiles takes (R316). -/
def arenaNeed (n : Nat) : Nat := 64 + 8 * n

/-- The lane finds no room in its LCE's share. -/
def State.binFull (s : State) (p : Pass) (d : Nat) (e : Entry) (l : Nat) : Bool :=
  match binLane p e l with
  | some (_, ts) => decide (s.share p < defGet 0 p.used d + arenaNeed ts.length)
  | none => false

/-- One lane accepted: a release at .dv by its thread, its primitive in the arena, its result kept in the entry (R275, R315, R316). -/
def State.binAccept (s : State) (t : Team) (e : Entry) (b : Block) (p : Pass) (gi l : Nat) : Acc (State × Entry) :=
  let s := s.releaseBy 5 t (maskPut 0 l true)
  let done := fun (v : Word) => { e with lmask := maskPut e.lmask l false, data := setAt e.data l [v] }
  match binLane p e l with
  | none => .ok (s, done 0xFFFFFFFF)
  | some (_, []) => .ok (s, done 0)
  | some (run, ts) =>
    let u := defGet 0 p.used t.die
    let n := arenaNeed ts.length
    let key := [gi, b.lin, t.index, bitsN (e.addr.getD l 0) 32 32, l]
    let code := (List.range n).map (Config.arenaCode (key ++ run.map BitVec.toNat))
    match s.writeVirt t.die 0xFF p.proc false (p.arena.toNat + t.die * s.share p + u) code with
    | .ok s =>
      let x : Prim := { key := key, run := run, blend := bit p.blend gi, die := t.die, tiles := ts }
      .ok ((s.setPass { p with prims := putPrim p.prims x, used := defSet 0 p.used t.die (u + n) }).count t.die 0xA8 n, done (BitVec.ofNat 32 ts.length))
    | .fault va lv => .fault va lv
    | .refuse va c => .refuse va c

/-- The block, pass and grid index of a team that bins. -/
def State.binOf (s : State) (t : Team) : Option (Block × Pass × Nat) :=
  match s.block t.block with
  | none => none
  | some b =>
    match (s.grid b.grid).bind Grid.binning with
    | none => none
    | some (n, gi) => (s.pass n).map (fun p => (b, p, gi))

/-- The LCE of a die accepts: no partial flush of the device runs, and no arena write of its waits on a page fault (R316, R317). -/
def State.lceAccepts (s : State) (d : Nat) : Bool :=
  !s.passes.any (fun p => p.flushing) && !s.devWaits.any (fun w => decide (w.1 = d) && s.passes.any (fun p => decide (p.proc = w.2.1) &&
    decide (pageOf (p.arena.toNat + d * s.share p) ≤ w.2.2) && decide (w.2.2 ≤ pageOf (p.arena.toNat + (d + 1) * s.share p - 1))))

/-- An access of an LCE or a marshal refused: logged, and the pass's process contained, as for a malformed packet (R316, R331, R405). -/
def State.arenaRefused (s : State) (d : Nat) (p : Pass) (va cause kind : Nat) : State :=
  (s.logFw d p.proc va cause kind 4).contain p.proc 10 (some (p.qid, p.index))

/-- The lanes of a BIN offered to the LCE one after the other, until one finds no room or faults; fuel counts lanes. -/
def State.binStep (s : State) (id order : Nat) : Nat → State
  | 0 => s
  | n + 1 =>
    match s.ready id order with
    | none => s
    | some (t, e) =>
      match s.binOf t with
      | none => s
      | some (b, p, gi) =>
        if e.lmask = 0 then
          let vs := (lanesOf e.emask).map (fun l => (l, [Elem.ofWord ((e.data.getD l []).headD 0)]))
          s.setTeam ((t.deliver e vs).finish e)
        else
          let l := lowLane e.lmask
          if !s.lceAccepts t.die || s.binFull p t.die e l then s
          else match s.binAccept t e b p gi l with
            | .ok (s, e') =>
              (match s.team id with
               | some t => (s.setTeam (t.setEntry e')).binStep id order n
               | none => s)
            | .fault va lv => s.devFault t.die 0xFF p.proc va kindWrite lv 4
            | .refuse va c => s.arenaRefused t.die p va c kindWrite

/-- BIN_ACCEPTED: the LCE of the team's die accepts the lanes in turn; with the last one the tile counts are written (R275). -/
def execBinAccepted (team entry : Nat) (s : State) : Res :=
  .next (match s.ready team entry with
    | some (_, e) => if e.work = .bin then s.binStep team entry 65 else s
    | none => s)

/-! ## Segments (R313, R317) -/

/-- Entries of a tile's list for the segment, in key order (R314). -/
def Pass.list (p : Pass) (tile : Nat) : List Prim := p.prims.filter (fun x => x.tiles.contains tile)

/-- A tile before its first segment. -/
def TileSt.fresh (tile : Nat) : TileSt := { tile := tile, die := 0, core := 0, tmem := 0, stage := 0, segs := 0, frags := [], block := 0 }

/-- A tile of a pass. -/
def Pass.tileAt (p : Pass) (tile : Nat) : Option TileSt := p.tiles.find? (fun y => decide (y.tile = tile))

/-- A tile replaced or put in. -/
def Pass.putTile (p : Pass) (y : TileSt) : Pass :=
  { p with tiles := p.tiles.filter (fun z => decide (z.tile < y.tile)) ++ y :: p.tiles.filter (fun z => decide (y.tile < z.tile)) }

/-- The tiles that the segment renders stand in the pass. -/
def Pass.enrol (p : Pass) (ts : List Nat) : Pass :=
  ts.foldl (fun p t => match p.tileAt t with | some _ => p | none => p.putTile (TileSt.fresh t)) p

/-- A BIN of the pass waits at a full share. -/
def State.shareFull (s : State) (p : Pass) : Bool :=
  s.allTeams.any (fun t => match s.binOf t with
    | some (_, q, _) => decide (q.lseq = p.lseq) && t.entries.any (fun e =>
        decide (e.work = .bin) && !e.dropped && decide (e.lmask ≠ 0) && s.binFull p t.die e (lowLane e.lmask))
    | none => false)

/-- PARTIAL_FLUSH: begins when a share cannot hold the next primitive; ends when every tile with an entry has been spilled: the
shares are emptied at once and the LCEs accept again (R317). -/
def execPartialFlush (pass : Nat) (s : State) : Res :=
  .next (
    match s.pass pass with
    | none => s
    | some p =>
      if !p.started || p.final then s
      else if p.flushing then
        (if p.tiles.all (fun y => (p.list y.tile).isEmpty || decide (y.stage = 5)) then
          s.setPass { p with flushing := false, prims := [], used := [], segment := p.segment + 1
                             tiles := p.tiles.map (fun y => { y with stage := 0, frags := [] }) }
        else s)
      else if s.shareFull p then s.setPass { p.enrol ((p.prims.flatMap (fun x => x.tiles)).eraseDups) with flushing := true }
      else s)

/-! ## The marshal's deal (R318) -/

/-- A core has n more tile-memory units free, banks in L1-way mode and banks that no block holds counting as free (R294, R318). -/
def State.tileRoom (s : State) (d c u : Nat) : Bool := decide (u ≤ (s.core d c).roomIn 2 + 6 * ((s.core d c).spare 2).length)

/-- Room made for a tile segment: banks of blocks away are handed on, and in a partial flush firmware pre-empts the youngest
binning unit of the pass (R296, R317). -/
def State.tileWaits (s : State) (p : Pass) (at_ : Block → Bool) : State :=
  if p.flushing then s.makeRoom at_ 3 (fun b => p.grids.contains b.grid) else s.releaseAway at_

/-- Tiles of a die still to deal in the segment, in increasing number. -/
def Pass.toDeal (p : Pass) (d : Nat) : List TileSt :=
  p.tiles.filter (fun y => decide (y.stage = 0 ∧ p.place.dieOf y.tile = d) && (p.final || !(p.list y.tile).isEmpty))

/-- Tiles dealt in increasing number: each to the lowest logical core with room; where its banks are still L1 ways, firmware is
asked to convert one and the deal goes on later. -/
def State.dealTiles (s : State) (pass d : Nat) : List TileSt → State
  | [] => s
  | y :: ys =>
    match s.pass pass with
    | none => s
    | some p =>
      match (s.logical d).find? (fun c => s.tileRoom d c p.units) with
      | none => s.tileWaits p (fun b => decide (b.die = d))
      | some c =>
        if s.banksHold d c 0 p.units 0 then
          let id := s.nextId
          let s := ({ s with nextId := id + 1, tmems := tabSet s.tmems id (Bank.zero (8192 * p.units)) } : State).takeBanks d c id 0 p.units 0
          ((s.setPass (p.putTile { y with die := d, core := c, tmem := id, stage := 1, frags := [], block := 0 })).count d 0xB0 1).dealTiles pass d ys
        else if (s.core d c).banking ≠ [] then s
        else s.bankGo d c (s.convertible d c 2) 2

/-- MARSHAL_DEAL: the tiles of a die for the segment; the final segment begins when every binning grid has retired (R313, R318). -/
def execMarshalDeal (pass die : Nat) (s : State) : Res :=
  .next (
    match s.pass pass with
    | none => s
    | some p =>
      let past := p.started && !p.flushing && p.grids.all (fun g => (s.grid g).isNone)
      let p := if past && !p.final then { p.enrol (List.range (p.tw * p.th)) with final := true } else p
      if p.flushing || p.final then (s.setPass p).dealTiles pass die (p.toDeal die) else s)

/-! ## Visibility (R323 to R325) -/

/-- Offset of pixel px in a sample's plane of 32-bit channels (R300, R312). -/
def planeOff (plane smp px : Nat) : Nat := 8192 * (plane + 2 * smp) + 4 * px

/-- A 32-bit word of an on-chip memory. -/
def Bank.word (b : Bank) (o : Nat) : Word := BitVec.ofNat 32 (ofLeBytes (b.read o 4))

/-- The initial byte of a tile allocation (R323). -/
def Pass.initByte (p : Pass) (o : Nat) : Byte :=
  let n := if p.samples4 then 4 else 1
  let within := fun (plane : Nat) => decide (8192 * plane ≤ o ∧ o < 8192 * (plane + 2 * n))
  if within p.visPlane then 0xFF
  else if within p.depthPlane then (leBytes 4 (storedDepth p.d24 p.clear.toNat).toNat).getD (o % 4) 0
  else 0

/-- A tile allocation as R323 initialises it. -/
def Pass.initBank (p : Pass) : Bank :=
  { size := 8192 * p.units
    bytes := (List.range (8192 * p.units)).filterMap (fun o => if p.initByte o = 0 then none else some (o, p.initByte o)), pois := [] }

/-- Address of a tile's spill slot (R331). -/
def Pass.slot (p : Pass) (tile : Nat) : Nat := p.spill.toNat + tile * p.stride

/-- A bank as its spill slot's bytes give it (R331). -/
def unspill (units : Nat) (bs : List Byte) : Bank := Bank.ofImage (8192 * units) bs (bs.drop (8192 * units))

/-- The bytes of a spill slot (R331). -/
def spillBytes (b : Bank) : List Byte :=
  b.read 0 b.size ++ bitBytes (b.size / 32) ((List.range (b.size / 4)).map (fun i => defGet false b.pois i))

/-- A primitive's id (R274). -/
def Prim.ident (x : Prim) : Word := x.run.getD 1 0

/-- Samples of a primitive in a tile. -/
def Pass.covers (p : Pass) (x : Prim) (tile : Nat) : List (Nat × Nat × Word) :=
  match shapeOf x.run with | some h => p.coverage h tile | none => []

/-- Visibility over the opaque entries of a tile (R324): the allocation, and for each pixel and sample the entry that won it. -/
def Pass.resolve (p : Pass) (tile : Nat) (b : Bank) (es : List Prim) : Bank × List (Nat × Nat) :=
  (mapIx (fun i x => (i, x)) es).foldl (fun (a : Bank × List (Nat × Nat)) ix =>
    if ix.2.blend then a
    else (p.covers ix.2 tile).foldl (fun (a : Bank × List (Nat × Nat)) c =>
      let d := a.1.word (planeOff p.depthPlane c.2.1 c.1)
      let i := a.1.word (planeOff p.visPlane c.2.1 c.1)
      if depthPasses p.d24 p.greater c.2.2 d ∨ (depthTies p.d24 c.2.2 d ∧ i ≠ 0xFFFFFFFF ∧ ix.2.ident.toNat < i.toNat) then
        ((a.1.write (planeOff p.depthPlane c.2.1 c.1) (leBytes 4 c.2.2.toNat)).write (planeOff p.visPlane c.2.1 c.1) (leBytes 4 ix.2.ident.toNat),
         tabSet a.2 (4 * c.1 + c.2.1) ix.1)
      else a) a) (b, [])

/-- Pixels with sample masks, in increasing pixel, of the samples that a test keeps. -/
def pixelMasks (cs : List (Nat × Nat × Word)) (keep : Nat × Nat × Word → Bool) : List (Nat × Nat) :=
  (cs.filter keep).foldl (fun m c => tabSet m c.1 (defGet 0 m c.1 + 2 ^ c.2.1)) []

/-- Runs of up to w elements; fuel counts runs. -/
def runsOf {α : Type} (w : Nat) : Nat → List α → List (List α)
  | 0, _ => []
  | n + 1, l => if l.isEmpty then [] else l.take w :: runsOf w n (l.drop w)

/-- The fragment teams of a tile in formation order (R325, R326). -/
def Pass.form (p : Pass) (tile : Nat) (b : Bank) (win : List (Nat × Nat)) (es : List Prim) : List Frag :=
  let ixs := mapIx (fun i x => (i, x)) es
  (ixs.filter (fun ix => !ix.2.blend) ++ ixs.filter (fun ix => ix.2.blend)).flatMap (fun ix =>
    let keep := fun (c : Nat × Nat × Word) =>
      if ix.2.blend then depthPasses p.d24 p.greater c.2.2 (b.word (planeOff p.depthPlane c.2.1 c.1))
      else decide (tabGet win (4 * c.1 + c.2.1) = some ix.1)
    (runsOf p.fragK.width 4096 (pixelMasks (p.covers ix.2 tile) keep)).map (fun px =>
      ({ prim := ix.2, px := px, launched := false, retired := false, block := 0 } : Frag)))

/-- The raster unit of a core halts at a step boundary while a partition of the core is stopped (R332, R426). -/
def State.rasterHalts (s : State) (d c : Nat) : Bool := let k := s.core d c; decide (k.stopped ||| k.stopping ≠ 0)

/-- VISIBILITY_RESOLVE: a dealt tile is initialised or reloaded, resolved, and its fragment teams are formed (R323 to R326). -/
def execVisibilityResolve (pass tile : Nat) (s : State) : Res :=
  .next (
    match s.pass pass with
    | none => s
    | some p =>
      (match p.tileAt tile with
       | none => s
       | some y =>
         if y.stage ≠ 1 ∨ s.rasterHalts y.die y.core then s
         else
           let start : Acc Bank := if y.segs = 0 then .ok p.initBank
             else match s.readVirt y.die 0xFF p.proc false (p.slot tile) (8448 * p.units) with
               | .ok bs => .ok (unspill p.units bs)
               | .fault va lv => .fault va lv
               | .refuse va c => .refuse va c
           (match start with
            | .fault va lv => s.devFault y.die 0xFF p.proc va kindRead lv 4
            | .refuse va c => s.arenaRefused y.die p va c kindRead
            | .ok b =>
              let es := p.list tile
              let (b, win) := p.resolve tile b es
              let s := ({ s with tmems := tabSet s.tmems y.tmem b } : State).mxReady (fun o => decide (o.place.space = 2 ∧ o.place.owner = y.tmem))
              s.setPass (p.putTile { y with stage := 2, frags := p.form tile b win es }))))

/-! ## Fragment and tile-kernel teams (R326, R327, R330) -/

/-- Number that the model keeps a render block's grid under, beyond every launch number. -/
def renderGrid (id : Nat) : Nat := 2 ^ 64 + id

/-- Tile coordinates (R327). -/
def Pass.coords (p : Pass) (tile : Nat) : Word := BitVec.ofNat 32 (tile % p.tw + tile / p.tw * 2 ^ 16)

/-- A grid of one block for a tile. -/
def Pass.blockGrid (p : Pass) (id : Nat) (k : KDesc) (args : DWord) (o : Origin) : Grid :=
  { lseq := renderGrid id, proc := p.proc, kd := k, args := args, gx := 1, gy := 1, gz := 1, depth := 0, cls := p.cls, pin := true,
    origin := o, pre := [], left := 1, start := 0 }

/-- Preloads of a fragment team (R327): lanes beyond its run are exited. -/
def Pass.preloadFrag (p : Pass) (tile rank : Nat) (f : Frag) (t : Team) : Team :=
  let px := fun l => (f.px.getD l (0, 0)).1
  let put := fun (t : Team) (n : Nat) (v : Nat → Nat) =>
    t.vwrite n false ((List.range t.width).map (fun l => (l, Elem.ofWord (if l < f.px.length then BitVec.ofNat 32 (v l) else 0))))
  let t := (t.setSreg 2 (Elem.ofWord f.prim.ident)).setSreg 3 (Elem.ofWord (p.coords tile))
  let t := put (put (put (put t 0 px) 1 (fun l => (f.px.getD l (0, 0)).2)) 2 (fun l => 64 * (tile % p.tw) + px l % 64))
    3 (fun l => 64 * (tile / p.tw) + px l / 64)
  { t with
    frag := f.px, fragRank := rank, prim := f.prim.ident.toNat
    threads := mapIx (fun l th => if l < f.px.length then th else { th with exited := true, pc := 0, hdr := 0 }) t.threads }

/-- A render block admitted on its tile's core; its teams changed by a function. -/
def State.admitRender (s : State) (g : Grid) (y : TileSt) (f : Team → Team) (done : State → Nat → State) (p : Pass) : State :=
  let id := s.nextId
  if s.reserving y.die ∨ !s.agentActs y.die y.core ∨ !s.awake y.die y.core then s else
  match ({ s with grids := s.grids ++ [g] } : State).admitBlock g 0 y.die y.core y.tmem with
  | .ok s => done { s with teams := s.teams.map (fun t => if t.block = id ∧ !t.agent then f t else t) } id
  | .wait =>
    (match s.bankChange y.die y.core (ceilDiv g.kd.scratch 256) 0 g.kd.fifo with
     | some (bank, mode) => s.bankGo y.die y.core bank mode
     | none => s.tileWaits p (fun b => decide (b.die = y.die ∧ b.core = y.core)))
  | .fault va lv => s.devFault y.die y.core p.proc va kindWrite lv 0
  | .refuse va c => (s.logFw y.die p.proc va c kindWrite 0).contain p.proc 6 (some (p.qid, p.index))

/-- FRAGMENT_LAUNCH: the next fragment team of a tile in formation order is admitted as its own block (R326). -/
def execFragmentLaunch (pass tile : Nat) (s : State) : Res :=
  .next (
    match s.pass pass with
    | none => s
    | some p =>
      (match p.tileAt tile with
       | none => s
       | some y =>
         (match indexOf (fun (f : Frag) => !f.launched) y.frags with
          | none => s
          | some i =>
            let f := y.frags.getD i { prim := { key := [], run := [], blend := false, die := 0, tiles := [] }, px := [], launched := true,
                                      retired := true, block := 0 }
            if (y.stage ≠ 2 ∧ y.stage ≠ 3) ∨ s.rasterHalts y.die y.core then s
            else
              let g := p.blockGrid s.nextId p.fragK (f.prim.run.getD 3 0 ++ f.prim.run.getD 2 0) (.fragment p.lseq tile)
              s.admitRender g y (p.preloadFrag tile i f) (fun s id =>
                s.setPass (p.putTile { y with stage := 3, frags := setAt y.frags i { f with launched := true, block := id } })) p)))

/-- Every fragment team of a resolved tile has retired. -/
def TileSt.fragsDone (y : TileSt) : Bool := (decide (y.stage = 2) || decide (y.stage = 3)) && y.frags.all (fun f => f.retired)

/-- TILE_SPILL: in a partial flush the tile's state goes to its slot at .dv and its allocation is freed (R317, R331). -/
def execTileSpill (pass tile : Nat) (s : State) : Res :=
  .next (
    match s.pass pass with
    | none => s
    | some p =>
      (match p.tileAt tile with
       | none => s
       | some y =>
         if !p.flushing || !y.fragsDone || s.rasterHalts y.die y.core then s
         else match s.writeVirt y.die 0xFF p.proc false (p.slot tile) (spillBytes ((tabGet s.tmems y.tmem).getD (Bank.zero (8192 * p.units)))) with
           | .ok s =>
             (({ s with tmems := tabDel s.tmems y.tmem } : State).freeBanks y.die y.core [y.tmem]).setPass
               (p.putTile { y with stage := 5, segs := y.segs + 1, tmem := 0, frags := [] })
           | .fault va lv => s.devFault y.die 0xFF p.proc va kindWrite lv 4
           | .refuse va c => s.arenaRefused y.die p va c kindWrite))

/-- TILE_KERNEL_LAUNCH: in the final segment, when a tile's fragments have retired, its tile kernel is admitted (R330). -/
def execTileKernelLaunch (pass tile : Nat) (s : State) : Res :=
  .next (
    match s.pass pass with
    | none => s
    | some p =>
      (match p.tileAt tile, p.tileK with
       | some y, some k =>
         if !p.final || !y.fragsDone then s
         else
           let g := p.blockGrid s.nextId k p.tileArgs (.tileKernel p.lseq tile)
           s.admitRender g y (fun t => t.setSreg 2 (Elem.ofWord (p.coords tile))) (fun s id =>
             s.setPass (p.putTile { y with stage := 4, block := id })) p
       | _, _ => s))

/-- TILE_RETIRE: a tile whose kernel's block, or with no kernel whose last fragment team, has retired frees its allocation; with
the last tile of the screen the pass is complete (R313, R330). -/
def execTileRetire (pass tile : Nat) (s : State) : Res :=
  .next (
    match s.pass pass with
    | none => s
    | some p =>
      (match p.tileAt tile with
       | none => s
       | some y =>
         if p.final && (if p.tileK.isSome then decide (y.stage = 4) && (s.block y.block).isNone else y.fragsDone) then
           let p := p.putTile { y with stage := 6, tmem := 0 }
           let s := (({ s with tmems := tabDel s.tmems y.tmem } : State).freeBanks y.die y.core [y.tmem]).count y.die (0x140 + 0x100 * y.core + 0xF8) 1
           if p.tiles.all (fun z => decide (z.stage = 6)) then { s with passes := s.passes.filter (fun q => decide (q.lseq ≠ pass)) }
           else s.setPass p
         else s))

/-! ## TILEQ (R276) -/

/-- A selector may be read here: 0 to 5 in both kinds of team, 6 to 8 in fragment teams. -/
def State.tileqLegal (s : State) (sel : Nat) : Bool := (s.tileOf s.myBlock).isSome && (decide (sel ≤ 5) || (decide (sel ≤ 8) && s.isFrag))

/-- Fields of TILEQ. -/
def formTileq (legal : Bool) (r : Reg) : Form := { cls := 2, d := .vec, x := legal && decide (r.xf 4 2 = 0) }

/-- TILEQ. -/
def tileqBody (r : Reg) (s : State) (e : Mask) (tg : List (List Nat)) : Out :=
  if !s.queueRoom r.fsel then .wait
  else .go (s.pushEntry { s.entry r.fsel e tg (.tileq (r.xf 0 4)) with busy := s.me.dstBusy r e 1 tg })

/-- TILEQ issued. -/
def State.issueTileq (s : State) (r : Reg) : Res := s.issue (formTileq (s.tileqLegal (r.xf 0 4)) r) r (tileqBody r)

/-- TILEQ. -/
def execTileq (o : ShortOps) (s : State) : Res := s.issueTileq (Reg.ofShort 0 o)
/-- TILEQ, long form. -/
def execTileqLong (o : LongOps) (s : State) : Res := s.issueTileq (Reg.ofLong o)

/-- The value of a TILEQ selector in a lane. -/
def tileqValue (p : Pass) (y : TileSt) (t : Team) (sel l : Nat) : Word :=
  match sel with
  | 0 => p.coords y.tile
  | 1 => BitVec.ofNat 32 p.lseq
  | 2 => BitVec.ofNat 32 y.segs
  | 3 => if y.segs = 0 then 0 else 1
  | 4 => BitVec.ofNat 32 (p.list y.tile).length
  | 5 => if p.samples4 then 4 else 1
  | 6 => BitVec.ofNat 32 (t.frag.getD l (0, 0)).1
  | 7 => BitVec.ofNat 32 t.prim
  | _ => BitVec.ofNat 32 (t.frag.getD l (0, 0)).2

/-- TILEQ_COMPLETE: the value returns (R276). -/
def execTileqComplete (team entry : Nat) (s : State) : Res :=
  .next (
    match s.ready team entry with
    | none => s
    | some (t, e) =>
      (match e.work, (s.block t.block).bind s.tileOf with
       | .tileq sel, some (p, y) =>
         s.setTeam ((t.deliver e ((lanesOf e.lmask).map (fun l => (l, [Elem.ofWord (tileqValue p y t sel l)])))).finish e)
       | _, _ => s))

end Sys2Proof.Machine
end

