-- ==== Sys2Proof/Decode.lean ====
section
/-!
DEFINITION. Decode: from words to instructions and back (R107, R110, R112, R114, R115, R119 to R121, R139, R143, R144).
The decoder finds the row of the opcode table; the operand fields keep every other bit, and the checks of those fields
(R123 step 4) are WellFormed's. The definitions that build an Instr are noncomputable for one reason only: Lean's runtime
gives an object at most 245 constructor tags and the table has more rows; Lean's kernel evaluates them all the same.
-/

namespace Sys2Proof

/-- Why a word is no instruction (R145, the first two rows and the length rows). -/
inductive Reject where
  /-- OP 0x1F, 0x3B to 0x3F, 0x5D to 0x5F or 0x7F (R110), or a sub-op that is reserved or has no such length
  (R143, R144, R119, R121). -/
  | reserved
  /-- Fewer bytes than the instruction's words take. -/
  | short
  deriving DecidableEq, Repr

/-- The operand fields of W0 (R114). -/
def shortOf (w : Word) : ShortOps := ⟨bits w 16 8, bits w 8 8, bits w 0 8⟩

/-- The operand fields of W0 and W1 of a register-form instruction (R114, R115). -/
def longOf (w w1 : Word) : LongOps :=
  ⟨bits w 16 8, bits w 8 8, bits w 0 8, bits w1 24 8, bits w1 19 5, bit w1 18, bit w1 17, bit w1 16, bit w1 15,
    bit w1 14, bit w1 13, bit w1 12, bits w1 8 4, bits w1 0 8⟩

/-- The operand fields of format S (R119). -/
def sOf (w : Word) : SOps := ⟨bits w 19 5, bits w 14 5, bits w 9 5, bits w 0 4⟩

/-- The operand fields of SLD and SST (R119, R173). -/
def memSOf (w : Word) : MemSOps := ⟨bits w 19 5, bits w 14 5, bits w 9 5, bits w 6 3, bit w 5, bit w 4, bits w 0 4⟩

/-- The W0 fields of a long form. -/
def LongOps.short (o : LongOps) : ShortOps := ⟨o.d, o.a, o.b⟩

/-- L and OP of W0 (R114). -/
def hd (long : Bool) (op : Nat) : Word := putB 32 31 long ||| BitVec.ofNat 32 (op * 2 ^ 24)

/-- W0[23:0] of the register form. -/
def shortBits (o : ShortOps) : Word := put 32 16 o.d ||| put 32 8 o.a ||| put 32 0 o.b

/-- W1 of the register form (R115). -/
def longBits (o : LongOps) : Word :=
  put 32 24 o.c ||| put 32 19 o.g ||| putB 32 18 o.gn ||| putB 32 17 o.id ||| putB 32 16 o.ia ||| putB 32 15 o.ib |||
    putB 32 14 o.ic ||| putB 32 13 o.fi ||| putB 32 12 o.fo ||| put 32 8 o.t ||| put 32 0 o.x

/-- W0[23:0] of format S with its sub-op (R119, R143). -/
def sBits (sub : Nat) (o : SOps) : Word :=
  put 32 19 o.sd ||| put 32 14 o.sa ||| put 32 9 o.sb ||| BitVec.ofNat 32 (sub * 16) ||| put 32 0 o.imm

/-- W0[23:0] of SLD and SST (R173). -/
def memSBits (o : MemSOps) : Word :=
  put 32 19 o.sd ||| put 32 14 o.sa ||| put 32 9 o.sb ||| put 32 6 o.scope ||| putB 32 5 o.ord ||| putB 32 4 o.size |||
    put 32 0 o.imm

/-- The instruction of a one-word form, by its OP (R110, R139); none for a reserved OP or sub-op. -/
noncomputable def decodeShort (w : Word) : Option Instr :=
  match bitsN w 24 7 with
  | 0x00 => some (.nop (bits w 0 24))
  | 0x01 => some (.bra (bits w 0 24))
  | 0x02 => some (.brc (bits w 19 5) (bit w 18) (bits w 0 18))
  | 0x03 => some (.brs (bits w 19 5) (bits w 16 3) (bits w 0 16))
  | 0x04 => some (.call (bits w 0 24))
  | 0x05 => some (.ret (shortOf w))
  | 0x06 => some (.jmpi (shortOf w))
  | 0x07 => some (.exit (shortOf w))
  | 0x08 => some (.trap (shortOf w))
  | 0x09 => some (.brk (shortOf w))
  | 0x0A => some (.yield (shortOf w))
  | 0x0B => some (.join (shortOf w))
  | 0x0C => some (.leave (shortOf w))
  | 0x0D => some (.waitm (shortOf w))
  | 0x0E => some (.msetG (shortOf w))
  | 0x0F => some (.mgetS (shortOf w))
  | 0x10 => some (.census (shortOf w))
  | 0x11 => some (.matchV (shortOf w))
  | 0x12 => some (.peek (shortOf w))
  | 0x13 => some (.lane (shortOf w))
  | 0x14 => some (.pset (shortOf w))
  | 0x15 => some (.plop (shortOf w))
  | 0x16 => some (.xset (shortOf w))
  | 0x17 => some (.xget (shortOf w))
  | 0x18 => 
      match bitsN w 4 5 with
      | 0 => some (.sadd (sOf w))
      | 1 => some (.ssub (sOf w))
      | 2 => some (.smul (sOf w))
      | 3 => some (.sand (sOf w))
      | 4 => some (.sor (sOf w))
      | 5 => some (.sxor (sOf w))
      | 6 => some (.sshl (sOf w))
      | 7 => some (.sshr (sOf w))
      | 8 => some (.ssar (sOf w))
      | 9 => some (.smin (sOf w))
      | 10 => some (.smax (sOf w))
      | 11 => some (.smov (sOf w))
      | 12 => some (.scmp (sOf w))
      | 13 => some (.ssel (sOf w))
      | _ => none
  | 0x19 => some (.smovi (bits w 19 5) (bits w 16 3) (bits w 0 16))
  | 0x1A => some (.sld (memSOf w))
  | 0x1B => some (.sst (memSOf w))
  | 0x1C => some (.ssys (bits w 19 5) (bits w 14 5) (bits w 9 5) (bits w 4 5) (bits w 0 4))
  | 0x1D => some (.xadd (shortOf w))
  | 0x1E => some (.pfx (bits w 21 3) (bit w 20) (bits w 0 20))
  | 0x20 => some (.iadd (shortOf w))
  | 0x21 => some (.isub (shortOf w))
  | 0x22 => some (.imul (shortOf w))
  | 0x23 => some (.imulh (shortOf w))
  | 0x24 => some (.imad (shortOf w))
  | 0x25 => some (.imin (shortOf w))
  | 0x26 => some (.imax (shortOf w))
  | 0x27 => some (.iabs (shortOf w))
  | 0x28 => some (.and (shortOf w))
  | 0x29 => some (.or (shortOf w))
  | 0x2A => some (.xor (shortOf w))
  | 0x2B => some (.shl (shortOf w))
  | 0x2C => some (.shr (shortOf w))
  | 0x2D => some (.sar (shortOf w))
  | 0x2E => some (.popc (shortOf w))
  | 0x2F => some (.clz (shortOf w))
  | 0x30 => some (.bfe (shortOf w))
  | 0x31 => some (.bfi (shortOf w))
  | 0x32 => some (.bmix (shortOf w))
  | 0x33 => some (.sel (shortOf w))
  | 0x34 => some (.mov (shortOf w))
  | 0x35 => some (.movi (bits w 16 8) (bits w 0 16))
  | 0x36 => some (.cmp (shortOf w))
  | 0x37 => some (.dot4 (shortOf w))
  | 0x38 => some (.lea (shortOf w))
  | 0x39 => some (.iadd3 (shortOf w))
  | 0x3A => some (.brev (shortOf w))
  | 0x40 => some (.fadd (shortOf w))
  | 0x41 => some (.fsub (shortOf w))
  | 0x42 => some (.fmul (shortOf w))
  | 0x43 => some (.ffma (shortOf w))
  | 0x44 => some (.fmin (shortOf w))
  | 0x45 => some (.fmax (shortOf w))
  | 0x46 => some (.fcvt (shortOf w))
  | 0x47 => some (.i2f (shortOf w))
  | 0x48 => some (.f2i (shortOf w))
  | 0x49 => some (.pkadd (shortOf w))
  | 0x4A => some (.pkmul (shortOf w))
  | 0x4B => some (.pkfma (shortOf w))
  | 0x4C => some (.fclass (shortOf w))
  | 0x4D => some (.fscale (shortOf w))
  | 0x4E => some (.frnd (shortOf w))
  | 0x4F => some (.qnt (shortOf w))
  | 0x50 => some (.frcp (shortOf w))
  | 0x51 => some (.frsq (shortOf w))
  | 0x52 => some (.fsqrt (shortOf w))
  | 0x53 => some (.fexp2 (shortOf w))
  | 0x54 => some (.flog2 (shortOf w))
  | 0x55 => some (.fsin (shortOf w))
  | 0x56 => some (.fcos (shortOf w))
  | 0x57 => some (.ftanh (shortOf w))
  | 0x58 => some (.boxt (shortOf w))
  | 0x59 => some (.trit (shortOf w))
  | 0x5A => some (.segt (shortOf w))
  | 0x5B => some (.bin (shortOf w))
  | 0x5C => some (.tileq (shortOf w))
  | 0x60 => some (.ld (shortOf w))
  | 0x61 => some (.st (shortOf w))
  | 0x62 => some (.lds (shortOf w))
  | 0x63 => some (.sts (shortOf w))
  | 0x64 => some (.ldt (shortOf w))
  | 0x65 => some (.stt (shortOf w))
  | 0x66 => 
      match bitsN w 13 3 with
      | 0 => some (.atomAdd (shortOf w))
      | 1 => some (.atomMin (shortOf w))
      | 2 => some (.atomMax (shortOf w))
      | 3 => some (.atomAnd (shortOf w))
      | 4 => some (.atomOr (shortOf w))
      | 5 => some (.atomXor (shortOf w))
      | 6 => some (.atomExch (shortOf w))
      | 7 => some (.atomInc (shortOf w))
      | _ => none
  | 0x67 => 
      match bitsN w 13 3 with
      | 0 => some (.redAdd (shortOf w))
      | 1 => some (.redMin (shortOf w))
      | 2 => some (.redMax (shortOf w))
      | 3 => some (.redAnd (shortOf w))
      | 4 => some (.redOr (shortOf w))
      | 5 => some (.redXor (shortOf w))
      | _ => none
  | 0x68 => some (.cas (shortOf w))
  | 0x69 => some (.fenceMx (shortOf w))
  | 0x6A => some (.barSync (shortOf w))
  | 0x6B => some (.cps (shortOf w))
  | 0x6C => some (.prefL1 (shortOf w))
  | 0x6D => some (.cctlWb (shortOf w))
  | 0x6E => some (.sigSet (shortOf w))
  | 0x6F => some (.rflush (shortOf w))
  | 0x70 => some (.mxa (shortOf w))
  | 0x71 => some (.mxz (shortOf w))
  | 0x72 => some (.mxld (shortOf w))
  | 0x73 => some (.mxst (shortOf w))
  | 0x74 => some (.mxrd (shortOf w))
  | 0x75 => some (.mxwr (shortOf w))
  | 0x76 => some (.mxalAlloc (shortOf w))
  | 0x77 => some (.mxep (shortOf w))
  | 0x78 => some (.cpyL (shortOf w))
  | 0x79 => some (.cpyj (shortOf w))
  | 0x7A => some (.twaitAll (shortOf w))
  | 0x7B => some (.lnch (shortOf w))
  | 0x7C => some (.csrRd (shortOf w))
  | 0x7D => some (.tret (shortOf w))
  | 0x7E => some (.rqaRd (shortOf w))
  | _ => none

/-- The instruction of a two-word form, by its OP and sub-op (R110, R143, R144); none for a reserved one, for PFX with
L = 1 (R121), and for SSYS and the SOP sub-ops without a long form (R119, R167, R171). -/
noncomputable def decodeLong (w w1 : Word) : Option Instr :=
  match bitsN w 24 7 with
  | 0x00 => some (.nopLong (bits w 0 24) w1)
  | 0x01 => some (.braLong (bits w 0 24) w1)
  | 0x02 => some (.brcLong (bits w 19 5) (bit w 18) (bits w 0 18) w1)
  | 0x03 => some (.brsLong (bits w 19 5) (bits w 16 3) (bits w 0 16) w1)
  | 0x04 => some (.callLong (bits w 0 24) w1)
  | 0x05 => some (.retLong (longOf w w1))
  | 0x06 => some (.jmpiLong (longOf w w1))
  | 0x07 => some (.exitLong (longOf w w1))
  | 0x08 => some (.trapLong (longOf w w1))
  | 0x09 => some (.brkLong (longOf w w1))
  | 0x0A => some (.yieldLong (longOf w w1))
  | 0x0B => some (.joinLong (longOf w w1))
  | 0x0C => some (.leaveLong (longOf w w1))
  | 0x0D => some (.waitmLong (longOf w w1))
  | 0x0E => 
      match bitsN w1 0 2 with
      | 0 => some (.msetGLong (longOf w w1))
      | 1 => some (.msetS (longOf w w1))
      | 2 => some (.msetZ (longOf w w1))
      | _ => none
  | 0x0F => 
      match bitsN w1 0 1 with
      | 0 => some (.mgetSLong (longOf w w1))
      | 1 => some (.mgetV (longOf w w1))
      | _ => none
  | 0x10 => some (.censusLong (longOf w w1))
  | 0x11 => some (.matchVLong (longOf w w1))
  | 0x12 => some (.peekLong (longOf w w1))
  | 0x13 => some (.laneLong (longOf w w1))
  | 0x14 => some (.psetLong (longOf w w1))
  | 0x15 => some (.plopLong (longOf w w1))
  | 0x16 => some (.xsetLong (longOf w w1))
  | 0x17 => some (.xgetLong (longOf w w1))
  | 0x18 => 
      match bitsN w 4 5 with
      | 0 => some (.saddLong (sOf w) w1)
      | 1 => some (.ssubLong (sOf w) w1)
      | 2 => some (.smulLong (sOf w) w1)
      | 3 => some (.sandLong (sOf w) w1)
      | 4 => some (.sorLong (sOf w) w1)
      | 5 => some (.sxorLong (sOf w) w1)
      | 6 => some (.sshlLong (sOf w) w1)
      | 7 => some (.sshrLong (sOf w) w1)
      | 8 => some (.ssarLong (sOf w) w1)
      | 9 => some (.sminLong (sOf w) w1)
      | 10 => some (.smaxLong (sOf w) w1)
      | _ => none
  | 0x19 => some (.smoviLong (bits w 19 5) (bits w 0 19) w1)
  | 0x1A => some (.sldLong (memSOf w) w1)
  | 0x1B => some (.sstLong (memSOf w) w1)
  | 0x1C => none
  | 0x1D => some (.xaddLong (longOf w w1))
  | 0x1E => none
  | 0x20 => some (.iaddLong (longOf w w1))
  | 0x21 => some (.isubLong (longOf w w1))
  | 0x22 => some (.imulLong (longOf w w1))
  | 0x23 => some (.imulhLong (longOf w w1))
  | 0x24 => some (.imadLong (longOf w w1))
  | 0x25 => some (.iminLong (longOf w w1))
  | 0x26 => some (.imaxLong (longOf w w1))
  | 0x27 => some (.iabsLong (longOf w w1))
  | 0x28 => some (.andLong (longOf w w1))
  | 0x29 => some (.orLong (longOf w w1))
  | 0x2A => some (.xorLong (longOf w w1))
  | 0x2B => some (.shlLong (longOf w w1))
  | 0x2C => some (.shrLong (longOf w w1))
  | 0x2D => some (.sarLong (longOf w w1))
  | 0x2E => some (.popcLong (longOf w w1))
  | 0x2F => some (.clzLong (longOf w w1))
  | 0x30 => some (.bfeLong (longOf w w1))
  | 0x31 => some (.bfiLong (longOf w w1))
  | 0x32 => some (.bmixLong (longOf w w1))
  | 0x33 => some (.selLong (longOf w w1))
  | 0x34 => 
      match bitsN w1 0 1 with
      | 0 => some (.movLong (longOf w w1))
      | 1 => some (.movS (longOf w w1))
      | _ => none
  | 0x35 => some (.moviLong (bits w 16 8) (bits w 0 16) w1)
  | 0x36 => some (.cmpLong (longOf w w1))
  | 0x37 => some (.dot4Long (longOf w w1))
  | 0x38 => some (.leaLong (longOf w w1))
  | 0x39 => some (.iadd3Long (longOf w w1))
  | 0x3A => some (.brevLong (longOf w w1))
  | 0x40 => some (.faddLong (longOf w w1))
  | 0x41 => some (.fsubLong (longOf w w1))
  | 0x42 => some (.fmulLong (longOf w w1))
  | 0x43 => some (.ffmaLong (longOf w w1))
  | 0x44 => some (.fminLong (longOf w w1))
  | 0x45 => some (.fmaxLong (longOf w w1))
  | 0x46 => some (.fcvtLong (longOf w w1))
  | 0x47 => some (.i2fLong (longOf w w1))
  | 0x48 => some (.f2iLong (longOf w w1))
  | 0x49 => some (.pkaddLong (longOf w w1))
  | 0x4A => some (.pkmulLong (longOf w w1))
  | 0x4B => some (.pkfmaLong (longOf w w1))
  | 0x4C => some (.fclassLong (longOf w w1))
  | 0x4D => some (.fscaleLong (longOf w w1))
  | 0x4E => some (.frndLong (longOf w w1))
  | 0x4F => some (.qntLong (longOf w w1))
  | 0x50 => some (.frcpLong (longOf w w1))
  | 0x51 => some (.frsqLong (longOf w w1))
  | 0x52 => some (.fsqrtLong (longOf w w1))
  | 0x53 => some (.fexp2Long (longOf w w1))
  | 0x54 => some (.flog2Long (longOf w w1))
  | 0x55 => some (.fsinLong (longOf w w1))
  | 0x56 => some (.fcosLong (longOf w w1))
  | 0x57 => some (.ftanhLong (longOf w w1))
  | 0x58 => some (.boxtLong (longOf w w1))
  | 0x59 => some (.tritLong (longOf w w1))
  | 0x5A => some (.segtLong (longOf w w1))
  | 0x5B => some (.binLong (longOf w w1))
  | 0x5C => some (.tileqLong (longOf w w1))
  | 0x60 => some (.ldLong (longOf w w1))
  | 0x61 => some (.stLong (longOf w w1))
  | 0x62 => 
      match bitsN w1 4 1 with
      | 0 => some (.ldsLong (longOf w w1))
      | 1 => some (.ldsQ (longOf w w1))
      | _ => none
  | 0x63 => 
      match bitsN w1 4 1 with
      | 0 => some (.stsLong (longOf w w1))
      | 1 => some (.stsQ (longOf w w1))
      | _ => none
  | 0x64 => some (.ldtLong (longOf w w1))
  | 0x65 => some (.sttLong (longOf w w1))
  | 0x66 => 
      match bitsN w 13 3 with
      | 0 => some (.atomAddLong (longOf w w1))
      | 1 => some (.atomMinLong (longOf w w1))
      | 2 => some (.atomMaxLong (longOf w w1))
      | 3 => some (.atomAndLong (longOf w w1))
      | 4 => some (.atomOrLong (longOf w w1))
      | 5 => some (.atomXorLong (longOf w w1))
      | 6 => some (.atomExchLong (longOf w w1))
      | 7 => some (.atomIncLong (longOf w w1))
      | _ => none
  | 0x67 => 
      if bit w1 5 then some (.redDet (longOf w w1)) else
      match bitsN w 13 3 with
      | 0 => some (.redAddLong (longOf w w1))
      | 1 => some (.redMinLong (longOf w w1))
      | 2 => some (.redMaxLong (longOf w w1))
      | 3 => some (.redAndLong (longOf w w1))
      | 4 => some (.redOrLong (longOf w w1))
      | 5 => some (.redXorLong (longOf w w1))
      | _ => none
  | 0x68 => some (.casLong (longOf w w1))
  | 0x69 => 
      match bitsN w1 3 2 with
      | 0 => some (.fenceMxLong (longOf w w1))
      | 1 => some (.fenceAcq (longOf w w1))
      | 2 => some (.fenceRel (longOf w w1))
      | 3 => some (.fenceAr (longOf w w1))
      | _ => none
  | 0x6A => 
      match bitsN w1 0 2 with
      | 0 => some (.barSyncLong (longOf w w1))
      | 1 => some (.barArrive (longOf w w1))
      | 2 => some (.barWait (longOf w w1))
      | _ => none
  | 0x6B => some (.cpsLong (longOf w w1))
  | 0x6C => 
      match bitsN w1 0 1 with
      | 0 => some (.prefL1Long (longOf w w1))
      | 1 => some (.prefDc (longOf w w1))
      | _ => none
  | 0x6D => 
      match bitsN w1 0 2 with
      | 0 => some (.cctlWbLong (longOf w w1))
      | 1 => some (.cctlInv (longOf w w1))
      | 2 => some (.cctlInvall (longOf w w1))
      | _ => none
  | 0x6E => 
      match bitsN w1 0 2 with
      | 0 => some (.sigSetLong (longOf w w1))
      | 1 => some (.sigAdd (longOf w w1))
      | 2 => some (.sigSub (longOf w w1))
      | _ => none
  | 0x6F => 
      match bitsN w1 0 1 with
      | 0 => some (.rflushLong (longOf w w1))
      | 1 => some (.rflushAll (longOf w w1))
      | _ => none
  | 0x70 => some (.mxaLong (longOf w w1))
  | 0x71 => some (.mxzLong (longOf w w1))
  | 0x72 => some (.mxldLong (longOf w w1))
  | 0x73 => some (.mxstLong (longOf w w1))
  | 0x74 => some (.mxrdLong (longOf w w1))
  | 0x75 => some (.mxwrLong (longOf w w1))
  | 0x76 => 
      match bitsN w1 0 1 with
      | 0 => some (.mxalAllocLong (longOf w w1))
      | 1 => some (.mxalFree (longOf w w1))
      | _ => none
  | 0x77 => some (.mxepLong (longOf w w1))
  | 0x78 => 
      match bitsN w1 0 2 with
      | 0 => some (.cpyLLong (longOf w w1))
      | 1 => some (.cpyT (longOf w w1))
      | 2 => some (.cpyX (longOf w w1))
      | _ => none
  | 0x79 => some (.cpyjLong (longOf w w1))
  | 0x7A => 
      match bitsN w1 0 2 with
      | 0 => some (.twaitAllLong (longOf w w1))
      | 1 => some (.twaitAny (longOf w w1))
      | 2 => some (.twaitFind (longOf w w1))
      | _ => none
  | 0x7B => some (.lnchLong (longOf w w1))
  | 0x7C => 
      match bitsN w1 0 2 with
      | 0 => some (.csrRdLong (longOf w w1))
      | 1 => some (.csrWr (longOf w w1))
      | 2 => some (.csrSet (longOf w w1))
      | 3 => some (.csrClr (longOf w w1))
      | _ => none
  | 0x7D => some (.tretLong (longOf w w1))
  | 0x7E => 
      match bitsN w1 0 2 with
      | 0 => some (.rqaRdLong (longOf w w1))
      | 1 => some (.rqaWr (longOf w w1))
      | 2 => some (.rqaDrop (longOf w w1))
      | _ => none
  | _ => none

/-- The words of an instruction, W0 first; a step of another agent has no words. -/
def encode : Instr → List Word
  | .nop z => [hd false 0x00 ||| put 32 0 z]
  | .nopLong z w1 => [hd true 0x00 ||| put 32 0 z, w1]
  | .bra off => [hd false 0x01 ||| put 32 0 off]
  | .braLong z w1 => [hd true 0x01 ||| put 32 0 z, w1]
  | .brc p neg off => [hd false 0x02 ||| put 32 19 p ||| putB 32 18 neg ||| put 32 0 off]
  | .brcLong p neg z w1 => [hd true 0x02 ||| put 32 19 p ||| putB 32 18 neg ||| put 32 0 z, w1]
  | .brs sr cc off => [hd false 0x03 ||| put 32 19 sr ||| put 32 16 cc ||| put 32 0 off]
  | .brsLong sr cc z w1 => [hd true 0x03 ||| put 32 19 sr ||| put 32 16 cc ||| put 32 0 z, w1]
  | .call off => [hd false 0x04 ||| put 32 0 off]
  | .callLong z w1 => [hd true 0x04 ||| put 32 0 z, w1]
  | .ret o => [hd false 0x05 ||| shortBits o]
  | .retLong o => [hd true 0x05 ||| shortBits o.short, longBits o]
  | .jmpi o => [hd false 0x06 ||| shortBits o]
  | .jmpiLong o => [hd true 0x06 ||| shortBits o.short, longBits o]
  | .exit o => [hd false 0x07 ||| shortBits o]
  | .exitLong o => [hd true 0x07 ||| shortBits o.short, longBits o]
  | .trap o => [hd false 0x08 ||| shortBits o]
  | .trapLong o => [hd true 0x08 ||| shortBits o.short, longBits o]
  | .brk o => [hd false 0x09 ||| shortBits o]
  | .brkLong o => [hd true 0x09 ||| shortBits o.short, longBits o]
  | .yield o => [hd false 0x0A ||| shortBits o]
  | .yieldLong o => [hd true 0x0A ||| shortBits o.short, longBits o]
  | .join o => [hd false 0x0B ||| shortBits o]
  | .joinLong o => [hd true 0x0B ||| shortBits o.short, longBits o]
  | .leave o => [hd false 0x0C ||| shortBits o]
  | .leaveLong o => [hd true 0x0C ||| shortBits o.short, longBits o]
  | .waitm o => [hd false 0x0D ||| shortBits o]
  | .waitmLong o => [hd true 0x0D ||| shortBits o.short, longBits o]
  | .msetG o => [hd false 0x0E ||| shortBits o]
  | .msetGLong o => [hd true 0x0E ||| shortBits o.short, longBits o]
  | .msetS o => [hd true 0x0E ||| shortBits o.short, longBits o]
  | .msetZ o => [hd true 0x0E ||| shortBits o.short, longBits o]
  | .mgetS o => [hd false 0x0F ||| shortBits o]
  | .mgetSLong o => [hd true 0x0F ||| shortBits o.short, longBits o]
  | .mgetV o => [hd true 0x0F ||| shortBits o.short, longBits o]
  | .census o => [hd false 0x10 ||| shortBits o]
  | .censusLong o => [hd true 0x10 ||| shortBits o.short, longBits o]
  | .matchV o => [hd false 0x11 ||| shortBits o]
  | .matchVLong o => [hd true 0x11 ||| shortBits o.short, longBits o]
  | .peek o => [hd false 0x12 ||| shortBits o]
  | .peekLong o => [hd true 0x12 ||| shortBits o.short, longBits o]
  | .lane o => [hd false 0x13 ||| shortBits o]
  | .laneLong o => [hd true 0x13 ||| shortBits o.short, longBits o]
  | .pset o => [hd false 0x14 ||| shortBits o]
  | .psetLong o => [hd true 0x14 ||| shortBits o.short, longBits o]
  | .plop o => [hd false 0x15 ||| shortBits o]
  | .plopLong o => [hd true 0x15 ||| shortBits o.short, longBits o]
  | .xset o => [hd false 0x16 ||| shortBits o]
  | .xsetLong o => [hd true 0x16 ||| shortBits o.short, longBits o]
  | .xget o => [hd false 0x17 ||| shortBits o]
  | .xgetLong o => [hd true 0x17 ||| shortBits o.short, longBits o]
  | .xadd o => [hd false 0x1D ||| shortBits o]
  | .xaddLong o => [hd true 0x1D ||| shortBits o.short, longBits o]
  | .sadd o => [hd false 0x18 ||| sBits 0 o]
  | .saddLong o w1 => [hd true 0x18 ||| sBits 0 o, w1]
  | .ssub o => [hd false 0x18 ||| sBits 1 o]
  | .ssubLong o w1 => [hd true 0x18 ||| sBits 1 o, w1]
  | .smul o => [hd false 0x18 ||| sBits 2 o]
  | .smulLong o w1 => [hd true 0x18 ||| sBits 2 o, w1]
  | .sand o => [hd false 0x18 ||| sBits 3 o]
  | .sandLong o w1 => [hd true 0x18 ||| sBits 3 o, w1]
  | .sor o => [hd false 0x18 ||| sBits 4 o]
  | .sorLong o w1 => [hd true 0x18 ||| sBits 4 o, w1]
  | .sxor o => [hd false 0x18 ||| sBits 5 o]
  | .sxorLong o w1 => [hd true 0x18 ||| sBits 5 o, w1]
  | .sshl o => [hd false 0x18 ||| sBits 6 o]
  | .sshlLong o w1 => [hd true 0x18 ||| sBits 6 o, w1]
  | .sshr o => [hd false 0x18 ||| sBits 7 o]
  | .sshrLong o w1 => [hd true 0x18 ||| sBits 7 o, w1]
  | .ssar o => [hd false 0x18 ||| sBits 8 o]
  | .ssarLong o w1 => [hd true 0x18 ||| sBits 8 o, w1]
  | .smin o => [hd false 0x18 ||| sBits 9 o]
  | .sminLong o w1 => [hd true 0x18 ||| sBits 9 o, w1]
  | .smax o => [hd false 0x18 ||| sBits 10 o]
  | .smaxLong o w1 => [hd true 0x18 ||| sBits 10 o, w1]
  | .smov o => [hd false 0x18 ||| sBits 11 o]
  | .scmp o => [hd false 0x18 ||| sBits 12 o]
  | .ssel o => [hd false 0x18 ||| sBits 13 o]
  | .smovi sd z imm => [hd false 0x19 ||| put 32 19 sd ||| put 32 16 z ||| put 32 0 imm]
  | .smoviLong sd z w1 => [hd true 0x19 ||| put 32 19 sd ||| put 32 0 z, w1]
  | .sld o => [hd false 0x1A ||| memSBits o]
  | .sldLong o w1 => [hd true 0x1A ||| memSBits o, w1]
  | .sst o => [hd false 0x1B ||| memSBits o]
  | .sstLong o w1 => [hd true 0x1B ||| memSBits o, w1]
  | .ssys sd sa sb sel z => [hd false 0x1C ||| put 32 19 sd ||| put 32 14 sa ||| put 32 9 sb ||| put 32 4 sel ||| put 32 0 z]
  | .pfx rnd sat z => [hd false 0x1E ||| put 32 21 rnd ||| putB 32 20 sat ||| put 32 0 z]
  | .iadd o => [hd false 0x20 ||| shortBits o]
  | .iaddLong o => [hd true 0x20 ||| shortBits o.short, longBits o]
  | .isub o => [hd false 0x21 ||| shortBits o]
  | .isubLong o => [hd true 0x21 ||| shortBits o.short, longBits o]
  | .imul o => [hd false 0x22 ||| shortBits o]
  | .imulLong o => [hd true 0x22 ||| shortBits o.short, longBits o]
  | .imulh o => [hd false 0x23 ||| shortBits o]
  | .imulhLong o => [hd true 0x23 ||| shortBits o.short, longBits o]
  | .imad o => [hd false 0x24 ||| shortBits o]
  | .imadLong o => [hd true 0x24 ||| shortBits o.short, longBits o]
  | .imin o => [hd false 0x25 ||| shortBits o]
  | .iminLong o => [hd true 0x25 ||| shortBits o.short, longBits o]
  | .imax o => [hd false 0x26 ||| shortBits o]
  | .imaxLong o => [hd true 0x26 ||| shortBits o.short, longBits o]
  | .iabs o => [hd false 0x27 ||| shortBits o]
  | .iabsLong o => [hd true 0x27 ||| shortBits o.short, longBits o]
  | .and o => [hd false 0x28 ||| shortBits o]
  | .andLong o => [hd true 0x28 ||| shortBits o.short, longBits o]
  | .or o => [hd false 0x29 ||| shortBits o]
  | .orLong o => [hd true 0x29 ||| shortBits o.short, longBits o]
  | .xor o => [hd false 0x2A ||| shortBits o]
  | .xorLong o => [hd true 0x2A ||| shortBits o.short, longBits o]
  | .shl o => [hd false 0x2B ||| shortBits o]
  | .shlLong o => [hd true 0x2B ||| shortBits o.short, longBits o]
  | .shr o => [hd false 0x2C ||| shortBits o]
  | .shrLong o => [hd true 0x2C ||| shortBits o.short, longBits o]
  | .sar o => [hd false 0x2D ||| shortBits o]
  | .sarLong o => [hd true 0x2D ||| shortBits o.short, longBits o]
  | .popc o => [hd false 0x2E ||| shortBits o]
  | .popcLong o => [hd true 0x2E ||| shortBits o.short, longBits o]
  | .clz o => [hd false 0x2F ||| shortBits o]
  | .clzLong o => [hd true 0x2F ||| shortBits o.short, longBits o]
  | .bfe o => [hd false 0x30 ||| shortBits o]
  | .bfeLong o => [hd true 0x30 ||| shortBits o.short, longBits o]
  | .bfi o => [hd false 0x31 ||| shortBits o]
  | .bfiLong o => [hd true 0x31 ||| shortBits o.short, longBits o]
  | .bmix o => [hd false 0x32 ||| shortBits o]
  | .bmixLong o => [hd true 0x32 ||| shortBits o.short, longBits o]
  | .sel o => [hd false 0x33 ||| shortBits o]
  | .selLong o => [hd true 0x33 ||| shortBits o.short, longBits o]
  | .mov o => [hd false 0x34 ||| shortBits o]
  | .movLong o => [hd true 0x34 ||| shortBits o.short, longBits o]
  | .movS o => [hd true 0x34 ||| shortBits o.short, longBits o]
  | .movi d imm => [hd false 0x35 ||| put 32 16 d ||| put 32 0 imm]
  | .moviLong d z w1 => [hd true 0x35 ||| put 32 16 d ||| put 32 0 z, w1]
  | .cmp o => [hd false 0x36 ||| shortBits o]
  | .cmpLong o => [hd true 0x36 ||| shortBits o.short, longBits o]
  | .dot4 o => [hd false 0x37 ||| shortBits o]
  | .dot4Long o => [hd true 0x37 ||| shortBits o.short, longBits o]
  | .lea o => [hd false 0x38 ||| shortBits o]
  | .leaLong o => [hd true 0x38 ||| shortBits o.short, longBits o]
  | .iadd3 o => [hd false 0x39 ||| shortBits o]
  | .iadd3Long o => [hd true 0x39 ||| shortBits o.short, longBits o]
  | .brev o => [hd false 0x3A ||| shortBits o]
  | .brevLong o => [hd true 0x3A ||| shortBits o.short, longBits o]
  | .fadd o => [hd false 0x40 ||| shortBits o]
  | .faddLong o => [hd true 0x40 ||| shortBits o.short, longBits o]
  | .fsub o => [hd false 0x41 ||| shortBits o]
  | .fsubLong o => [hd true 0x41 ||| shortBits o.short, longBits o]
  | .fmul o => [hd false 0x42 ||| shortBits o]
  | .fmulLong o => [hd true 0x42 ||| shortBits o.short, longBits o]
  | .ffma o => [hd false 0x43 ||| shortBits o]
  | .ffmaLong o => [hd true 0x43 ||| shortBits o.short, longBits o]
  | .fmin o => [hd false 0x44 ||| shortBits o]
  | .fminLong o => [hd true 0x44 ||| shortBits o.short, longBits o]
  | .fmax o => [hd false 0x45 ||| shortBits o]
  | .fmaxLong o => [hd true 0x45 ||| shortBits o.short, longBits o]
  | .fcvt o => [hd false 0x46 ||| shortBits o]
  | .fcvtLong o => [hd true 0x46 ||| shortBits o.short, longBits o]
  | .i2f o => [hd false 0x47 ||| shortBits o]
  | .i2fLong o => [hd true 0x47 ||| shortBits o.short, longBits o]
  | .f2i o => [hd false 0x48 ||| shortBits o]
  | .f2iLong o => [hd true 0x48 ||| shortBits o.short, longBits o]
  | .pkadd o => [hd false 0x49 ||| shortBits o]
  | .pkaddLong o => [hd true 0x49 ||| shortBits o.short, longBits o]
  | .pkmul o => [hd false 0x4A ||| shortBits o]
  | .pkmulLong o => [hd true 0x4A ||| shortBits o.short, longBits o]
  | .pkfma o => [hd false 0x4B ||| shortBits o]
  | .pkfmaLong o => [hd true 0x4B ||| shortBits o.short, longBits o]
  | .fclass o => [hd false 0x4C ||| shortBits o]
  | .fclassLong o => [hd true 0x4C ||| shortBits o.short, longBits o]
  | .fscale o => [hd false 0x4D ||| shortBits o]
  | .fscaleLong o => [hd true 0x4D ||| shortBits o.short, longBits o]
  | .frnd o => [hd false 0x4E ||| shortBits o]
  | .frndLong o => [hd true 0x4E ||| shortBits o.short, longBits o]
  | .qnt o => [hd false 0x4F ||| shortBits o]
  | .qntLong o => [hd true 0x4F ||| shortBits o.short, longBits o]
  | .frcp o => [hd false 0x50 ||| shortBits o]
  | .frcpLong o => [hd true 0x50 ||| shortBits o.short, longBits o]
  | .frsq o => [hd false 0x51 ||| shortBits o]
  | .frsqLong o => [hd true 0x51 ||| shortBits o.short, longBits o]
  | .fsqrt o => [hd false 0x52 ||| shortBits o]
  | .fsqrtLong o => [hd true 0x52 ||| shortBits o.short, longBits o]
  | .fexp2 o => [hd false 0x53 ||| shortBits o]
  | .fexp2Long o => [hd true 0x53 ||| shortBits o.short, longBits o]
  | .flog2 o => [hd false 0x54 ||| shortBits o]
  | .flog2Long o => [hd true 0x54 ||| shortBits o.short, longBits o]
  | .fsin o => [hd false 0x55 ||| shortBits o]
  | .fsinLong o => [hd true 0x55 ||| shortBits o.short, longBits o]
  | .fcos o => [hd false 0x56 ||| shortBits o]
  | .fcosLong o => [hd true 0x56 ||| shortBits o.short, longBits o]
  | .ftanh o => [hd false 0x57 ||| shortBits o]
  | .ftanhLong o => [hd true 0x57 ||| shortBits o.short, longBits o]
  | .boxt o => [hd false 0x58 ||| shortBits o]
  | .boxtLong o => [hd true 0x58 ||| shortBits o.short, longBits o]
  | .trit o => [hd false 0x59 ||| shortBits o]
  | .tritLong o => [hd true 0x59 ||| shortBits o.short, longBits o]
  | .segt o => [hd false 0x5A ||| shortBits o]
  | .segtLong o => [hd true 0x5A ||| shortBits o.short, longBits o]
  | .bin o => [hd false 0x5B ||| shortBits o]
  | .binLong o => [hd true 0x5B ||| shortBits o.short, longBits o]
  | .tileq o => [hd false 0x5C ||| shortBits o]
  | .tileqLong o => [hd true 0x5C ||| shortBits o.short, longBits o]
  | .ld o => [hd false 0x60 ||| shortBits o]
  | .ldLong o => [hd true 0x60 ||| shortBits o.short, longBits o]
  | .st o => [hd false 0x61 ||| shortBits o]
  | .stLong o => [hd true 0x61 ||| shortBits o.short, longBits o]
  | .lds o => [hd false 0x62 ||| shortBits o]
  | .ldsLong o => [hd true 0x62 ||| shortBits o.short, longBits o]
  | .ldsQ o => [hd true 0x62 ||| shortBits o.short, longBits o]
  | .sts o => [hd false 0x63 ||| shortBits o]
  | .stsLong o => [hd true 0x63 ||| shortBits o.short, longBits o]
  | .stsQ o => [hd true 0x63 ||| shortBits o.short, longBits o]
  | .ldt o => [hd false 0x64 ||| shortBits o]
  | .ldtLong o => [hd true 0x64 ||| shortBits o.short, longBits o]
  | .stt o => [hd false 0x65 ||| shortBits o]
  | .sttLong o => [hd true 0x65 ||| shortBits o.short, longBits o]
  | .atomAdd o => [hd false 0x66 ||| shortBits o]
  | .atomAddLong o => [hd true 0x66 ||| shortBits o.short, longBits o]
  | .atomMin o => [hd false 0x66 ||| shortBits o]
  | .atomMinLong o => [hd true 0x66 ||| shortBits o.short, longBits o]
  | .atomMax o => [hd false 0x66 ||| shortBits o]
  | .atomMaxLong o => [hd true 0x66 ||| shortBits o.short, longBits o]
  | .atomAnd o => [hd false 0x66 ||| shortBits o]
  | .atomAndLong o => [hd true 0x66 ||| shortBits o.short, longBits o]
  | .atomOr o => [hd false 0x66 ||| shortBits o]
  | .atomOrLong o => [hd true 0x66 ||| shortBits o.short, longBits o]
  | .atomXor o => [hd false 0x66 ||| shortBits o]
  | .atomXorLong o => [hd true 0x66 ||| shortBits o.short, longBits o]
  | .atomExch o => [hd false 0x66 ||| shortBits o]
  | .atomExchLong o => [hd true 0x66 ||| shortBits o.short, longBits o]
  | .atomInc o => [hd false 0x66 ||| shortBits o]
  | .atomIncLong o => [hd true 0x66 ||| shortBits o.short, longBits o]
  | .redAdd o => [hd false 0x67 ||| shortBits o]
  | .redAddLong o => [hd true 0x67 ||| shortBits o.short, longBits o]
  | .redMin o => [hd false 0x67 ||| shortBits o]
  | .redMinLong o => [hd true 0x67 ||| shortBits o.short, longBits o]
  | .redMax o => [hd false 0x67 ||| shortBits o]
  | .redMaxLong o => [hd true 0x67 ||| shortBits o.short, longBits o]
  | .redAnd o => [hd false 0x67 ||| shortBits o]
  | .redAndLong o => [hd true 0x67 ||| shortBits o.short, longBits o]
  | .redOr o => [hd false 0x67 ||| shortBits o]
  | .redOrLong o => [hd true 0x67 ||| shortBits o.short, longBits o]
  | .redXor o => [hd false 0x67 ||| shortBits o]
  | .redXorLong o => [hd true 0x67 ||| shortBits o.short, longBits o]
  | .redDet o => [hd true 0x67 ||| shortBits o.short, longBits o]
  | .cas o => [hd false 0x68 ||| shortBits o]
  | .casLong o => [hd true 0x68 ||| shortBits o.short, longBits o]
  | .fenceMx o => [hd false 0x69 ||| shortBits o]
  | .fenceMxLong o => [hd true 0x69 ||| shortBits o.short, longBits o]
  | .fenceAcq o => [hd true 0x69 ||| shortBits o.short, longBits o]
  | .fenceRel o => [hd true 0x69 ||| shortBits o.short, longBits o]
  | .fenceAr o => [hd true 0x69 ||| shortBits o.short, longBits o]
  | .barSync o => [hd false 0x6A ||| shortBits o]
  | .barSyncLong o => [hd true 0x6A ||| shortBits o.short, longBits o]
  | .barArrive o => [hd true 0x6A ||| shortBits o.short, longBits o]
  | .barWait o => [hd true 0x6A ||| shortBits o.short, longBits o]
  | .cps o => [hd false 0x6B ||| shortBits o]
  | .cpsLong o => [hd true 0x6B ||| shortBits o.short, longBits o]
  | .prefL1 o => [hd false 0x6C ||| shortBits o]
  | .prefL1Long o => [hd true 0x6C ||| shortBits o.short, longBits o]
  | .prefDc o => [hd true 0x6C ||| shortBits o.short, longBits o]
  | .cctlWb o => [hd false 0x6D ||| shortBits o]
  | .cctlWbLong o => [hd true 0x6D ||| shortBits o.short, longBits o]
  | .cctlInv o => [hd true 0x6D ||| shortBits o.short, longBits o]
  | .cctlInvall o => [hd true 0x6D ||| shortBits o.short, longBits o]
  | .sigSet o => [hd false 0x6E ||| shortBits o]
  | .sigSetLong o => [hd true 0x6E ||| shortBits o.short, longBits o]
  | .sigAdd o => [hd true 0x6E ||| shortBits o.short, longBits o]
  | .sigSub o => [hd true 0x6E ||| shortBits o.short, longBits o]
  | .rflush o => [hd false 0x6F ||| shortBits o]
  | .rflushLong o => [hd true 0x6F ||| shortBits o.short, longBits o]
  | .rflushAll o => [hd true 0x6F ||| shortBits o.short, longBits o]
  | .mxa o => [hd false 0x70 ||| shortBits o]
  | .mxaLong o => [hd true 0x70 ||| shortBits o.short, longBits o]
  | .mxz o => [hd false 0x71 ||| shortBits o]
  | .mxzLong o => [hd true 0x71 ||| shortBits o.short, longBits o]
  | .mxld o => [hd false 0x72 ||| shortBits o]
  | .mxldLong o => [hd true 0x72 ||| shortBits o.short, longBits o]
  | .mxst o => [hd false 0x73 ||| shortBits o]
  | .mxstLong o => [hd true 0x73 ||| shortBits o.short, longBits o]
  | .mxrd o => [hd false 0x74 ||| shortBits o]
  | .mxrdLong o => [hd true 0x74 ||| shortBits o.short, longBits o]
  | .mxwr o => [hd false 0x75 ||| shortBits o]
  | .mxwrLong o => [hd true 0x75 ||| shortBits o.short, longBits o]
  | .mxalAlloc o => [hd false 0x76 ||| shortBits o]
  | .mxalAllocLong o => [hd true 0x76 ||| shortBits o.short, longBits o]
  | .mxalFree o => [hd true 0x76 ||| shortBits o.short, longBits o]
  | .mxep o => [hd false 0x77 ||| shortBits o]
  | .mxepLong o => [hd true 0x77 ||| shortBits o.short, longBits o]
  | .cpyL o => [hd false 0x78 ||| shortBits o]
  | .cpyLLong o => [hd true 0x78 ||| shortBits o.short, longBits o]
  | .cpyT o => [hd true 0x78 ||| shortBits o.short, longBits o]
  | .cpyX o => [hd true 0x78 ||| shortBits o.short, longBits o]
  | .cpyj o => [hd false 0x79 ||| shortBits o]
  | .cpyjLong o => [hd true 0x79 ||| shortBits o.short, longBits o]
  | .twaitAll o => [hd false 0x7A ||| shortBits o]
  | .twaitAllLong o => [hd true 0x7A ||| shortBits o.short, longBits o]
  | .twaitAny o => [hd true 0x7A ||| shortBits o.short, longBits o]
  | .twaitFind o => [hd true 0x7A ||| shortBits o.short, longBits o]
  | .lnch o => [hd false 0x7B ||| shortBits o]
  | .lnchLong o => [hd true 0x7B ||| shortBits o.short, longBits o]
  | .csrRd o => [hd false 0x7C ||| shortBits o]
  | .csrRdLong o => [hd true 0x7C ||| shortBits o.short, longBits o]
  | .csrWr o => [hd true 0x7C ||| shortBits o.short, longBits o]
  | .csrSet o => [hd true 0x7C ||| shortBits o.short, longBits o]
  | .csrClr o => [hd true 0x7C ||| shortBits o.short, longBits o]
  | .tret o => [hd false 0x7D ||| shortBits o]
  | .tretLong o => [hd true 0x7D ||| shortBits o.short, longBits o]
  | .rqaRd o => [hd false 0x7E ||| shortBits o]
  | .rqaRdLong o => [hd true 0x7E ||| shortBits o.short, longBits o]
  | .rqaWr o => [hd true 0x7E ||| shortBits o.short, longBits o]
  | .rqaDrop o => [hd true 0x7E ||| shortBits o.short, longBits o]
  | .clauseFetch => []
  | .schedReady256 _ _ => []
  | .schedReady1024 _ _ => []
  | .joinHintExpire _ => []
  | .registerCacheFill _ _ => []
  | .loadComplete _ _ => []
  | .storePerformed _ _ => []
  | .atomicPerformed _ _ => []
  | .writeVisible _ _ _ => []
  | .protectionRefusal _ _ => []
  | .pageWalk _ _ _ _ => []
  | .faultResolveRetry _ _ => []
  | .faultResolveRefuse _ _ => []
  | .faultResolveRetryAll _ => []
  | .faultRingConfig _ _ _ => []
  | .tlbInvProc _ _ => []
  | .tlbInvRange _ _ _ => []
  | .tlbInvAll _ => []
  | .tlbInvComplete _ => []
  | .compressedWriteMerge _ _ => []
  | .chunkGrant _ _ _ => []
  | .chunkTimeout _ _ => []
  | .rspillExtend _ _ => []
  | .spillTimeout _ _ => []
  | .cpsWritePerformed _ _ => []
  | .fifoOpPerformed _ _ => []
  | .copyAccepted _ _ => []
  | .copyDone _ => []
  | .cpyjDone _ => []
  | .twaitComplete _ _ => []
  | .matrixComplete _ _ => []
  | .accumSlotGrant _ _ => []
  | .binAccepted _ _ => []
  | .partialFlush _ => []
  | .marshalDeal _ _ => []
  | .visibilityResolve _ _ => []
  | .fragmentLaunch _ _ => []
  | .tileSpill _ _ => []
  | .tileKernelLaunch _ _ => []
  | .tileRetire _ _ => []
  | .blockAdmit _ _ => []
  | .balanceTick _ => []
  | .childRoomPreempt _ => []
  | .teamRetire _ => []
  | .powerOnReset => []
  | .bootGo => []
  | .bootImageLoaded => []
  | .doorbellWrite _ _ => []
  | .doorbellStop _ => []
  | .doorbellGo _ => []
  | .doorbellReset _ => []
  | .resetDone _ => []
  | .claimEntry _ _ => []
  | .depReevaluate _ => []
  | .packetNop _ => []
  | .packetKernel _ => []
  | .packetMass _ => []
  | .massReserved _ _ => []
  | .massCommitDeadline _ _ => []
  | .massStart _ _ => []
  | .packetRender _ => []
  | .packetTransform _ => []
  | .packetSignal _ => []
  | .packetWait _ => []
  | .packetBarrierAnd _ => []
  | .packetMarker _ => []
  | .packetComplete _ _ => []
  | .createQueue => []
  | .destroyQueue => []
  | .setFmt => []
  | .fwUpdate => []
  | .advanceRollback => []
  | .svcBadOp => []
  | .wdogKick _ _ => []
  | .wdogExpire _ _ => []
  | .bankCmdGo _ _ _ _ => []
  | .bankModeDone _ _ => []
  | .preemptGo _ _ _ => []
  | .preemptDone _ _ => []
  | .resumeGo _ _ _ => []
  | .handlerLimitExpire _ => []
  | .pfsArm _ _ => []
  | .pfsHit _ _ => []
  | .dbgStopGo _ _ _ => []
  | .dbgStopDone _ _ => []
  | .dbgStopResume _ _ _ => []
  | .singleStep _ => []
  | .erGo _ _ => []
  | .rrCap => []
  | .rrRun => []
  | .splCtlApply => []
  | .splitsTick _ => []
  | .eccCorrected _ _ => []
  | .eccUncorrectable _ _ => []
  | .patrolScrub _ _ => []
  | .linkDown _ _ => []
  | .powerStateEnter _ _ => []
  | .powerStateWake _ => []
  | .arbiterUpdate _ _ => []
  | .limiterThrottle _ => []
  | .arbiterFallback _ => []
  | .pwrLimitWrite _ => []
  | .thermalThrottle _ => []
  | .thermalTrip _ => []
  | .partWrite _ _ => []
  | .hostMemoryAccess _ _ _ _ => []
  | .relayAccess _ _ _ _ => []
  | .registerWrite _ _ => []
  | .fullPowerDown _ => []
  | .relayLinkTrain _ _ => []
  | .faultRiWrite _ _ => []
  | .fenceComplete _ _ => []
  | .cctlComplete _ _ => []
  | .prefAccepted _ _ => []
  | .tileqComplete _ _ => []

/-- The instruction that stands in the words W0 and W1; W1 is looked at only when W0 has L = 1 (R114). -/
noncomputable def decodeWords (w0 w1 : Word) : Except Reject Instr :=
  match (if bit w0 31 then decodeLong w0 w1 else decodeShort w0) with
  | some i => .ok i
  | none => .error .reserved

/-- Decoding from bytes: the instruction and the bytes after it. Words are little-endian (R114). -/
noncomputable def decodeBytes : List Byte → Except Reject (Instr × List Byte)
  | b0 :: b1 :: b2 :: b3 :: rest =>
    let w0 : Word := BitVec.ofNat 32 (ofLeBytes [b0, b1, b2, b3])
    if bit w0 31 then
      match rest with
      | c0 :: c1 :: c2 :: c3 :: rest' =>
        (decodeWords w0 (BitVec.ofNat 32 (ofLeBytes [c0, c1, c2, c3]))).map (fun i => (i, rest'))
      | _ => .error .short
    else (decodeWords w0 0).map (fun i => (i, rest))
  | _ => .error .short

/-- The bytes of an instruction as they lie in memory (R114). -/
def encodeBytes (i : Instr) : List Byte := (encode i).flatMap (fun w => leBytes 4 w.toNat)

/-- What the decoder reads from an instruction whose bits are w, numbered as the opcode table numbers them: bit 0 is the
least significant bit of W0 and W1 counts on from bit 32; bits above nbits are zero. -/
noncomputable def decodeTableWord (nbits w : Nat) : Option Instr :=
  match decodeBytes (leBytes 8 (w % 2 ^ nbits)) with
  | .ok (i, _) => some i
  | .error _ => none

end Sys2Proof
end

