-- ==== Sys2Proof/Machine/Replay.lean ====
section
/-!
DEFINITION. Machine/Replay: engine replay (R432): the records of a core's engine log run again.
-/

namespace Sys2Proof.Machine

/-- The team that a record stands for: process, width and privilege from the record, its block the one in the slot it names. -/
def recTeam (s : State) (d c : Nat) (bs : List Byte) : Team × Bool :=
  let w := fieldAt bs 12 4
  let blk := match s.blockIn d c (w / 256 % 256) with | some b => b.id | none => 0
  ({ Team.reset with die := d, core := c, proc := fieldAt bs 24 8 % 2 ^ 16, width := w % 256, block := blk }, decide (w / 2 ^ 16 % 2 = 1))

/-- The entry that a record stands for. -/
def recEntry (t : Team) (priv : Bool) (bs : List Byte) : Entry :=
  let w := fun o => BitVec.ofNat 32 (fieldAt bs o 4)
  { order := 0, w0 := w 0, w1 := w 4, pfxw := w 8, fla := 15, flb := 15, pc := BitVec.ofNat 57 (fieldAt bs 16 8), hdr := 0,
    lmask := fullMask t.width, progress := 0, dropped := false, final := false, faulted := false, work := .bin, tgt := [], busy := [],
    sbusy := [], addr := [], data := [], cap := (bs.drop 0x40).take 448, gmask := fullMask t.width, emask := fullMask t.width, priv := priv, waits := [],
    refused := 0, refAddr := 0, refCause := 0, kept := [] }

/-- The register form of a record's words: a one-word form has the default type of its OP (R115, R141). -/
def recReg (w0 w1 : Word) : Reg :=
  let op := bitsN w0 24 7
  if bit w0 31 then Reg.ofLong (longOf w0 w1) else Reg.ofShort (if op = 0x72 ∨ op = 0x73 then 2 else 0) (shortOf w0)

/-- The tile saved in a record. -/
def recTile (bs : List Byte) : List (Nat × Word) :=
  (List.range 8192).filterMap (fun i =>
    let w := BitVec.ofNat 32 (fieldAt bs (4 * i) 4)
    if w = 0 then none else some (i, w))

/-- The A values of a record, in latch-store layout. -/
def recVals (bs : List Byte) (n : Nat) : List Word :=
  if fieldAt bs 0 1 = 1 then (List.range n).map (fun i => BitVec.ofNat 32 (fieldAt bs (16 + 4 * i) 4)) else Config.latchRead bs

/-- A replayed matrix instruction: MXA, MXZ, MXLD, MXEP. It reads memory as it stands. -/
def replayMx (s : State) (t : Team) (e : Entry) (op : Nat) (r : Reg) (tile : List (Nat × Word)) (avals : List Byte) : Mx :=
  let g := engOf t e.priv
  let kept := e.cap.getD 0x64 0
  let run := mxaRun t.width r * t.width
  let z : Mx := { s := { s with mxOld := [] }, team := 0, order := 0, acc := tile, vals := [], done := 0, kept := [], halt := none }
  match op with
  | 0x70 =>
    let held := bit kept 0 || r.asrc
    ({ z with vals := if held then recVals avals run else [] }).mxa g
      { m := dimM r.x, n := dimN r.x, c := r.c, neg := r.xb 4, kept := held, asrc := r.asrc, bf := bit e.w0 6, w := max 1 t.width,
        a := e.view false true .f16, b := e.view true true .f16 } false
  | 0x71 => { z with acc := fillRows z.acc 0 128 64 (fun _ _ => 0), done := 128 }
  | 0x72 => z.mxld g (e.view false false (kindOfType r.t false)) (dimM r.x) (dimN r.x)
  | _ => z.mxep g (e.rnd fmtF32) r.x r.c (fieldAt e.cap 0x60 4)

/-- A replayed copy, with its captured descriptor, `bad` when it captured none: its state afterwards and its status; what it waits for else. -/
def State.replayCopy (s : State) (t : Team) (e : Entry) (sub : Nat) (r : Reg) (bad : Bool) : Except Halt (State × Nat) :=
  let j := jobOf s.nextId t e sub r.d r.x
  match ({ s with nextId := s.nextId + 1 } : State).runJob { j with misdesc := bad, core := t.core } with
  | .wait _ h => .error h
  | .done s st => .ok (s, st)

/-- What halted a replay: a page fault or held data stops it; a refusal, one that the driver gave a page fault of it among them, is entered in the
violation log and leaves the record without a result (R402, R405). -/
def State.replayHalt (s : State) (t : Team) (pc : Nat) (h : Halt) : Except State State :=
  let refused := fun (va cause k : Nat) => s.logViolation t.die t.core va pc t.proc cause k 2 0
  match h with
  | .fault va lv k => if s.devRefused.contains (t.die, t.proc, pageOf va) then .ok (refused va 10 k) else .error (s.devFault t.die t.core t.proc va k lv 2)
  | .hold => .error s
  | .refuse va cause k => .ok (refused va cause k)

/-- A result written into a record. -/
def State.replayWrite (s : State) (d c p va : Nat) (out : List Byte) : Except State State :=
  match s.writeVirt d c p true va out with
  | .ok s => .ok s
  | .fault va lv => .error (s.devFault d c p va kindWrite lv 2)
  | .refuse va cause => .ok (s.logViolation d c va 0 p cause kindWrite 2 0)

/-- One record replayed; a page fault is recorded and the replay goes on from the start when it is resolved. -/
def State.replayOne (s : State) (d c p n : Nat) : Except State State :=
  let base := ((s.core d c).reg 0x504).toNat + erSize * n
  match s.readVirt d c p true base 0x18400 with
  | .fault va lv => .error (s.devFault d c p va kindRead lv 2)
  | .refuse va cause => .ok (s.logViolation d c va 0 p cause kindRead 2 0)
  | .ok bs =>
    let tp := recTeam s d c bs
    let t := tp.1
    let e := recEntry t tp.2 bs
    let op := bitsN e.w0 24 7
    let r := recReg e.w0 e.w1
    if op = 0x70 ∨ op = 0x71 ∨ op = 0x72 ∨ op = 0x77 then
      let z := replayMx s t e op r (recTile ((bs.drop 0x10400).take 32768)) ((bs.drop 0x200).take 65552)
      (match z.halt with
       | some h => s.replayHalt t e.pc.toNat h
       | none => ({ z.s with mxOld := s.mxOld } : State).replayWrite d c p (base + 0x18400) (tileImage z.acc))
    else if op = 0x78 ∨ op = 0x79 then
      (match s.replayCopy t e (if op = 0x79 then 3 else r.xf 0 2) r (bit (bs.getD 14 0) 1) with
       | .error h => s.replayHalt t e.pc.toNat h
       | .ok (s, st) => s.replayWrite d c p (base + 0x18400) [BitVec.ofNat 8 st])
    else .ok s

/-- ER_GO: with every partition of the core stopped, records FIRST to FIRST + COUNT − 1 run again and BUSY falls (R432). -/
def execErGo (die core : Nat) (s : State) : Res :=
  let k := s.core die core
  let ctl := k.reg 0x503
  .next (
    if !bit ctl 2 then s
    else
      let p := match s.allTeams.find? (fun t => decide (t.die = die ∧ t.core = core) && !t.agent) with | some t => t.proc | none => 0
      match (List.range (bitsN ctl 16 24)).foldl (fun (a : Except State State) i =>
        match a with
        | .ok s => s.replayOne die core p (bitsN ctl 40 24 + i)
        | e => e) (.ok s) with
      | .error s => s
      | .ok s => s.setCore die core ((s.core die core).setReg 0x503 ((s.core die core).reg 0x503 &&& 0xFFFFFFFFFFFFFFFB)))

end Sys2Proof.Machine
end

