-- ==== Sys2Proof/Machine/Retire.lean ====
section
/-!
DEFINITION. Machine/Retire: retirement of teams, blocks and grids (R20, R26, R27, R101), and the bank changes that a waiting
admission needs (R294, R389).
-/

namespace Sys2Proof.Machine

/-- A team may retire (R20). -/
def Team.mayRetire (t : Team) : Bool :=
  !t.agent && decide (t.live = 0) && t.entries.isEmpty && t.flags.all (fun f => decide (f = 0)) &&
    (match t.frame with | some f => f.flags.all (fun f => decide (f = 0)) | none => true) && t.pend.isNone && decide (t.run = .running)

/-- A grid that a grid launched is still there (R26). -/
def State.hasChildren (s : State) (lseq : Nat) : Bool :=
  s.grids.any (fun g => match g.origin with | .child p _ _ _ => decide (p = lseq) | _ => false)

/-- The launching team's flags count one child fewer; its core acquires the child's effects (R27). -/
def State.childDone (s : State) (team lseq : Nat) : State :=
  match s.team team with
  | none => s
  | some t =>
    match t.kids.find? (fun k => decide (k.lseq = lseq)) with
    | none => s
    | some k =>
      let t := (t.decFlags k.fla k.flb k.held)
      (s.setTeam { t with kids := t.kids.filter (fun x => decide (x.lseq ≠ lseq)) }).acquire 5 t.die t.core

/-- The fragment team of a block marked retired (R330). -/
def State.fragRetired (s : State) (pass tile blk : Nat) : State :=
  match s.pass pass with
  | none => s
  | some p =>
    match p.tileAt tile with
    | none => s
    | some y => s.setPass (p.putTile { y with frags := y.frags.map (fun f => if f.launched ∧ f.block = blk then { f with retired := true } else f) })

/-- A flush write on account of a grid's completion still waits at a controller (R101, R306). -/
def State.gridHeld (s : State) (lseq : Nat) : Bool :=
  s.dies.any (fun (p : Nat × Die) => p.2.ctls.any (fun (c : Ctl) => c.held.any (fun h => decide (h.team = 0 ∧ h.grid = lseq))))

/-- A grid may retire: its blocks and its descendants have, and no flush write of it waits (R20, R26, R101). -/
def State.gridDone (s : State) (g : Grid) : Bool := decide (g.left = 0) && !s.hasChildren g.lseq && !s.gridHeld g.lseq

/-- A grid that may retire: its sums are flushed, and once those writes are performed its completion is signalled, everything that happens
before it made visible at .dv (R20, R26, R27, R94, R101); every access of a fragment happens before its tile kernel (R330). -/
def State.retireGrid (s : State) (g : Grid) : State :=
  let s := s.flushReds none 0 0 0 g.lseq (fun r => r.grids.contains g.lseq)
  if s.gridHeld g.lseq then s
  else
    let s := { s with grids := s.grids.filter (fun h => decide (h.lseq ≠ g.lseq)) }
    match g.origin with
    | .child _ t _ _ => s.publishAll.childDone t g.lseq
    | .fragment p tile => s.publishAll.fragRetired p tile (g.lseq - 2 ^ 64)
    | _ => s

/-- Every grid that may retire; fuel counts grids. -/
def State.retireGrids (s : State) : Nat → State
  | 0 => s
  | n + 1 =>
    match s.grids.find? s.gridDone with
    | some g => (s.retireGrid g).retireGrids n
    | none => s

/-- A block may retire: no team is left, no tile is busy and every copy is complete (R20). -/
def State.blockDone (s : State) (b : Block) : Bool :=
  decide (b.run = .resident) && (s.teamsOf b.id).isEmpty && !b.acc.any (fun a => a.busy) && !b.tags.any (fun t => t.busy)

/-- A block that may retire releases its resources; its grid follows when it was the last (R20). Retirement makes no write of its threads
mx-ready (R96). -/
def State.retireBlock (s : State) (id : Nat) : State :=
  match s.block id with
  | none => s
  | some b =>
    if !s.blockDone b then s
    else
      let s := s.freeBanks b.die b.core [id]
      let s := { s with blocks := s.blocks.filter (fun x => decide (x.id ≠ id)),
                        tmems := if b.tmem = id then tabDel s.tmems id else s.tmems,
                        mxOld := s.mxOld.filter (fun o => !(decide (o.place.space ≠ 0) && decide (o.place.owner = id))) }
      let s := { s with grids := s.grids.map (fun (g : Grid) => if g.lseq = b.grid then { g with left := g.left - 1 } else g) }
      s.retireGrids s.grids.length

/-- TEAM_RETIRE: a team whose threads have exited and whose work is complete retires, its register lines written back; the retirement waits
while a page of its image faults, and a refused one contains the process; its block and grid follow when they can (R20, R46, R408). -/
def execTeamRetire (team : Nat) (s : State) : Res :=
  .next (
    match s.team team with
    | none => s
    | some t =>
      if !t.mayRetire then s
      else
        (match s.writeImage t with
         | .fault va lv => s.devFault t.die t.core t.proc va kindWrite lv 0
         | .refuse va c => s.refusedTeam t va c kindWrite
         | .ok s =>
           let s := { s with
             me := if s.me.id = team then Team.reset else s.me
             grp := if s.me.id = team then 0 else s.grp
             teams := s.teams.filter (fun u => decide (u.id ≠ team))
             blocks := s.blocks.map (fun (b : Block) => if b.id = t.block then { b with past := b.past ++ [(t.index, t.threads.map (fun (th : Thread) => th.last))] } else b) }
           s.retireBlock t.block))

/-- The bank change that the entry at the head of a core's queue waits for (R294, R389). -/
def State.bankWant (s : State) (d c : Nat) : Option (Nat × Nat) :=
  let k := s.core d c
  match k.queue with
  | [] => none
  | e :: _ =>
    match s.grid e.grid with
    | none => none
    | some g =>
      s.bankChange d c (ceilDiv g.kd.scratch 256) (g.kd.tmem / 8192) g.kd.fifo

end Sys2Proof.Machine
end

