-- ==== Sys2Proof/Machine/System.lean ====
section
/-!
DEFINITION. Machine/System: CSR (R278, R279, R409), TRET (R280, R416) and RQA (R281, R413).
-/

namespace Sys2Proof.Machine

/-- A SYS instruction (R256): the checks of R123, convergence under R31, then its lanes. -/
def State.issueSys (s : State) (F : Form) (r : Reg) (body : State → Mask → List (List Nat) → Out) : Res :=
  s.issueFit F r (s.me.converged s.grp) 0x05 body

/-! ## CSR (R278) -/

/-- Number of a CSR: B holds [7:0], C [15:8]. -/
def Reg.csrNum (r : Reg) : Nat := r.b + 256 * r.c

/-- A number that some chapter assigns, with the width the instruction asks for (R278, R279, R409). -/
def csrOk (n : Nat) (b64 : Bool) : Bool :=
  if n < 0x100 then (if b64 then decide (2 ≤ n ∧ n ≤ 6) else decide (n ≤ 1))
  else if b64 then wideCsr n else narrowCsr n

/-- Fields of CSR: sub-op 0 rd, 1 wr, 2 set, 3 clr; .b64 in X[2]. -/
def formCsr (sub : Nat) (r : Reg) : Form :=
  let k := if r.xb 2 then Fld.spairOpt else Fld.scalarOpt
  { cls := 6, d := k, a := k, b := .any, c := .any
    x := decide (r.xf 0 2 = sub) && decide (r.xf 3 5 = 0) && csrOk r.csrNum (r.xb 2) && (decide (sub ≠ 0) || decide (r.a = 31)) }

/-- A CSR of the issuing team or of its core, die or device read. -/
def State.readCsr (s : State) (n : Nat) : DWord :=
  let t := s.me
  match n with
  | 0 => t.trapEn.zeroExtend 64
  | 1 => t.sticky.zeroExtend 64
  | 2 => t.handler
  | 3 => t.frameVa
  | 4 => t.scratch0
  | 5 => t.scratch1
  | 6 => t.bsave
  | _ => s.csrRead t.die t.core n

/-- A CSR written: `v` for RW and WO fields, `w` the ones that clear W1C bits (R5, R52). -/
def State.writeCsr (s : State) (n : Nat) (v w : DWord) : State :=
  let t := s.me
  match n with
  | 0 => { s with me := { t with trapEn := bits v 0 32 &&& 0x3F } }
  | 1 => { s with me := { t with sticky := t.sticky &&& ~~~ (bits w 0 32) } }
  | 2 => { s with me := { t with handler := v } }
  | 3 => s
  | 4 => { s with me := { t with scratch0 := v } }
  | 5 => { s with me := { t with scratch1 := v } }
  | 6 => s
  | _ => s.csrWrite t.die t.core n v w

/-- CSR: old, the value computed and written, and sD ← old. -/
def csrBody (sub : Nat) (r : Reg) (s : State) (e : Mask) (_tg : List (List Nat)) : Out :=
  let t := s.me
  let b64 := r.xb 2
  let regs := fun (i : Nat) => if i = 31 then [] else if b64 then [i, i + 1] else [i]
  if t.scalarsBusy (regs r.a ++ regs r.d) then .wait
  else if (regs r.a).any (fun i => (t.sreg i).pois) then .trap 0x08 e 0 0 0
  else
    let x : DWord := if r.a = 31 then 0 else if b64 then t.spair r.a else (t.sreg r.a).val.zeroExtend 64
    let old := s.readCsr r.csrNum
    let s := match sub with
      | 1 => s.writeCsr r.csrNum x x
      | 2 => s.writeCsr r.csrNum (old ||| x) x
      | 3 => s.writeCsr r.csrNum (old &&& ~~~ x) 0
      | _ => s
    if r.d = 31 then .go s
    else if b64 then .go { s with me := s.me.setSpair r.d old false }
    else .go { s with me := s.me.setSreg r.d (Elem.ofWord (bits old 0 32)) }

/-- CSR.rd. -/
def execCsrRd (o : ShortOps) (s : State) : Res := let r := Reg.ofShort 0 o; s.issueSys (formCsr 0 r) r (csrBody 0 r)
/-- CSR.rd, long form. -/
def execCsrRdLong (o : LongOps) (s : State) : Res := let r := Reg.ofLong o; s.issueSys (formCsr 0 r) r (csrBody 0 r)
/-- CSR.wr. -/
def execCsrWr (o : LongOps) (s : State) : Res := let r := Reg.ofLong o; s.issueSys (formCsr 1 r) r (csrBody 1 r)
/-- CSR.set. -/
def execCsrSet (o : LongOps) (s : State) : Res := let r := Reg.ofLong o; s.issueSys (formCsr 2 r) r (csrBody 2 r)
/-- CSR.clr. -/
def execCsrClr (o : LongOps) (s : State) : Res := let r := Reg.ofLong o; s.issueSys (formCsr 3 r) r (csrBody 3 r)

/-! ## TRET (R280, R416) -/

/-- Fields of TRET: last in its clause, and in no agent (R277, R280). -/
def formTret (c : Ctx) (agent : Bool) (r : Reg) : Form := { cls := 6, x := decide (r.x = 0) && c.last && !agent }

/-- TRET: when the handler's operations have completed, the child grids that it launched among them, the frame's values are restored and
privileged mode is left (R27, R280). -/
def tretBody (s : State) (_e : Mask) (_tg : List (List Nat)) : Out :=
  let t := s.me
  match t.frame with
  | none => .trap 0x01 s.grp 0 0 0
  | some f =>
    if (t.entries.drop t.suspended).any (fun x => !x.dropped) ∨ t.kids.any (fun k => !k.held) then .wait
    else match (s.releaseBy 5 t s.grp).restore t f false f.pcls 0 with
      | .ok s => .jump s
      | .fault va lv => .jump (s.frameHalt va lv kindRead)
      | .refuse va c => .jump (s.refusedTeam t va c kindRead)

/-- TRET. -/
def execTret (o : ShortOps) (s : State) : Res := let r := Reg.ofShort 0 o; s.issueSys (formTret s.ctx s.me.agent r) r tretBody
/-- TRET, long form. -/
def execTretLong (o : LongOps) (s : State) : Res := let r := Reg.ofLong o; s.issueSys (formTret s.ctx s.me.agent r) r tretBody

/-! ## RQA (R281, R413) -/

/-- Fields of RQA: sub-op 0 rd, 1 wr, 2 drop; word 0 to 15; in no agent. -/
def formRqa (sub : Nat) (agent : Bool) (r : Reg) : Form :=
  { cls := 6, d := if sub = 0 then .num 24 else .zero, a := .num 24, b := if sub = 2 then .zero else .num 16, c := if sub = 1 then .num 24 else .zero
    x := decide (r.x = sub) && !agent }

/-- The i-th entry of the team's replay queue. -/
def State.rqEntry (s : State) (i : Nat) : Option Entry := (s.me.entries.take s.me.suspended)[i]?

/-- Units of work of a matrix entry (R252). -/
def Work.units : Work → Nat
  | .matrix op x _ c _ => if op = 0x70 then c + 1 else if op = 0x72 ∨ op = 0x73 then 32 * 2 ^ (x % 4) else 128
  | _ => 0

/-- An entry with lanes taken out of LMASK; a lane that a BIN no longer offers gets no result (R275, R413). -/
def Entry.cutLanes (e : Entry) (keep : Mask) : Entry :=
  { e with lmask := e.lmask &&& keep, emask := if e.work = .bin then e.emask &&& ~~~(e.lmask &&& ~~~keep) else e.emask }

/-- A word of an entry as RQA.wr leaves it (R413). -/
def Entry.rqWrite (e : Entry) (w : Nat) (v : Word) : Entry :=
  match w with
  | 3 => if e.dropped ∧ !e.final ∧ !bit v 0 then { e with dropped := false, refused := 0 } else e
  | 8 => e.cutLanes (bits e.lmask 32 32 ++ v)
  | 9 => e.cutLanes (v ++ bits e.lmask 0 32)
  | 10 => if v.toNat < e.work.units then { e with progress := v } else e
  | _ => e

/-- The copy of an entry in the frame area written beside the device's own; a page of it may fault. -/
def State.rqPut (s : State) (i : Nat) (e : Entry) : Out :=
  let t := s.me
  match s.writePieces t t.frameVa.toNat [(0x480 + 64 * i, entryBytes e (t.frameVa.toNat + captureOff t.width i))] with
  | .ok s => .go { s with me := s.me.setEntry e }
  | .fault va lv => .jump (s.frameHalt va lv kindWrite)
  | .refuse va c => .jump (s.refusedTeam t va c kindWrite)

/-- RQA. -/
def rqaBody (sub : Nat) (r : Reg) (s : State) (e : Mask) (_tg : List (List Nat)) : Out :=
  let t := s.me
  let regs := [r.a] ++ (if sub = 0 then [r.d] else []) ++ (if sub = 1 then [r.c] else [])
  if t.scalarsBusy regs then .wait
  else if (t.sreg r.a).pois || (decide (sub = 1) && (t.sreg r.c).pois) then .trap 0x08 e 0 0 0
  else
    let i := (t.sreg r.a).val.toNat
    match s.rqEntry i with
    | none => .trap 0x01 s.grp 0 0 0
    | some x =>
      match sub with
      | 0 =>
        let v := fieldAt (entryBytes x (t.frameVa.toNat + captureOff t.width i)) (4 * r.b) 4
        .go { s with me := t.setSreg r.d (Elem.ofWord (BitVec.ofNat 32 v)) }
      | 1 => s.rqPut i (x.rqWrite r.b (t.sreg r.c).val)
      | _ =>
        if x.final then .go s
        else
          match s.rqPut i { x with dropped := true, final := true } with
          | .go s =>
            let s := s.dropSide t x
            .go { s with me := s.me.decFlags x.fla x.flb true }
          | o => o

/-- RQA.rd. -/
def execRqaRd (o : ShortOps) (s : State) : Res := let r := Reg.ofShort 0 o; s.issueSys (formRqa 0 s.me.agent r) r (rqaBody 0 r)
/-- RQA.rd, long form. -/
def execRqaRdLong (o : LongOps) (s : State) : Res := let r := Reg.ofLong o; s.issueSys (formRqa 0 s.me.agent r) r (rqaBody 0 r)
/-- RQA.wr. -/
def execRqaWr (o : LongOps) (s : State) : Res := let r := Reg.ofLong o; s.issueSys (formRqa 1 s.me.agent r) r (rqaBody 1 r)
/-- RQA.drop. -/
def execRqaDrop (o : LongOps) (s : State) : Res := let r := Reg.ofLong o; s.issueSys (formRqa 2 s.me.agent r) r (rqaBody 2 r)

end Sys2Proof.Machine
end

