-- ==== Sys2Proof/Machine/Dispatch.lean ====
section
/-!
DEFINITION. Machine/Dispatch: one arm for each row of the opcode table, each one call of the instruction's meaning.
-/

namespace Sys2Proof.Machine

/-- What an instruction, or a step of another agent, does to the machine. -/
def exec (i : Instr) (s : State) : Host.Outcome State Fault Refusal :=
  match i with
  | .nop z => Sys2Proof.Machine.execNop z s
  | .nopLong z w1 => Sys2Proof.Machine.execNopLong z w1 s
  | .bra off => Sys2Proof.Machine.execBra off s
  | .braLong z w1 => Sys2Proof.Machine.execBraLong z w1 s
  | .brc p neg off => Sys2Proof.Machine.execBrc p neg off s
  | .brcLong p neg z w1 => Sys2Proof.Machine.execBrcLong p neg z w1 s
  | .brs sr cc off => Sys2Proof.Machine.execBrs sr cc off s
  | .brsLong sr cc z w1 => Sys2Proof.Machine.execBrsLong sr cc z w1 s
  | .call off => Sys2Proof.Machine.execCall off s
  | .callLong z w1 => Sys2Proof.Machine.execCallLong z w1 s
  | .ret o => Sys2Proof.Machine.execRet o s
  | .retLong o => Sys2Proof.Machine.execRetLong o s
  | .jmpi o => Sys2Proof.Machine.execJmpi o s
  | .jmpiLong o => Sys2Proof.Machine.execJmpiLong o s
  | .exit o => Sys2Proof.Machine.execExit o s
  | .exitLong o => Sys2Proof.Machine.execExitLong o s
  | .trap o => Sys2Proof.Machine.execTrap o s
  | .trapLong o => Sys2Proof.Machine.execTrapLong o s
  | .brk o => Sys2Proof.Machine.execBrk o s
  | .brkLong o => Sys2Proof.Machine.execBrkLong o s
  | .yield o => Sys2Proof.Machine.execYield o s
  | .yieldLong o => Sys2Proof.Machine.execYieldLong o s
  | .join o => Sys2Proof.Machine.execJoin o s
  | .joinLong o => Sys2Proof.Machine.execJoinLong o s
  | .leave o => Sys2Proof.Machine.execLeave o s
  | .leaveLong o => Sys2Proof.Machine.execLeaveLong o s
  | .waitm o => Sys2Proof.Machine.execWaitm o s
  | .waitmLong o => Sys2Proof.Machine.execWaitmLong o s
  | .msetG o => Sys2Proof.Machine.execMsetG o s
  | .msetGLong o => Sys2Proof.Machine.execMsetGLong o s
  | .msetS o => Sys2Proof.Machine.execMsetS o s
  | .msetZ o => Sys2Proof.Machine.execMsetZ o s
  | .mgetS o => Sys2Proof.Machine.execMgetS o s
  | .mgetSLong o => Sys2Proof.Machine.execMgetSLong o s
  | .mgetV o => Sys2Proof.Machine.execMgetV o s
  | .census o => Sys2Proof.Machine.execCensus o s
  | .censusLong o => Sys2Proof.Machine.execCensusLong o s
  | .matchV o => Sys2Proof.Machine.execMatchV o s
  | .matchVLong o => Sys2Proof.Machine.execMatchVLong o s
  | .peek o => Sys2Proof.Machine.execPeek o s
  | .peekLong o => Sys2Proof.Machine.execPeekLong o s
  | .lane o => Sys2Proof.Machine.execLane o s
  | .laneLong o => Sys2Proof.Machine.execLaneLong o s
  | .pset o => Sys2Proof.Machine.execPset o s
  | .psetLong o => Sys2Proof.Machine.execPsetLong o s
  | .plop o => Sys2Proof.Machine.execPlop o s
  | .plopLong o => Sys2Proof.Machine.execPlopLong o s
  | .xset o => Sys2Proof.Machine.execXset o s
  | .xsetLong o => Sys2Proof.Machine.execXsetLong o s
  | .xget o => Sys2Proof.Machine.execXget o s
  | .xgetLong o => Sys2Proof.Machine.execXgetLong o s
  | .xadd o => Sys2Proof.Machine.execXadd o s
  | .xaddLong o => Sys2Proof.Machine.execXaddLong o s
  | .sadd o => Sys2Proof.Machine.execSadd o s
  | .saddLong o w1 => Sys2Proof.Machine.execSaddLong o w1 s
  | .ssub o => Sys2Proof.Machine.execSsub o s
  | .ssubLong o w1 => Sys2Proof.Machine.execSsubLong o w1 s
  | .smul o => Sys2Proof.Machine.execSmul o s
  | .smulLong o w1 => Sys2Proof.Machine.execSmulLong o w1 s
  | .sand o => Sys2Proof.Machine.execSand o s
  | .sandLong o w1 => Sys2Proof.Machine.execSandLong o w1 s
  | .sor o => Sys2Proof.Machine.execSor o s
  | .sorLong o w1 => Sys2Proof.Machine.execSorLong o w1 s
  | .sxor o => Sys2Proof.Machine.execSxor o s
  | .sxorLong o w1 => Sys2Proof.Machine.execSxorLong o w1 s
  | .sshl o => Sys2Proof.Machine.execSshl o s
  | .sshlLong o w1 => Sys2Proof.Machine.execSshlLong o w1 s
  | .sshr o => Sys2Proof.Machine.execSshr o s
  | .sshrLong o w1 => Sys2Proof.Machine.execSshrLong o w1 s
  | .ssar o => Sys2Proof.Machine.execSsar o s
  | .ssarLong o w1 => Sys2Proof.Machine.execSsarLong o w1 s
  | .smin o => Sys2Proof.Machine.execSmin o s
  | .sminLong o w1 => Sys2Proof.Machine.execSminLong o w1 s
  | .smax o => Sys2Proof.Machine.execSmax o s
  | .smaxLong o w1 => Sys2Proof.Machine.execSmaxLong o w1 s
  | .smov o => Sys2Proof.Machine.execSmov o s
  | .scmp o => Sys2Proof.Machine.execScmp o s
  | .ssel o => Sys2Proof.Machine.execSsel o s
  | .smovi sd z imm => Sys2Proof.Machine.execSmovi sd z imm s
  | .smoviLong sd z w1 => Sys2Proof.Machine.execSmoviLong sd z w1 s
  | .sld o => Sys2Proof.Machine.execSld o s
  | .sldLong o w1 => Sys2Proof.Machine.execSldLong o w1 s
  | .sst o => Sys2Proof.Machine.execSst o s
  | .sstLong o w1 => Sys2Proof.Machine.execSstLong o w1 s
  | .ssys sd sa sb sel z => Sys2Proof.Machine.execSsys sd sa sb sel z s
  | .pfx rnd sat z => Sys2Proof.Machine.execPfx rnd sat z s
  | .iadd o => Sys2Proof.Machine.execIadd o s
  | .iaddLong o => Sys2Proof.Machine.execIaddLong o s
  | .isub o => Sys2Proof.Machine.execIsub o s
  | .isubLong o => Sys2Proof.Machine.execIsubLong o s
  | .imul o => Sys2Proof.Machine.execImul o s
  | .imulLong o => Sys2Proof.Machine.execImulLong o s
  | .imulh o => Sys2Proof.Machine.execImulh o s
  | .imulhLong o => Sys2Proof.Machine.execImulhLong o s
  | .imad o => Sys2Proof.Machine.execImad o s
  | .imadLong o => Sys2Proof.Machine.execImadLong o s
  | .imin o => Sys2Proof.Machine.execImin o s
  | .iminLong o => Sys2Proof.Machine.execIminLong o s
  | .imax o => Sys2Proof.Machine.execImax o s
  | .imaxLong o => Sys2Proof.Machine.execImaxLong o s
  | .iabs o => Sys2Proof.Machine.execIabs o s
  | .iabsLong o => Sys2Proof.Machine.execIabsLong o s
  | .and o => Sys2Proof.Machine.execAnd o s
  | .andLong o => Sys2Proof.Machine.execAndLong o s
  | .or o => Sys2Proof.Machine.execOr o s
  | .orLong o => Sys2Proof.Machine.execOrLong o s
  | .xor o => Sys2Proof.Machine.execXor o s
  | .xorLong o => Sys2Proof.Machine.execXorLong o s
  | .shl o => Sys2Proof.Machine.execShl o s
  | .shlLong o => Sys2Proof.Machine.execShlLong o s
  | .shr o => Sys2Proof.Machine.execShr o s
  | .shrLong o => Sys2Proof.Machine.execShrLong o s
  | .sar o => Sys2Proof.Machine.execSar o s
  | .sarLong o => Sys2Proof.Machine.execSarLong o s
  | .popc o => Sys2Proof.Machine.execPopc o s
  | .popcLong o => Sys2Proof.Machine.execPopcLong o s
  | .clz o => Sys2Proof.Machine.execClz o s
  | .clzLong o => Sys2Proof.Machine.execClzLong o s
  | .bfe o => Sys2Proof.Machine.execBfe o s
  | .bfeLong o => Sys2Proof.Machine.execBfeLong o s
  | .bfi o => Sys2Proof.Machine.execBfi o s
  | .bfiLong o => Sys2Proof.Machine.execBfiLong o s
  | .bmix o => Sys2Proof.Machine.execBmix o s
  | .bmixLong o => Sys2Proof.Machine.execBmixLong o s
  | .sel o => Sys2Proof.Machine.execSel o s
  | .selLong o => Sys2Proof.Machine.execSelLong o s
  | .mov o => Sys2Proof.Machine.execMov o s
  | .movLong o => Sys2Proof.Machine.execMovLong o s
  | .movS o => Sys2Proof.Machine.execMovS o s
  | .movi d imm => Sys2Proof.Machine.execMovi d imm s
  | .moviLong d z w1 => Sys2Proof.Machine.execMoviLong d z w1 s
  | .cmp o => Sys2Proof.Machine.execCmp o s
  | .cmpLong o => Sys2Proof.Machine.execCmpLong o s
  | .dot4 o => Sys2Proof.Machine.execDot4 o s
  | .dot4Long o => Sys2Proof.Machine.execDot4Long o s
  | .lea o => Sys2Proof.Machine.execLea o s
  | .leaLong o => Sys2Proof.Machine.execLeaLong o s
  | .iadd3 o => Sys2Proof.Machine.execIadd3 o s
  | .iadd3Long o => Sys2Proof.Machine.execIadd3Long o s
  | .brev o => Sys2Proof.Machine.execBrev o s
  | .brevLong o => Sys2Proof.Machine.execBrevLong o s
  | .fadd o => Sys2Proof.Machine.execFadd o s
  | .faddLong o => Sys2Proof.Machine.execFaddLong o s
  | .fsub o => Sys2Proof.Machine.execFsub o s
  | .fsubLong o => Sys2Proof.Machine.execFsubLong o s
  | .fmul o => Sys2Proof.Machine.execFmul o s
  | .fmulLong o => Sys2Proof.Machine.execFmulLong o s
  | .ffma o => Sys2Proof.Machine.execFfma o s
  | .ffmaLong o => Sys2Proof.Machine.execFfmaLong o s
  | .fmin o => Sys2Proof.Machine.execFmin o s
  | .fminLong o => Sys2Proof.Machine.execFminLong o s
  | .fmax o => Sys2Proof.Machine.execFmax o s
  | .fmaxLong o => Sys2Proof.Machine.execFmaxLong o s
  | .fcvt o => Sys2Proof.Machine.execFcvt o s
  | .fcvtLong o => Sys2Proof.Machine.execFcvtLong o s
  | .i2f o => Sys2Proof.Machine.execI2f o s
  | .i2fLong o => Sys2Proof.Machine.execI2fLong o s
  | .f2i o => Sys2Proof.Machine.execF2i o s
  | .f2iLong o => Sys2Proof.Machine.execF2iLong o s
  | .pkadd o => Sys2Proof.Machine.execPkadd o s
  | .pkaddLong o => Sys2Proof.Machine.execPkaddLong o s
  | .pkmul o => Sys2Proof.Machine.execPkmul o s
  | .pkmulLong o => Sys2Proof.Machine.execPkmulLong o s
  | .pkfma o => Sys2Proof.Machine.execPkfma o s
  | .pkfmaLong o => Sys2Proof.Machine.execPkfmaLong o s
  | .fclass o => Sys2Proof.Machine.execFclass o s
  | .fclassLong o => Sys2Proof.Machine.execFclassLong o s
  | .fscale o => Sys2Proof.Machine.execFscale o s
  | .fscaleLong o => Sys2Proof.Machine.execFscaleLong o s
  | .frnd o => Sys2Proof.Machine.execFrnd o s
  | .frndLong o => Sys2Proof.Machine.execFrndLong o s
  | .qnt o => Sys2Proof.Machine.execQnt o s
  | .qntLong o => Sys2Proof.Machine.execQntLong o s
  | .frcp o => Sys2Proof.Machine.execFrcp o s
  | .frcpLong o => Sys2Proof.Machine.execFrcpLong o s
  | .frsq o => Sys2Proof.Machine.execFrsq o s
  | .frsqLong o => Sys2Proof.Machine.execFrsqLong o s
  | .fsqrt o => Sys2Proof.Machine.execFsqrt o s
  | .fsqrtLong o => Sys2Proof.Machine.execFsqrtLong o s
  | .fexp2 o => Sys2Proof.Machine.execFexp2 o s
  | .fexp2Long o => Sys2Proof.Machine.execFexp2Long o s
  | .flog2 o => Sys2Proof.Machine.execFlog2 o s
  | .flog2Long o => Sys2Proof.Machine.execFlog2Long o s
  | .fsin o => Sys2Proof.Machine.execFsin o s
  | .fsinLong o => Sys2Proof.Machine.execFsinLong o s
  | .fcos o => Sys2Proof.Machine.execFcos o s
  | .fcosLong o => Sys2Proof.Machine.execFcosLong o s
  | .ftanh o => Sys2Proof.Machine.execFtanh o s
  | .ftanhLong o => Sys2Proof.Machine.execFtanhLong o s
  | .boxt o => Sys2Proof.Machine.execBoxt o s
  | .boxtLong o => Sys2Proof.Machine.execBoxtLong o s
  | .trit o => Sys2Proof.Machine.execTrit o s
  | .tritLong o => Sys2Proof.Machine.execTritLong o s
  | .segt o => Sys2Proof.Machine.execSegt o s
  | .segtLong o => Sys2Proof.Machine.execSegtLong o s
  | .bin o => Sys2Proof.Machine.execBin o s
  | .binLong o => Sys2Proof.Machine.execBinLong o s
  | .tileq o => Sys2Proof.Machine.execTileq o s
  | .tileqLong o => Sys2Proof.Machine.execTileqLong o s
  | .ld o => Sys2Proof.Machine.execLd o s
  | .ldLong o => Sys2Proof.Machine.execLdLong o s
  | .st o => Sys2Proof.Machine.execSt o s
  | .stLong o => Sys2Proof.Machine.execStLong o s
  | .lds o => Sys2Proof.Machine.execLds o s
  | .ldsLong o => Sys2Proof.Machine.execLdsLong o s
  | .ldsQ o => Sys2Proof.Machine.execLdsQ o s
  | .sts o => Sys2Proof.Machine.execSts o s
  | .stsLong o => Sys2Proof.Machine.execStsLong o s
  | .stsQ o => Sys2Proof.Machine.execStsQ o s
  | .ldt o => Sys2Proof.Machine.execLdt o s
  | .ldtLong o => Sys2Proof.Machine.execLdtLong o s
  | .stt o => Sys2Proof.Machine.execStt o s
  | .sttLong o => Sys2Proof.Machine.execSttLong o s
  | .atomAdd o => Sys2Proof.Machine.execAtomAdd o s
  | .atomAddLong o => Sys2Proof.Machine.execAtomAddLong o s
  | .atomMin o => Sys2Proof.Machine.execAtomMin o s
  | .atomMinLong o => Sys2Proof.Machine.execAtomMinLong o s
  | .atomMax o => Sys2Proof.Machine.execAtomMax o s
  | .atomMaxLong o => Sys2Proof.Machine.execAtomMaxLong o s
  | .atomAnd o => Sys2Proof.Machine.execAtomAnd o s
  | .atomAndLong o => Sys2Proof.Machine.execAtomAndLong o s
  | .atomOr o => Sys2Proof.Machine.execAtomOr o s
  | .atomOrLong o => Sys2Proof.Machine.execAtomOrLong o s
  | .atomXor o => Sys2Proof.Machine.execAtomXor o s
  | .atomXorLong o => Sys2Proof.Machine.execAtomXorLong o s
  | .atomExch o => Sys2Proof.Machine.execAtomExch o s
  | .atomExchLong o => Sys2Proof.Machine.execAtomExchLong o s
  | .atomInc o => Sys2Proof.Machine.execAtomInc o s
  | .atomIncLong o => Sys2Proof.Machine.execAtomIncLong o s
  | .redAdd o => Sys2Proof.Machine.execRedAdd o s
  | .redAddLong o => Sys2Proof.Machine.execRedAddLong o s
  | .redMin o => Sys2Proof.Machine.execRedMin o s
  | .redMinLong o => Sys2Proof.Machine.execRedMinLong o s
  | .redMax o => Sys2Proof.Machine.execRedMax o s
  | .redMaxLong o => Sys2Proof.Machine.execRedMaxLong o s
  | .redAnd o => Sys2Proof.Machine.execRedAnd o s
  | .redAndLong o => Sys2Proof.Machine.execRedAndLong o s
  | .redOr o => Sys2Proof.Machine.execRedOr o s
  | .redOrLong o => Sys2Proof.Machine.execRedOrLong o s
  | .redXor o => Sys2Proof.Machine.execRedXor o s
  | .redXorLong o => Sys2Proof.Machine.execRedXorLong o s
  | .redDet o => Sys2Proof.Machine.execRedDet o s
  | .cas o => Sys2Proof.Machine.execCas o s
  | .casLong o => Sys2Proof.Machine.execCasLong o s
  | .fenceMx o => Sys2Proof.Machine.execFenceMx o s
  | .fenceMxLong o => Sys2Proof.Machine.execFenceMxLong o s
  | .fenceAcq o => Sys2Proof.Machine.execFenceAcq o s
  | .fenceRel o => Sys2Proof.Machine.execFenceRel o s
  | .fenceAr o => Sys2Proof.Machine.execFenceAr o s
  | .barSync o => Sys2Proof.Machine.execBarSync o s
  | .barSyncLong o => Sys2Proof.Machine.execBarSyncLong o s
  | .barArrive o => Sys2Proof.Machine.execBarArrive o s
  | .barWait o => Sys2Proof.Machine.execBarWait o s
  | .cps o => Sys2Proof.Machine.execCps o s
  | .cpsLong o => Sys2Proof.Machine.execCpsLong o s
  | .prefL1 o => Sys2Proof.Machine.execPrefL1 o s
  | .prefL1Long o => Sys2Proof.Machine.execPrefL1Long o s
  | .prefDc o => Sys2Proof.Machine.execPrefDc o s
  | .cctlWb o => Sys2Proof.Machine.execCctlWb o s
  | .cctlWbLong o => Sys2Proof.Machine.execCctlWbLong o s
  | .cctlInv o => Sys2Proof.Machine.execCctlInv o s
  | .cctlInvall o => Sys2Proof.Machine.execCctlInvall o s
  | .sigSet o => Sys2Proof.Machine.execSigSet o s
  | .sigSetLong o => Sys2Proof.Machine.execSigSetLong o s
  | .sigAdd o => Sys2Proof.Machine.execSigAdd o s
  | .sigSub o => Sys2Proof.Machine.execSigSub o s
  | .rflush o => Sys2Proof.Machine.execRflush o s
  | .rflushLong o => Sys2Proof.Machine.execRflushLong o s
  | .rflushAll o => Sys2Proof.Machine.execRflushAll o s
  | .mxa o => Sys2Proof.Machine.execMxa o s
  | .mxaLong o => Sys2Proof.Machine.execMxaLong o s
  | .mxz o => Sys2Proof.Machine.execMxz o s
  | .mxzLong o => Sys2Proof.Machine.execMxzLong o s
  | .mxld o => Sys2Proof.Machine.execMxld o s
  | .mxldLong o => Sys2Proof.Machine.execMxldLong o s
  | .mxst o => Sys2Proof.Machine.execMxst o s
  | .mxstLong o => Sys2Proof.Machine.execMxstLong o s
  | .mxrd o => Sys2Proof.Machine.execMxrd o s
  | .mxrdLong o => Sys2Proof.Machine.execMxrdLong o s
  | .mxwr o => Sys2Proof.Machine.execMxwr o s
  | .mxwrLong o => Sys2Proof.Machine.execMxwrLong o s
  | .mxalAlloc o => Sys2Proof.Machine.execMxalAlloc o s
  | .mxalAllocLong o => Sys2Proof.Machine.execMxalAllocLong o s
  | .mxalFree o => Sys2Proof.Machine.execMxalFree o s
  | .mxep o => Sys2Proof.Machine.execMxep o s
  | .mxepLong o => Sys2Proof.Machine.execMxepLong o s
  | .cpyL o => Sys2Proof.Machine.execCpyL o s
  | .cpyLLong o => Sys2Proof.Machine.execCpyLLong o s
  | .cpyT o => Sys2Proof.Machine.execCpyT o s
  | .cpyX o => Sys2Proof.Machine.execCpyX o s
  | .cpyj o => Sys2Proof.Machine.execCpyj o s
  | .cpyjLong o => Sys2Proof.Machine.execCpyjLong o s
  | .twaitAll o => Sys2Proof.Machine.execTwaitAll o s
  | .twaitAllLong o => Sys2Proof.Machine.execTwaitAllLong o s
  | .twaitAny o => Sys2Proof.Machine.execTwaitAny o s
  | .twaitFind o => Sys2Proof.Machine.execTwaitFind o s
  | .lnch o => Sys2Proof.Machine.execLnch o s
  | .lnchLong o => Sys2Proof.Machine.execLnchLong o s
  | .csrRd o => Sys2Proof.Machine.execCsrRd o s
  | .csrRdLong o => Sys2Proof.Machine.execCsrRdLong o s
  | .csrWr o => Sys2Proof.Machine.execCsrWr o s
  | .csrSet o => Sys2Proof.Machine.execCsrSet o s
  | .csrClr o => Sys2Proof.Machine.execCsrClr o s
  | .tret o => Sys2Proof.Machine.execTret o s
  | .tretLong o => Sys2Proof.Machine.execTretLong o s
  | .rqaRd o => Sys2Proof.Machine.execRqaRd o s
  | .rqaRdLong o => Sys2Proof.Machine.execRqaRdLong o s
  | .rqaWr o => Sys2Proof.Machine.execRqaWr o s
  | .rqaDrop o => Sys2Proof.Machine.execRqaDrop o s
  | .clauseFetch => Sys2Proof.Machine.execClauseFetch s
  | .schedReady256 team lanes => Sys2Proof.Machine.execSchedReady256 team lanes s
  | .schedReady1024 team lanes => Sys2Proof.Machine.execSchedReady1024 team lanes s
  | .joinHintExpire team => Sys2Proof.Machine.execJoinHintExpire team s
  | .registerCacheFill team reg => Sys2Proof.Machine.execRegisterCacheFill team reg s
  | .loadComplete team entry => Sys2Proof.Machine.execLoadComplete team entry s
  | .storePerformed team entry => Sys2Proof.Machine.execStorePerformed team entry s
  | .atomicPerformed team entry => Sys2Proof.Machine.execAtomicPerformed team entry s
  | .writeVisible die core line => Sys2Proof.Machine.execWriteVisible die core line s
  | .protectionRefusal team entry => Sys2Proof.Machine.execProtectionRefusal team entry s
  | .pageWalk die core proc va => Sys2Proof.Machine.execPageWalk die core proc va s
  | .faultResolveRetry die proc => Sys2Proof.Machine.execFaultResolveRetry die proc s
  | .faultResolveRefuse die proc => Sys2Proof.Machine.execFaultResolveRefuse die proc s
  | .faultResolveRetryAll die => Sys2Proof.Machine.execFaultResolveRetryAll die s
  | .faultRingConfig die base ctl => Sys2Proof.Machine.execFaultRingConfig die base ctl s
  | .tlbInvProc die proc => Sys2Proof.Machine.execTlbInvProc die proc s
  | .tlbInvRange die proc log2 => Sys2Proof.Machine.execTlbInvRange die proc log2 s
  | .tlbInvAll die => Sys2Proof.Machine.execTlbInvAll die s
  | .tlbInvComplete die => Sys2Proof.Machine.execTlbInvComplete die s
  | .compressedWriteMerge die ctl => Sys2Proof.Machine.execCompressedWriteMerge die ctl s
  | .chunkGrant die ctl page => Sys2Proof.Machine.execChunkGrant die ctl page s
  | .chunkTimeout die ctl => Sys2Proof.Machine.execChunkTimeout die ctl s
  | .rspillExtend die size => Sys2Proof.Machine.execRspillExtend die size s
  | .spillTimeout team entry => Sys2Proof.Machine.execSpillTimeout team entry s
  | .cpsWritePerformed team entry => Sys2Proof.Machine.execCpsWritePerformed team entry s
  | .fifoOpPerformed team entry => Sys2Proof.Machine.execFifoOpPerformed team entry s
  | .copyAccepted team entry => Sys2Proof.Machine.execCopyAccepted team entry s
  | .copyDone job => Sys2Proof.Machine.execCopyDone job s
  | .cpyjDone job => Sys2Proof.Machine.execCpyjDone job s
  | .twaitComplete team entry => Sys2Proof.Machine.execTwaitComplete team entry s
  | .matrixComplete team entry => Sys2Proof.Machine.execMatrixComplete team entry s
  | .accumSlotGrant team entry => Sys2Proof.Machine.execAccumSlotGrant team entry s
  | .binAccepted team entry => Sys2Proof.Machine.execBinAccepted team entry s
  | .partialFlush pass => Sys2Proof.Machine.execPartialFlush pass s
  | .marshalDeal pass die => Sys2Proof.Machine.execMarshalDeal pass die s
  | .visibilityResolve pass tile => Sys2Proof.Machine.execVisibilityResolve pass tile s
  | .fragmentLaunch pass tile => Sys2Proof.Machine.execFragmentLaunch pass tile s
  | .tileSpill pass tile => Sys2Proof.Machine.execTileSpill pass tile s
  | .tileKernelLaunch pass tile => Sys2Proof.Machine.execTileKernelLaunch pass tile s
  | .tileRetire pass tile => Sys2Proof.Machine.execTileRetire pass tile s
  | .blockAdmit die core => Sys2Proof.Machine.execBlockAdmit die core s
  | .balanceTick die => Sys2Proof.Machine.execBalanceTick die s
  | .childRoomPreempt block => Sys2Proof.Machine.execChildRoomPreempt block s
  | .teamRetire team => Sys2Proof.Machine.execTeamRetire team s
  | .powerOnReset => Sys2Proof.Machine.execPowerOnReset s
  | .bootGo => Sys2Proof.Machine.execBootGo s
  | .bootImageLoaded => Sys2Proof.Machine.execBootImageLoaded s
  | .doorbellWrite qid v => Sys2Proof.Machine.execDoorbellWrite qid v s
  | .doorbellStop qid => Sys2Proof.Machine.execDoorbellStop qid s
  | .doorbellGo qid => Sys2Proof.Machine.execDoorbellGo qid s
  | .doorbellReset qid => Sys2Proof.Machine.execDoorbellReset qid s
  | .resetDone qid => Sys2Proof.Machine.execResetDone qid s
  | .claimEntry die core => Sys2Proof.Machine.execClaimEntry die core s
  | .depReevaluate qid => Sys2Proof.Machine.execDepReevaluate qid s
  | .packetNop qid => Sys2Proof.Machine.execPacketNop qid s
  | .packetKernel qid => Sys2Proof.Machine.execPacketKernel qid s
  | .packetMass qid => Sys2Proof.Machine.execPacketMass qid s
  | .massReserved qid index => Sys2Proof.Machine.execMassReserved qid index s
  | .massCommitDeadline qid index => Sys2Proof.Machine.execMassCommitDeadline qid index s
  | .massStart qid index => Sys2Proof.Machine.execMassStart qid index s
  | .packetRender qid => Sys2Proof.Machine.execPacketRender qid s
  | .packetTransform qid => Sys2Proof.Machine.execPacketTransform qid s
  | .packetSignal qid => Sys2Proof.Machine.execPacketSignal qid s
  | .packetWait qid => Sys2Proof.Machine.execPacketWait qid s
  | .packetBarrierAnd qid => Sys2Proof.Machine.execPacketBarrierAnd qid s
  | .packetMarker qid => Sys2Proof.Machine.execPacketMarker qid s
  | .packetComplete qid index => Sys2Proof.Machine.execPacketComplete qid index s
  | .createQueue => Sys2Proof.Machine.execCreateQueue s
  | .destroyQueue => Sys2Proof.Machine.execDestroyQueue s
  | .setFmt => Sys2Proof.Machine.execSetFmt s
  | .fwUpdate => Sys2Proof.Machine.execFwUpdate s
  | .advanceRollback => Sys2Proof.Machine.execAdvanceRollback s
  | .svcBadOp => Sys2Proof.Machine.execSvcBadOp s
  | .wdogKick die core => Sys2Proof.Machine.execWdogKick die core s
  | .wdogExpire die core => Sys2Proof.Machine.execWdogExpire die core s
  | .bankCmdGo die core bank mode => Sys2Proof.Machine.execBankCmdGo die core bank mode s
  | .bankModeDone die core => Sys2Proof.Machine.execBankModeDone die core s
  | .preemptGo die core slot => Sys2Proof.Machine.execPreemptGo die core slot s
  | .preemptDone die core => Sys2Proof.Machine.execPreemptDone die core s
  | .resumeGo die core slot => Sys2Proof.Machine.execResumeGo die core slot s
  | .handlerLimitExpire team => Sys2Proof.Machine.execHandlerLimitExpire team s
  | .pfsArm die core => Sys2Proof.Machine.execPfsArm die core s
  | .pfsHit die core => Sys2Proof.Machine.execPfsHit die core s
  | .dbgStopGo die core pmask => Sys2Proof.Machine.execDbgStopGo die core pmask s
  | .dbgStopDone die core => Sys2Proof.Machine.execDbgStopDone die core s
  | .dbgStopResume die core pmask => Sys2Proof.Machine.execDbgStopResume die core pmask s
  | .singleStep team => Sys2Proof.Machine.execSingleStep team s
  | .erGo die core => Sys2Proof.Machine.execErGo die core s
  | .rrCap => Sys2Proof.Machine.execRrCap s
  | .rrRun => Sys2Proof.Machine.execRrRun s
  | .splCtlApply => Sys2Proof.Machine.execSplCtlApply s
  | .splitsTick die => Sys2Proof.Machine.execSplitsTick die s
  | .eccCorrected die site => Sys2Proof.Machine.execEccCorrected die site s
  | .eccUncorrectable die site => Sys2Proof.Machine.execEccUncorrectable die site s
  | .patrolScrub die line => Sys2Proof.Machine.execPatrolScrub die line s
  | .linkDown a b => Sys2Proof.Machine.execLinkDown a b s
  | .powerStateEnter u state => Sys2Proof.Machine.execPowerStateEnter u state s
  | .powerStateWake u => Sys2Proof.Machine.execPowerStateWake u s
  | .arbiterUpdate budgets power => Sys2Proof.Machine.execArbiterUpdate budgets power s
  | .limiterThrottle die => Sys2Proof.Machine.execLimiterThrottle die s
  | .arbiterFallback die => Sys2Proof.Machine.execArbiterFallback die s
  | .pwrLimitWrite v => Sys2Proof.Machine.execPwrLimitWrite v s
  | .thermalThrottle die => Sys2Proof.Machine.execThermalThrottle die s
  | .thermalTrip die => Sys2Proof.Machine.execThermalTrip die s
  | .partWrite k v => Sys2Proof.Machine.execPartWrite k v s
  | .hostMemoryAccess wr pa size data => Sys2Proof.Machine.execHostMemoryAccess wr pa size data s
  | .relayAccess port wr pa data => Sys2Proof.Machine.execRelayAccess port wr pa data s
  | .registerWrite off v => Sys2Proof.Machine.execRegisterWrite off v s
  | .fullPowerDown cut => Sys2Proof.Machine.execFullPowerDown cut s
  | .relayLinkTrain port up => Sys2Proof.Machine.execRelayLinkTrain port up s
  | .faultRiWrite die v => Sys2Proof.Machine.execFaultRiWrite die v s
  | .fenceComplete team entry => Sys2Proof.Machine.execFenceComplete team entry s
  | .cctlComplete team entry => Sys2Proof.Machine.execCctlComplete team entry s
  | .prefAccepted team entry => Sys2Proof.Machine.execPrefAccepted team entry s
  | .tileqComplete team entry => Sys2Proof.Machine.execTileqComplete team entry s

end Sys2Proof.Machine
end

