-- ==== Sys2Proof/Machine/Cycle.lean ====
section
/-!
DEFINITION. Machine/Cycle: one step of the machine: which issue group issues (R23, R28 to R31, R34), its instruction fetched,
decoded and executed (R121 to R124), and which of the pending operations is taken when none issues. The definitions that build an
Instr are noncomputable for the reason given in Decode.
-/

namespace Sys2Proof.Machine

/-! ## Choosing a group (R29, R430) -/

/-- Rank of a group: those raised above the classes, then class, the raised of a class by the time they were raised, Y, age, J, round robin
(R23, R29, R30). -/
def State.rank (s : State) (t : Team) (m : Mask) : List Nat :=
  let top := decide (t.raisedTop &&& m ≠ 0)
  let b := (s.block t.block).getD Block.none
  [if top then 0 else 1, if top then 0 else t.cls, if t.raised &&& m ≠ 0 then 0 else 1,
   ((lanesOf (t.raised &&& m)).map (fun l => defGet 0 t.raisedAt l)).foldl min (if t.raised &&& m ≠ 0 then s.turn else 0), if t.yielded then 1 else 0, s.launchOf b, t.index, b.lin,
   t.id, if t.jhint &&& m ≠ 0 then 1 else 0, (lowLane m + 127 - t.served) % 64]

/-- A group with its rank. -/
structure Choice where
  rank : List Nat
  team : Nat
  pc : BitVec 57
  hdr : BitVec 57
  mask : Mask
  deriving DecidableEq, Repr

/-- A choice put in rank order. -/
def putChoice (x : Choice) : List Choice → List Choice
  | [] => [x]
  | y :: ys => if keyBefore x.rank y.rank then x :: y :: ys else y :: putChoice x ys

/-- Every group that may issue, in rank order. -/
def State.choices (s : State) : List Choice :=
  ((s.allTeams.filter s.mayIssue).flatMap (fun t => t.groups.map (fun g =>
    ({ rank := s.rank t g.2.2, team := t.id, pc := g.1, hdr := g.2.1, mask := g.2.2 } : Choice)))).foldr putChoice []

/-- The state in which a chosen group issues. -/
def State.prepare (s : State) (c : Choice) : State :=
  let s := (s.mapTeams (fun t => { t with yielded := false })).checkOut c.team
  { s with
    me := { s.me with served := lowLane c.mask, raised := s.me.raised &&& ~~~ c.mask, raisedTop := s.me.raisedTop &&& ~~~ c.mask,
                       raisedAt := s.me.raisedAt.filter (fun p => !c.mask.getLsbD p.1),
                       readySince := s.me.readySince.filter (fun p => decide (p.1 ≠ c.mask)),
                       stepAt := if s.me.frame = none then none else s.me.stepAt }
    grp := c.mask
    ctx := { Ctx.reset with pc := c.pc, hdr := c.hdr } }

/-! ## One instruction -/

/-- The latch for the i-th instruction of a clause (R107, R124). -/
def Clause.ctx (c : Clause) (h : BitVec 57) (i : Nat) (x : Item) : Ctx :=
  let last := decide (i + 1 = c.items.length)
  let go := c.after h i x
  { pc := x.start, hdr := h, npc := go.1, nhdr := go.2, first := decide (i = 0), last := last, y := bit c.h 1, cls := clauseClass c.h,
    seta := clauseSetA c.h, setb := clauseSetB c.h, w0 := x.w0, w1 := x.w1, pfxw := 0, rnd := 0, sat := false }

/-- The latched words executed, or refused as R123 says. -/
noncomputable def State.execWords (s : State) : Res :=
  match decodeWords s.ctx.w0 s.ctx.w1 with
  | .ok i => exec i s
  | .error _ => .next (s.trapGroup (s.rejectCause s.ctx.w0))

/-- An instruction of a clause: its PFX first, and when that stands, the instruction it modifies (R122). -/
noncomputable def State.execItem (s : State) (c : Ctx) (pfx : Option Word) : Res :=
  match pfx with
  | none => ({ s with ctx := c } : State).execWords
  | some p =>
    match exec (.pfx (bits p 21 3) (bit p 20) (bits p 0 20)) { s with ctx := { c with last := false, w1 := c.w0 } } with
    | .next s' => if s'.ctx.pfxw = 0 then .next s' else ({ s' with ctx := { s'.ctx with last := c.last, w1 := c.w1 } } : State).execWords
    | o => o

/-- What the group at the latch does: it begins its clause, or issues the instruction at its PC (R109, R123, R124). A group that stands after the
last instruction where no PFX trails now, the code having been changed, goes on at the next clause (R107, R289). DESIGN CHOICE (log entry 20): at
any other PC that starts nothing of the clause it raises an illegal clause there; the spec gives no outcome. -/
noncomputable def State.issueAt (s : State) : Res :=
  if s.ctx.pc = s.ctx.hdr then exec .clauseFetch s
  else match s.clauseAt s.me s.ctx.hdr with
    | .ok c =>
      (match indexOf (fun (x : Item) => decide (x.start = s.ctx.pc)) c.items with
       | some i => s.execItem (c.ctx s.ctx.hdr i (c.items.getD i { start := 0, pfx := none, w0 := 0, w1 := 0, next := 0 }))
           ((c.items.getD i { start := 0, pfx := none, w0 := 0, w1 := 0, next := 0 }).pfx)
       | none =>
         (match c.trail with
          | some (a, w) =>
            if a = s.ctx.pc then exec (.pfx (bits w 21 3) (bit w 20) (bits w 0 20)) { s with ctx := { s.ctx with last := true, w0 := w } }
            else .next (s.trapGroup 0x02)
          | none =>
            if s.ctx.pc = c.itemsEnd s.ctx.hdr then exec .clauseFetch { s with ctx := { s.ctx with pc := c.next, hdr := c.next } }
            else .next (s.trapGroup 0x02)))
    | x => .next (s.fetchHalt x)

/-- The slot that an instruction takes: 1 the control slot, for class CTL or SYS or a scalar-pipe instruction, 0 the lane slot (R25, R31). DEDUCED (log
entry 49): a control transfer and an instruction of any class go with the class of their clause. -/
def Ctx.slot (c : Ctx) : Nat :=
  let op := bitsN c.w0 24 7
  let cls := if classOf op = 7 then c.cls else classOf op
  if cls = 0 ∨ cls = 6 ∨ (0x18 ≤ op ∧ op ≤ 0x1C) then 1 else 0

/-- One issue counted for the slot of a team's partition: the number of groups that the lane slot issued, or the control slot's cycles (R453). -/
def State.countIssue (s : State) (t : Team) (slot : Nat) : State := s.count t.die (0x140 + 0x100 * t.core + 48 * t.part + 8 * slot) 1

/-- The mark of the instruction that the issuing team of p has just issued and that left the team as t: what it put into the replay queue, the child
that it launched, the tag of its copy (R273, R430). -/
def State.stepMark (p : State) (t : Team) : StepMark :=
  let e := t.entries.find? (fun e => decide (e.order = p.me.nextOrder))
  { pc := p.ctx.pc, hdr := p.ctx.hdr, mask := p.grp
    entry := if t.nextOrder = p.me.nextOrder then none else some p.me.nextOrder
    kid := (t.kids.find? (fun k => !p.me.kids.any (fun j => decide (j.lseq = k.lseq)))).map (fun k => k.lseq)
    tag := e.bind (fun e => match e.work with | .copy _ n _ => some n | _ => none) }

/-- What follows an instruction that has issued: the hint of a Y clause (R30), the end of the resume class (R29), the first issue after a mass
start (R372), the slot's count (R453), the step of a stepped team (R430). A fetch, or an instruction that a page fault stalls, has issued nothing. -/
noncomputable def State.after (p s : State) : State :=
  if s.ctx.pc = s.ctx.hdr ∨ s.me.stall ≠ [] then s
  else
    let t := s.me
    let s := { s with me := { t with yielded := t.yielded || (s.ctx.y && s.ctx.last), begun := true
                                     cls := if s.ctx.first ∧ t.cls = 1 then t.home else t.cls } }
    let s := s.countIssue p.me (s.ctx.slot)
    if p.stepped p.me ∧ s.me.id = p.me.id ∧ s.me.frame = none ∧ s.me.pend = none then
      { s with me := { s.me with stepAt := some (p.stepMark s.me) } }
    else s

/-- A group whose issue changes something of its team is ready (R28). -/
noncomputable def State.issues (s : State) (c : Choice) : Bool :=
  match (s.prepare c).issueAt with
  | .next s' => decide (s'.me ≠ (s.prepare c).me)
  | _ => true

/-- The first group in rank order that is ready: one whose issue changes nothing of its team waits (R28). -/
noncomputable def State.tryGroups (s : State) : List Choice → Option Res
  | [] => none
  | c :: cs =>
    match (s.prepare c).issueAt with
    | .next s' => if s'.me = (s.prepare c).me then s.tryGroups cs else some (.next ((s.prepare c).after s'))
    | o => some o

/-! ## Operations (R87, R92, R211 and the rows of other agents) -/

/-- An operation that is pending: a row of the opcode table, a barrier entry, one K-slice of an MXA, the retirement of a block or of a grid, a trap
whose frame waited, the eviction of a register, a group looked at to see whether it has stood ready and not chosen for 256 or, `top`, for 1024
cycles, or engine-log records that wait on their page. -/
inductive Op where
  | row (i : Instr)
  | bar (team entry : Nat)
  | slice (team entry : Nat)
  | retire (block : Nat)
  | grids
  | trap (team : Nat)
  | evict (team reg : Nat)
  | ready (c : Choice) (top : Bool)
  | log (die core : Nat)

/-- Rows that an entry of a replay queue waits for. -/
noncomputable def entryOps (t : Team) (e : Entry) : List Op :=
  match e.work with
  | .load _ => [.row (.loadComplete t.id e.order)]
  | .sload .. => [.row (.loadComplete t.id e.order)]
  | .store _ => [.row (.storePerformed t.id e.order)]
  | .sstore .. => [.row (.storePerformed t.id e.order)]
  | .rflush _ => [.row (.storePerformed t.id e.order)]
  | .atomic .. => [.row (.atomicPerformed t.id e.order)]
  | .redDet .. => [.row (.atomicPerformed t.id e.order), .row (.spillTimeout t.id e.order)]
  | .sig .. => [.row (.atomicPerformed t.id e.order)]
  | .fifoPush .. => [.row (.fifoOpPerformed t.id e.order)]
  | .fifoPop .. => [.row (.fifoOpPerformed t.id e.order)]
  | .cps .. => [.row (.cpsWritePerformed t.id e.order)]
  | .fence .. => [.row (.fenceComplete t.id e.order)]
  | .bar .. => [.bar t.id e.order]
  | .pref _ => [.row (.prefAccepted t.id e.order)]
  | .cctl _ => [.row (.cctlComplete t.id e.order)]
  | .matrix op .. => [.row (.accumSlotGrant t.id e.order), .row (.matrixComplete t.id e.order)] ++ (if op = 0x70 then [.slice t.id e.order] else [])
  | .copy .. => [.row (.copyAccepted t.id e.order)]
  | .twait .. => [.row (.twaitComplete t.id e.order)]
  | .bin => [.row (.binAccepted t.id e.order)]
  | .tileq _ => [.row (.tileqComplete t.id e.order)]

/-- Operations of a team: its entries, its register lines, its traps and limits, and its end. -/
noncomputable def State.teamOps (s : State) (t : Team) : List Op :=
  if t.agent then [] else
  (if t.run = .away ∨ (s.block t.block).any (fun b => decide (b.run ≠ .resident)) then [] else (t.entries.drop t.suspended).flatMap (fun e =>
    if e.dropped then []
    else if e.refused ≠ 0 ∧ e.work.refusable then [.row (.protectionRefusal t.id e.order)]
    else entryOps t e) ++
  (t.absent.take 1).map (fun r => .row (.registerCacheFill t.id r))) ++
  (if t.jhint ≠ 0 then [.row (.joinHintExpire t.id)] else []) ++
  (if t.frame.isSome then [.row (.handlerLimitExpire t.id)] else []) ++
  (if t.pend.isSome ∧ (t.run = .running ∨ t.run = .frozen) then [.trap t.id] else []) ++
  (if t.mayRetire then [.row (.teamRetire t.id)] else []) ++
  (if t.stepAt.any (s.stepReady t) then [.row (.singleStep t.id)] else [])

/-- Work stands before a core that may sleep: blocks in its queue, tiles dealt to it, a block resident on it or one to come back (R454). -/
def State.coreWanted (s : State) (d c : Nat) : Bool :=
  decide ((s.core d c).queue ≠ []) || s.allTeams.any (fun t => decide (t.die = d ∧ t.core = c) && !t.agent && s.onCore t) ||
    s.blocks.any (fun b => decide (b.die = d ∧ b.core = c) && s.mayReturn b) ||
    s.passes.any (fun p => p.tiles.any (fun y => decide (y.die = d ∧ y.core = c ∧ 1 ≤ y.stage ∧ y.stage ≤ 4)))

/-- Work stands before a die that may sleep (R454). -/
def State.dieWanted (s : State) (d : Nat) : Bool :=
  s.queues.any (fun q => decide (q.home = d) && q.busy) || (s.logical d).any (s.coreWanted d) || decide (s.passes ≠ [])

/-- Operations of a core: admission and what it waits for, the agent's watchdog, stops, and dirty lines. -/
noncomputable def State.coreOps (s : State) (d c : Nat) : List Op :=
  let k := s.core d c
  (if k.queue = [] then [] else .row (.blockAdmit d c) :: (match s.bankWant d c with | some (b, m) => [.row (.bankCmdGo d c b m)] | none => [])) ++
  (if s.power = 0 ∧ (s.die d).power = 0 ∧ k.power ≠ 0 ∧ s.coreWanted d c then [.row (.powerStateWake (.core d c))] else []) ++
  (if k.power = 0 ∧ s.mayEnter (.core d c) 1 ∧ !s.coreWanted d c then [.row (.powerStateEnter (.core d c) 1)] else []) ++
  (if k.banking ≠ [] then [.row (.bankModeDone d c)] else []) ++ (if k.moving ≠ [] then [.row (.preemptDone d c)] else []) ++
  (s.blocksOn d c).filterMap (fun b => if k.waking.contains b.id then some (.row (.resumeGo d c b.slot)) else none) ++
  (if k.resuming ≠ 0 then [.row (.dbgStopResume d c k.resuming)] else []) ++ (if k.erQueue ≠ [] then [.log d c] else []) ++
  (if k.stopping ≠ 0 then [.row (.dbgStopDone d c)] else []) ++ (if k.reg 0x119 = 1 then [.row (.pfsHit d c)] else []) ++
  (if bit (k.reg 0x503) 2 then [.row (.erGo d c)] else []) ++
  (if s.bootState = 3 then [.row (.wdogKick d c), .row (.wdogExpire d c)] else []) ++
  (let vs := s.evictable d c; match vs[s.turn / 8 % vs.length]? with | some v => [.evict v.1 v.2] | none => []) ++
  (match k.dirty with | p :: _ => [.row (.writeVisible d (some c) (lineOf p.1))] | [] => [])

/-- The agents of a die that have something to do in the loop of R384: those that hold a queue, those whose arrival is written, and the next that
draws a ticket. -/
def State.claimers (s : State) (d : Nat) : List Nat :=
  let cs := (List.range 36).filter (s.enabled d)
  let base := ((s.die d).reg 0x200).toNat
  cs.filter (fun c =>
    let k := s.core d c
    k.serving.isSome || (match k.ticket with | some n => decide (s.homeNum (base + 0x80 + 16 * (n % 4096)) 8 = n + 1) | none => false)) ++
  (cs.filter (fun c => let k := s.core d c; !k.dead && k.serving.isNone && k.ticket.isNone)).take 1

/-- Operations of a die: claims, invalidations, controllers, balancing, splits, the arbiter's absence, dirty lines, its power state. -/
noncomputable def State.dieOps (s : State) (d : Nat) : List Op :=
  let x := s.die d
  (if x.tlbq = [] then [] else [.row (.tlbInvComplete d)]) ++
  (if s.bootState = 3 then (s.claimers d).map (fun c => .row (.claimEntry d c)) ++ [.row (.balanceTick d)] else []) ++
  ((mapIx (fun i (c : Ctl) => (i, c)) x.ctls).flatMap (fun ic =>
    if ic.2.held = [] then [] else [.row (.compressedWriteMerge d ic.1), .row (.chunkTimeout d ic.1)])) ++
  (if x.latched = [] then [] else [.row (.splitsTick d)]) ++
  (match x.dirty with | p :: _ => [.row (.writeVisible d none (lineOf p.1))] | [] => []) ++
  (if x.power ≠ 0 ∧ s.dieWanted d then [.row (.powerStateWake (.die d))] else []) ++
  (if x.power = 0 ∧ s.mayEnter (.die d) 2 ∧ !s.dieWanted d then [.row (.powerStateEnter (.die d) 2)] else []) ++
  (if s.bootState = 3 ∧ s.unserved d then [.row (.arbiterFallback d)] else [])

/-- Operations of a queue and of its claimed packets. -/
noncomputable def queueOps (q : Queue) : List Op :=
  (if q.resetting then [.row (.resetDone q.qid)] else []) ++
  (if q.staged = [] then [] else [.row (.depReevaluate q.qid)]) ++
  q.staged.flatMap (fun p =>
    (if p.started ∧ !p.done then [.row (.packetComplete q.qid p.index)] else []) ++
    (if p.stage = 1 then [.row (.massReserved q.qid p.index), .row (.massCommitDeadline q.qid p.index)] else []) ++
    (if p.stage = 4 then [.row (.massReserved q.qid p.index)] else []) ++
    (if p.stage = 2 then [.row (.massStart q.qid p.index)] else []))

/-- Operations of a render pass. -/
noncomputable def passOps (s : State) (p : Pass) : List Op :=
  .row (.partialFlush p.lseq) :: (diesIn s.present).map (fun d => .row (.marshalDeal p.lseq d)) ++
  p.tiles.flatMap (fun y =>
    if y.stage = 1 then [.row (.visibilityResolve p.lseq y.tile)]
    else if y.stage = 2 ∨ y.stage = 3 then
      [.row (.fragmentLaunch p.lseq y.tile), .row (.tileSpill p.lseq y.tile), .row (.tileKernelLaunch p.lseq y.tile), .row (.tileRetire p.lseq y.tile)]
    else if y.stage = 4 then [.row (.tileRetire p.lseq y.tile)] else [])

/-- The row of the next entry of the service ring (R388). -/
noncomputable def State.serviceOps (s : State) : List Op :=
  match s.nextService with
  | none => []
  | some (_, e) => match fieldAt e 0 1 with
    | 1 => [.row .createQueue]
    | 2 => [.row .destroyQueue]
    | 3 => [.row .setFmt]
    | 4 => [.row .fwUpdate]
    | 5 => [.row .advanceRollback]
    | _ => [.row .svcBadOp]

/-- Firmware brings back a block that it pre-empted, with a bank change first where it needs one (R37, R296). -/
noncomputable def State.returnOps (s : State) (b : Block) : List Op :=
  if !s.mayReturn b ∨ !s.awake b.die b.core then []
  else
    let ts := s.teamsOf b.id
    if !s.banksBack b then
      (match (let n := s.banksOwn b; s.bankChange b.die b.core n.1 n.2.1 n.2.2) with
       | some (k, m) => [.row (.bankCmdGo b.die b.core k m)]
       | none => [])
    else if (s.freeTags b.die b.core b.tags.length).isNone ∨
        (placeTeams ts.length (ts.headD Team.reset).width ((List.range 4).map (s.partLoad b.die b.core))).isNone then []
    else [.row (.resumeGo b.die b.core b.slot)]

/-- Every pending operation. -/
noncomputable def State.ops (s : State) : List Op :=
  (if s.bootState = 0 then [.row .powerOnReset] else []) ++
  (if s.bootState = 3 ∧ (s.die 0).lastUpdate + 10000 ≤ (s.die 0).rclk.toNat then [.row (.arbiterUpdate (Config.arbiter s.fresh).1 (Config.arbiter s.fresh).2)] else []) ++
  (if s.power = 0 ∧ s.mayEnter .device 3 then [.row (.powerStateEnter .device 3)] else []) ++ (if s.bootState = 2 then [.row .bootImageLoaded] else []) ++
  s.allTeams.flatMap s.teamOps ++ s.choices.flatMap (fun c => [.ready c false, .ready c true]) ++ (s.blocks.filter s.blockDone).map (fun b => .retire b.id) ++
  (if s.grids.any s.gridDone then [.grids] else []) ++
  (if s.childLacksRoom then (s.blocks.filter s.unitWaits).map (fun b => .row (.childRoomPreempt b.id)) else []) ++ s.blocks.flatMap s.returnOps ++
  s.jobs.map (fun j => if j.form = 3 then .row (.cpyjDone j.id) else .row (.copyDone j.id)) ++
  s.cores.flatMap (fun p => s.coreOps (p.1 / 64) (p.1 % 64)) ++ (diesIn s.present).flatMap s.dieOps ++ s.queues.flatMap queueOps ++
  s.passes.flatMap (passOps s) ++ s.serviceOps ++ (if s.splNext.any (fun p => decide (p.2 ≤ (s.die 0).rclk.toNat)) then [.row .splCtlApply] else []) ++
  (if bit (defGet 0 s.csr 0x580) 0 ∧ s.rerun.mode = 0 then [.row .rrCap] else []) ++
  (if bit (defGet 0 s.csr 0x580) 1 then [.row .rrRun] else [])

/-- The last count at which a team of a mass start that has not begun, and that nothing stops, may issue its first instruction (R372 step 5). -/
def State.startLimit (s : State) (t : Team) : Option Nat :=
  match (s.block t.block).bind (fun b => s.grid b.grid) with
  | none => none
  | some g => if g.start = 0 ∨ t.begun then none
              else if ({ s with grids := s.grids.map (fun (h : Grid) => { h with start := 0 }) } : State).mayIssue t ∧ g.start < 2 ^ 64 then some (g.start + 2) else none

/-- The counts that pass in a step: a free number of them (R4), as long as no team of a mass start is left behind its first count (R372). -/
def State.clockStep (s : State) : Nat :=
  let now := fun (t : Team) => (s.die t.die).rclk.toNat
  (s.allTeams.filterMap (fun t => (s.startLimit t).map (fun l => l - now t))).foldl min (Config.clockStep s.fresh)

/-- The race clocks of the present dies after a time that nothing else fixes (R4): every reading is at least the one before it (R172), and the ticks
of the splits that a clock passes are latched (R452). DESIGN CHOICE (log entry 80): R4 lets two dies differ by one count; here all advance by the same
number from 0, and are always equal. -/
def State.tick (s : State) : State :=
  let n := s.clockStep
  (diesIn s.present).foldl (fun s d =>
    let old := (s.die d).rclk.toNat
    let new := min (old + n) (2 ^ 64 - 1)
    let s := (s.ticksDue old new).foldl (fun s t => s.latchTick d t) s
    s.setDie d { s.die d with rclk := BitVec.ofNat 64 new }) s.tickFresh

/-- A trap whose frame waits taken again; a refused pool page contains the process (R402, R408). -/
def State.retakeTrap (s : State) (id : Nat) : State :=
  match s.team id with
  | none => s
  | some t =>
    match t.pend with
    | none => s
    | some k => (s.setTeam { t with pend := none }).trapTeam id k

/-- One operation taken. -/
noncomputable def State.takeOp (s : State) : Op → Res
  | .row i => exec i s
  | .bar t e => .next (match s.team t with
      | some u => (match u.activeEntry e with | some x => s.barStep t x | none => s)
      | none => s)
  | .slice t e => .next (s.oneSlice t e)
  | .retire b => .next (s.retireBlock b)
  | .grids => .next (s.retireGrids s.grids.length)
  | .trap t => .next (s.retakeTrap t)
  | .evict t r => .next (s.evictRegister t r)
  | .ready c top =>
    let found := s.issues c
    let s := match s.team c.team with | some t => s.setTeam (t.foundReady c.mask found s.turn) | none => s
    if found then exec (if top then .schedReady1024 c.team c.mask else .schedReady256 c.team c.mask) s else .next s
  | .log d c => .next (s.erFlush d c)

/-- Time passes, and the pending operation whose turn it is is taken. -/
noncomputable def State.operate (s : State) : Res :=
  let ops := s.ops
  match ops[s.turn / 8 % ops.length]? with
  | some o => s.tick.takeOp o
  | none => .next s.tick

/-- One step with no event standing to be taken: seven in eight steps issue when a group is ready; the others, and those where none
is, take an operation (log entry 80). -/
noncomputable def State.cycle (s : State) : Res :=
  let s := { s with turn := s.turn + 1 }
  if s.turn % 8 = 0 then s.operate
  else match s.tryGroups s.choices with
    | some o => o
    | none => s.operate

/-- The sleeping unit that an access to a die, or to the device, wakes: the device from S3, the die from S2 (R454). -/
def State.sleeper (s : State) (d : Option Nat) : Option PowerUnit :=
  if s.power ≠ 0 then some .device
  else match d with
    | some d => if (s.die d).power ≠ 0 then some (.die d) else none
    | none => none

/-- The sleeping unit that PREEMPT, RESUME or a photo-finish stop of a core wakes: that core too, which stays in S0 until they have acted (R454). -/
def State.coreSleeper (s : State) (d c : Nat) : Option PowerUnit :=
  if (s.core d c).power ≠ 0 then some (.core d c) else s.sleeper (some d)

/-- The sleeping unit that an access at a BAR 0 offset wakes. -/
def State.barSleeper (s : State) (off : Nat) : Option PowerUnit :=
  match s.barReg off with
  | .dieCsr d _ => s.sleeper (some d)
  | .coreCsr d c n => if n = 0x112 ∨ n = 0x113 ∨ n = 0x119 then s.coreSleeper d c else s.sleeper (some d)
  | .dbgCsr d _ _ => s.sleeper (some d)
  | _ => s.sleeper none

/-- The sleeping unit that a doorbell wakes. -/
def State.bellSleeper (s : State) (qid : Nat) : Option PowerUnit := s.sleeper ((s.queue qid).map (fun q => q.home))

/-- The unit that a host access wakes before it acts: doorbell, service ring, FAULT_RESOLVE and CSR accesses (R454). -/
def State.wakeFor (s : State) : Instr → Option PowerUnit
  | .doorbellWrite q _ | .doorbellStop q | .doorbellGo q | .doorbellReset q => s.bellSleeper q
  | .faultResolveRetry d _ | .faultResolveRefuse d _ | .faultResolveRetryAll d | .faultRiWrite d _ | .faultRingConfig d _ _ => s.sleeper (some d)
  | .tlbInvProc d _ | .tlbInvRange d _ _ | .tlbInvAll d | .rspillExtend d _ => s.sleeper (some d)
  | .preemptGo d c _ | .resumeGo d c _ | .pfsArm d c => s.coreSleeper d c
  | .dbgStopGo d _ _ | .dbgStopResume d _ _ => s.sleeper (some d)
  | .registerWrite off _ => if s.hostPort (portOf off) then s.barSleeper (off % 2 ^ 24) else none
  | .pwrLimitWrite _ | .partWrite _ _ => s.sleeper none
  | .hostMemoryAccess _ pa _ _ => match s.target pa with
    | .bar0 off => s.barSleeper off
    | .doorbell off => s.bellSleeper (off / 8)
    | _ => none
  | _ => none

/-- The event at the head of the agenda taken, once the unit that it addresses is awake (R454). -/
noncomputable def State.advanceAgenda (s : State) : Res :=
  match s.agenda with
  | [] => s.cycle
  | i :: rest => match s.wakeFor i with
    | some u => exec (.powerStateWake u) s
    | none => exec i { s with agenda := rest }

/-! ## Placing an instruction for the next step -/

/-- Pages, header and registers that placing an instruction uses (log entry 81): one page of code at physical 0x10000, read at
virtual 0x10000 by process 1. -/
def fetchPage : Nat := 0x10000

/-- The clause header for an instruction: one instruction of the instruction's class, waiting on nothing, counting on f0. -/
def fetchHeader (w0 : Word) : Word :=
  0xA2000000 ||| BitVec.ofNat 32 ((if classOf (bitsN w0 24 7) = 7 then 0 else classOf (bitsN w0 24 7)) * 2 ^ 22) ||| 0x0000003C

/-- The team that runs the instruction: eight lanes at the word after the header. -/
def fetchTeam : Team :=
  { Team.reset with
    id := 1, block := 1, width := 8, proc := 1, trapEn := 0
    threads := List.replicate 8 { Thread.reset with pc := BitVec.ofNat 57 (fetchPage + 4), hdr := BitVec.ofNat 57 fetchPage } }

/-- A state in which the next step issues an instruction whose words hold w: its clause in memory and in the TLB, and a block of one
team of an unprivileged process. -/
def State.placeWord (s : State) (w : Nat) : State :=
  let w0 := BitVec.ofNat 32 w
  let code := leBytes 4 (fetchHeader w0).toNat ++ leBytes 8 w ++ List.replicate 8 (0 : Byte)
  let e : TlbEntry := { proc := 1, va := fetchPage, log2 := 16, pa := fetchPage, w := true, x := true, prv := false, cmp := false }
  let s := (s.tlbPut 0 0 e).homeWrite fetchPage code
  { s with
    me := fetchTeam, teams := [], agenda := [], tripped := false, turn := 0
    blocks := [{ Block.none with id := 1, grid := 1, nteams := 1, bars := List.replicate 16 Barrier.reset }]
    grids := [{ Grid.none with lseq := 1, proc := 1, left := 1 }] }

end Sys2Proof.Machine
end

