-- ==== Sys2Proof/Machine/Step.lean ====
section
/-!
DEFINITION. Machine/Step: one step of the device.
-/

namespace Sys2Proof.Machine

/-- One step: a device that has tripped holds until it is reset (R439, R456); else the event that stands to be taken, or what the
device does by itself. -/
noncomputable def step (s : State) : Host.Outcome State Fault Refusal :=
  if s.tripped ∧ s.agenda.all (fun i => match i with | .powerOnReset => false | _ => true) then .next s else s.advanceAgenda

/-- The state with an instruction stored where the next step fetches it, and running next. -/
def State.withFetchWord (s : State) (nbits w : Nat) : State := s.placeWord (w % 2 ^ nbits)

end Sys2Proof.Machine
end

