-- ==== Sys2Proof/Machine/Fields.lean ====
section
/-!
DEFINITION. Machine/Fields: what the fields of each encoded instruction may hold (R123 step 4), in one place: the form of every
register-form instruction, the fields of the other formats, and the bits that the row of the opcode table fixes among the
carried fields (R143, R144). A wildcard arm stands for the rows that are not of the kind an operation is about.
-/

namespace Sys2Proof.Machine

/-- What the field checks look at beside the instruction: the clause, the team, and what its block and kernel have. -/
structure Env where
  ctx : Ctx
  width : Nat
  bars : Nat
  tags : Nat
  fifos : Nat
  frag : Bool
  binning : Bool
  held : Bool
  agent : Bool
  tileq : Nat → Bool

/-- Surroundings in which every field value stands that some block and team allow. -/
def Env.most : Env :=
  { ctx := { Ctx.reset with last := true }, width := 64, bars := 16, tags := 64, fifos := 16, frag := true, binning := true, held := true,
    agent := false, tileq := fun n => decide (n ≤ 8) }

/-- The surroundings of the instruction at issue. -/
def State.env (s : State) : Env :=
  { ctx := s.ctx, width := s.me.width, bars := s.barCount, tags := s.tagCount, fifos := s.myBlock.fifos.length, frag := s.isFrag,
    binning := s.myGrid.binning.isSome, held := s.me.latch.valid, agent := s.me.agent, tileq := s.tileqLegal }

/-- Form and register fields of a register-form instruction. -/
def formOf (e : Env) : Instr → Option (Form × Reg)
  | .ret o => let r := Reg.ofShort 0 o; some (formJump r, r)
  | .retLong o => let r := Reg.ofLong o; some (formJump r, r)
  | .jmpi o => let r := Reg.ofShort 0 o; some (formJump r, r)
  | .jmpiLong o => let r := Reg.ofLong o; some (formJump r, r)
  | .exit o => let r := Reg.ofShort 0 o; some (formExit r, r)
  | .exitLong o => let r := Reg.ofLong o; some (formExit r, r)
  | .trap o => let r := Reg.ofShort 0 o; some (formCode r, r)
  | .trapLong o => let r := Reg.ofLong o; some (formCode r, r)
  | .brk o => let r := Reg.ofShort 0 o; some (formCode r, r)
  | .brkLong o => let r := Reg.ofLong o; some (formCode r, r)
  | .yield o => let r := Reg.ofShort 0 o; some (formYield r, r)
  | .yieldLong o => let r := Reg.ofLong o; some (formYield r, r)
  | .join o => let r := Reg.ofShort 0 o; some (formMask r, r)
  | .joinLong o => let r := Reg.ofLong o; some (formMask r, r)
  | .leave o => let r := Reg.ofShort 0 o; some (formMask r, r)
  | .leaveLong o => let r := Reg.ofLong o; some (formMask r, r)
  | .waitm o => let r := Reg.ofShort 0 o; some (formMask r, r)
  | .waitmLong o => let r := Reg.ofLong o; some (formMask r, r)
  | .msetG o => let r := Reg.ofShort 0 o; some (formMset r, r)
  | .msetGLong o => let r := Reg.ofLong o; some (formMset r, r)
  | .msetS o => let r := Reg.ofLong o; some (formMset r, r)
  | .msetZ o => let r := Reg.ofLong o; some (formMset r, r)
  | .mgetS o => let r := Reg.ofShort 0 o; some (formMget r, r)
  | .mgetSLong o => let r := Reg.ofLong o; some (formMget r, r)
  | .mgetV o => let r := Reg.ofLong o; some (formMget r, r)
  | .census o => let r := Reg.ofShort 0 o; some (formCensus r, r)
  | .censusLong o => let r := Reg.ofLong o; some (formCensus r, r)
  | .matchV o => let r := Reg.ofShort 0 o; some (formMatch r, r)
  | .matchVLong o => let r := Reg.ofLong o; some (formMatch r, r)
  | .peek o => let r := Reg.ofShort 0 o; some (formPeek e.width r, r)
  | .peekLong o => let r := Reg.ofLong o; some (formPeek e.width r, r)
  | .lane o => let r := Reg.ofShort 0 o; some (formLane r, r)
  | .laneLong o => let r := Reg.ofLong o; some (formLane r, r)
  | .pset o => let r := Reg.ofShort 0 o; some (formPset r, r)
  | .psetLong o => let r := Reg.ofLong o; some (formPset r, r)
  | .plop o => let r := Reg.ofShort 0 o; some (formPlop r, r)
  | .plopLong o => let r := Reg.ofLong o; some (formPlop r, r)
  | .xset o => let r := Reg.ofShort 0 o; some (formXset r, r)
  | .xsetLong o => let r := Reg.ofLong o; some (formXset r, r)
  | .xget o => let r := Reg.ofShort 0 o; some (formXget r, r)
  | .xgetLong o => let r := Reg.ofLong o; some (formXget r, r)
  | .xadd o => let r := Reg.ofShort 0 o; some (formXadd r, r)
  | .xaddLong o => let r := Reg.ofLong o; some (formXadd r, r)
  | .iadd o => let r := Reg.ofShort 0 o; some (formIadd r, r)
  | .iaddLong o => let r := Reg.ofLong o; some (formIadd r, r)
  | .isub o => let r := Reg.ofShort 0 o; some (formIadd r, r)
  | .isubLong o => let r := Reg.ofLong o; some (formIadd r, r)
  | .imul o => let r := Reg.ofShort 0 o; some (formIntB r, r)
  | .imulLong o => let r := Reg.ofLong o; some (formIntB r, r)
  | .imulh o => let r := Reg.ofShort 0 o; some (formImulh r, r)
  | .imulhLong o => let r := Reg.ofLong o; some (formImulh r, r)
  | .imad o => let r := Reg.ofShort 0 o; some (formImad r, r)
  | .imadLong o => let r := Reg.ofLong o; some (formImad r, r)
  | .imin o => let r := Reg.ofShort 0 o; some (formIntB r, r)
  | .iminLong o => let r := Reg.ofLong o; some (formIntB r, r)
  | .imax o => let r := Reg.ofShort 0 o; some (formIntB r, r)
  | .imaxLong o => let r := Reg.ofLong o; some (formIntB r, r)
  | .iabs o => let r := Reg.ofShort 0 o; some (formIabs r, r)
  | .iabsLong o => let r := Reg.ofLong o; some (formIabs r, r)
  | .and o => let r := Reg.ofShort 0 o; some (formLogic r, r)
  | .andLong o => let r := Reg.ofLong o; some (formLogic r, r)
  | .or o => let r := Reg.ofShort 0 o; some (formLogic r, r)
  | .orLong o => let r := Reg.ofLong o; some (formLogic r, r)
  | .xor o => let r := Reg.ofShort 0 o; some (formLogic r, r)
  | .xorLong o => let r := Reg.ofLong o; some (formLogic r, r)
  | .shl o => let r := Reg.ofShort 0 o; some (formLogic r, r)
  | .shlLong o => let r := Reg.ofLong o; some (formLogic r, r)
  | .shr o => let r := Reg.ofShort 0 o; some (formLogic r, r)
  | .shrLong o => let r := Reg.ofLong o; some (formLogic r, r)
  | .sar o => let r := Reg.ofShort 0 o; some (formLogic r, r)
  | .sarLong o => let r := Reg.ofLong o; some (formLogic r, r)
  | .popc o => let r := Reg.ofShort 0 o; some (formUnary r, r)
  | .popcLong o => let r := Reg.ofLong o; some (formUnary r, r)
  | .clz o => let r := Reg.ofShort 0 o; some (formUnary r, r)
  | .clzLong o => let r := Reg.ofLong o; some (formUnary r, r)
  | .bfe o => let r := Reg.ofShort 0 o; some (formBfe r, r)
  | .bfeLong o => let r := Reg.ofLong o; some (formBfe r, r)
  | .bfi o => let r := Reg.ofShort 0 o; some (formThree r, r)
  | .bfiLong o => let r := Reg.ofLong o; some (formThree r, r)
  | .bmix o => let r := Reg.ofShort 0 o; some (formThree r, r)
  | .bmixLong o => let r := Reg.ofLong o; some (formThree r, r)
  | .sel o => let r := Reg.ofShort 0 o; some (formSel r, r)
  | .selLong o => let r := Reg.ofLong o; some (formSel r, r)
  | .mov o => let r := Reg.ofShort 0 o; some (formMov r, r)
  | .movLong o => let r := Reg.ofLong o; some (formMov r, r)
  | .movS o => let r := Reg.ofLong o; some (formMov r, r)
  | .cmp o => let r := Reg.ofShort 0 o; some (formCmp r, r)
  | .cmpLong o => let r := Reg.ofLong o; some (formCmp r, r)
  | .dot4 o => let r := Reg.ofShort 9 o; some (formDot4 r, r)
  | .dot4Long o => let r := Reg.ofLong o; some (formDot4 r, r)
  | .lea o => let r := Reg.ofShort 0 o; some (formLea r, r)
  | .leaLong o => let r := Reg.ofLong o; some (formLea r, r)
  | .iadd3 o => let r := Reg.ofShort 0 o; some (formIadd3 r, r)
  | .iadd3Long o => let r := Reg.ofLong o; some (formIadd3 r, r)
  | .brev o => let r := Reg.ofShort 0 o; some (formUnary r, r)
  | .brevLong o => let r := Reg.ofLong o; some (formUnary r, r)
  | .fadd o => let r := Reg.ofShort 2 o; some (formF2 r, r)
  | .faddLong o => let r := Reg.ofLong o; some (formF2 r, r)
  | .fsub o => let r := Reg.ofShort 2 o; some (formF2 r, r)
  | .fsubLong o => let r := Reg.ofLong o; some (formF2 r, r)
  | .fmul o => let r := Reg.ofShort 2 o; some (formF2 r, r)
  | .fmulLong o => let r := Reg.ofLong o; some (formF2 r, r)
  | .ffma o => let r := Reg.ofShort 2 o; some (formFfma r, r)
  | .ffmaLong o => let r := Reg.ofLong o; some (formFfma r, r)
  | .fmin o => let r := Reg.ofShort 2 o; some (formFmin r, r)
  | .fminLong o => let r := Reg.ofLong o; some (formFmin r, r)
  | .fmax o => let r := Reg.ofShort 2 o; some (formFmin r, r)
  | .fmaxLong o => let r := Reg.ofLong o; some (formFmin r, r)
  | .fcvt o => let r := Reg.ofShort 3 o; some (formFcvt r, r)
  | .fcvtLong o => let r := Reg.ofLong o; some (formFcvt r, r)
  | .i2f o => let r := Reg.ofShort 2 o; some (formI2f r, r)
  | .i2fLong o => let r := Reg.ofLong o; some (formI2f r, r)
  | .f2i o => let r := Reg.ofShort 0 o; some (formF2i r, r)
  | .f2iLong o => let r := Reg.ofLong o; some (formF2i r, r)
  | .pkadd o => let r := Reg.ofShort 11 o; some (formPk r, r)
  | .pkaddLong o => let r := Reg.ofLong o; some (formPk r, r)
  | .pkmul o => let r := Reg.ofShort 11 o; some (formPk r, r)
  | .pkmulLong o => let r := Reg.ofLong o; some (formPk r, r)
  | .pkfma o => let r := Reg.ofShort 11 o; some (formPkfma r, r)
  | .pkfmaLong o => let r := Reg.ofLong o; some (formPkfma r, r)
  | .fclass o => let r := Reg.ofShort 2 o; some (formFclass r, r)
  | .fclassLong o => let r := Reg.ofLong o; some (formFclass r, r)
  | .fscale o => let r := Reg.ofShort 2 o; some (formF2 r, r)
  | .fscaleLong o => let r := Reg.ofLong o; some (formF2 r, r)
  | .frnd o => let r := Reg.ofShort 2 o; some (formFrnd r, r)
  | .frndLong o => let r := Reg.ofLong o; some (formFrnd r, r)
  | .qnt o => let r := Reg.ofShort 13 o; some (formQnt r, r)
  | .qntLong o => let r := Reg.ofLong o; some (formQnt r, r)
  | .frcp o => let r := Reg.ofShort 2 o; some (formSfu r, r)
  | .frcpLong o => let r := Reg.ofLong o; some (formSfu r, r)
  | .frsq o => let r := Reg.ofShort 2 o; some (formSfu r, r)
  | .frsqLong o => let r := Reg.ofLong o; some (formSfu r, r)
  | .fsqrt o => let r := Reg.ofShort 2 o; some (formSfu r, r)
  | .fsqrtLong o => let r := Reg.ofLong o; some (formSfu r, r)
  | .fexp2 o => let r := Reg.ofShort 2 o; some (formSfu r, r)
  | .fexp2Long o => let r := Reg.ofLong o; some (formSfu r, r)
  | .flog2 o => let r := Reg.ofShort 2 o; some (formSfu r, r)
  | .flog2Long o => let r := Reg.ofLong o; some (formSfu r, r)
  | .fsin o => let r := Reg.ofShort 2 o; some (formSfu r, r)
  | .fsinLong o => let r := Reg.ofLong o; some (formSfu r, r)
  | .fcos o => let r := Reg.ofShort 2 o; some (formSfu r, r)
  | .fcosLong o => let r := Reg.ofLong o; some (formSfu r, r)
  | .ftanh o => let r := Reg.ofShort 2 o; some (formSfu r, r)
  | .ftanhLong o => let r := Reg.ofLong o; some (formSfu r, r)
  | .boxt o => let r := Reg.ofShort 2 o; some (formRay 5 24 r, r)
  | .boxtLong o => let r := Reg.ofLong o; some (formRay 5 24 r, r)
  | .trit o => let r := Reg.ofShort 2 o; some (formRay 4 9 r, r)
  | .tritLong o => let r := Reg.ofLong o; some (formRay 4 9 r, r)
  | .segt o => let r := Reg.ofShort 2 o; some (formRay 4 8 r, r)
  | .segtLong o => let r := Reg.ofLong o; some (formRay 4 8 r, r)
  | .bin o => let r := Reg.ofShort 0 o; some (formBin e.binning r, r)
  | .binLong o => let r := Reg.ofLong o; some (formBin e.binning r, r)
  | .tileq o => let r := Reg.ofShort 0 o; some (formTileq (e.tileq (r.xf 0 4)) r, r)
  | .tileqLong o => let r := Reg.ofLong o; some (formTileq (e.tileq (r.xf 0 4)) r, r)
  | .ld o => let r := Reg.ofShort 1 o; some (formLd r, r)
  | .ldLong o => let r := Reg.ofLong o; some (formLd r, r)
  | .st o => let r := Reg.ofShort 1 o; some (formSt r, r)
  | .stLong o => let r := Reg.ofLong o; some (formSt r, r)
  | .lds o => let r := Reg.ofShort 1 o; some (formSpad false r, r)
  | .ldsLong o => let r := Reg.ofLong o; some (formSpad false r, r)
  | .ldsQ o => let r := Reg.ofLong o; some (formFifo false e.fifos r, r)
  | .sts o => let r := Reg.ofShort 1 o; some (formSpad true r, r)
  | .stsLong o => let r := Reg.ofLong o; some (formSpad true r, r)
  | .stsQ o => let r := Reg.ofLong o; some (formFifo true e.fifos r, r)
  | .ldt o => let r := Reg.ofShort 1 o; some (formTile false e.frag r, r)
  | .ldtLong o => let r := Reg.ofLong o; some (formTile false e.frag r, r)
  | .stt o => let r := Reg.ofShort 1 o; some (formTile true e.frag r, r)
  | .sttLong o => let r := Reg.ofLong o; some (formTile true e.frag r, r)
  | .atomAdd o => let r := Reg.ofShort 1 o; some (formAtom r, r)
  | .atomAddLong o => let r := Reg.ofLong o; some (formAtom r, r)
  | .atomMin o => let r := Reg.ofShort 1 o; some (formAtom r, r)
  | .atomMinLong o => let r := Reg.ofLong o; some (formAtom r, r)
  | .atomMax o => let r := Reg.ofShort 1 o; some (formAtom r, r)
  | .atomMaxLong o => let r := Reg.ofLong o; some (formAtom r, r)
  | .atomAnd o => let r := Reg.ofShort 1 o; some (formAtom r, r)
  | .atomAndLong o => let r := Reg.ofLong o; some (formAtom r, r)
  | .atomOr o => let r := Reg.ofShort 1 o; some (formAtom r, r)
  | .atomOrLong o => let r := Reg.ofLong o; some (formAtom r, r)
  | .atomXor o => let r := Reg.ofShort 1 o; some (formAtom r, r)
  | .atomXorLong o => let r := Reg.ofLong o; some (formAtom r, r)
  | .atomExch o => let r := Reg.ofShort 1 o; some (formAtom r, r)
  | .atomExchLong o => let r := Reg.ofLong o; some (formAtom r, r)
  | .atomInc o => let r := Reg.ofShort 1 o; some (formAtom r, r)
  | .atomIncLong o => let r := Reg.ofLong o; some (formAtom r, r)
  | .redAdd o => let r := Reg.ofShort 1 o; some (formRed r, r)
  | .redAddLong o => let r := Reg.ofLong o; some (formRed r, r)
  | .redMin o => let r := Reg.ofShort 1 o; some (formRed r, r)
  | .redMinLong o => let r := Reg.ofLong o; some (formRed r, r)
  | .redMax o => let r := Reg.ofShort 1 o; some (formRed r, r)
  | .redMaxLong o => let r := Reg.ofLong o; some (formRed r, r)
  | .redAnd o => let r := Reg.ofShort 1 o; some (formRed r, r)
  | .redAndLong o => let r := Reg.ofLong o; some (formRed r, r)
  | .redOr o => let r := Reg.ofShort 1 o; some (formRed r, r)
  | .redOrLong o => let r := Reg.ofLong o; some (formRed r, r)
  | .redXor o => let r := Reg.ofShort 1 o; some (formRed r, r)
  | .redXorLong o => let r := Reg.ofLong o; some (formRed r, r)
  | .redDet o => let r := Reg.ofLong o; some (formRedDet r, r)
  | .cas o => let r := Reg.ofShort 1 o; some (formCas r, r)
  | .casLong o => let r := Reg.ofLong o; some (formCas r, r)
  | .fenceMx o => let r := Reg.ofShort 0 o; some (formFence e.ctx r, r)
  | .fenceMxLong o => let r := Reg.ofLong o; some (formFence e.ctx r, r)
  | .fenceAcq o => let r := Reg.ofLong o; some (formFence e.ctx r, r)
  | .fenceRel o => let r := Reg.ofLong o; some (formFence e.ctx r, r)
  | .fenceAr o => let r := Reg.ofLong o; some (formFence e.ctx r, r)
  | .barSync o => let r := Reg.ofShort 0 o; some (formBar e.bars r, r)
  | .barSyncLong o => let r := Reg.ofLong o; some (formBar e.bars r, r)
  | .barArrive o => let r := Reg.ofLong o; some (formBar e.bars r, r)
  | .barWait o => let r := Reg.ofLong o; some (formBar e.bars r, r)
  | .cps o => let r := Reg.ofShort 0 o; some (formCps e.bars r, r)
  | .cpsLong o => let r := Reg.ofLong o; some (formCps e.bars r, r)
  | .prefL1 o => let r := Reg.ofShort 0 o; some (formLine 2 r, r)
  | .prefL1Long o => let r := Reg.ofLong o; some (formLine 2 r, r)
  | .prefDc o => let r := Reg.ofLong o; some (formLine 2 r, r)
  | .cctlWb o => let r := Reg.ofShort 0 o; some (formLine 2 r, r)
  | .cctlWbLong o => let r := Reg.ofLong o; some (formLine 2 r, r)
  | .cctlInv o => let r := Reg.ofLong o; some (formLine 2 r, r)
  | .cctlInvall o => let r := Reg.ofLong o; some (formWhole 2 r, r)
  | .sigSet o => let r := Reg.ofShort 0 o; some (formSig r, r)
  | .sigSetLong o => let r := Reg.ofLong o; some (formSig r, r)
  | .sigAdd o => let r := Reg.ofLong o; some (formSig r, r)
  | .sigSub o => let r := Reg.ofLong o; some (formSig r, r)
  | .rflush o => let r := Reg.ofShort 0 o; some (formLine 1 r, r)
  | .rflushLong o => let r := Reg.ofLong o; some (formLine 1 r, r)
  | .rflushAll o => let r := Reg.ofLong o; some (formWhole 1 r, r)
  | .mxa o => let r := Reg.ofShort 0 o; some (formMxa e.width e.held r, r)
  | .mxaLong o => let r := Reg.ofLong o; some (formMxa e.width e.held r, r)
  | .mxz o => let r := Reg.ofShort 0 o; some ({ formMxz with x := decide (r.xf 0 6 = 0) }, r)
  | .mxzLong o => let r := Reg.ofLong o; some ({ formMxz with x := decide (r.xf 0 6 = 0) }, r)
  | .mxld o => let r := Reg.ofShort 2 o; some (formMxld r, r)
  | .mxldLong o => let r := Reg.ofLong o; some (formMxld r, r)
  | .mxst o => let r := Reg.ofShort 2 o; some (formMxst r, r)
  | .mxstLong o => let r := Reg.ofLong o; some (formMxst r, r)
  | .mxrd o => let r := Reg.ofShort 2 o; some (formMxrw true r, r)
  | .mxrdLong o => let r := Reg.ofLong o; some (formMxrw true r, r)
  | .mxwr o => let r := Reg.ofShort 2 o; some (formMxrw false r, r)
  | .mxwrLong o => let r := Reg.ofLong o; some (formMxrw false r, r)
  | .mxalAlloc o => let r := Reg.ofShort 0 o; some (formMxal false r, r)
  | .mxalAllocLong o => let r := Reg.ofLong o; some (formMxal false r, r)
  | .mxalFree o => let r := Reg.ofLong o; some (formMxal true r, r)
  | .mxep o => let r := Reg.ofShort 0 o; some (formMxep r, r)
  | .mxepLong o => let r := Reg.ofLong o; some (formMxep r, r)
  | .cpyL o => let r := Reg.ofShort 0 o; some (formCpyL e.tags r, r)
  | .cpyLLong o => let r := Reg.ofLong o; some (formCpyL e.tags r, r)
  | .cpyT o => let r := Reg.ofLong o; some (formCpyD e.tags 1 r, r)
  | .cpyX o => let r := Reg.ofLong o; some (formCpyD e.tags 2 r, r)
  | .cpyj o => let r := Reg.ofShort 0 o; some (formCpyD e.tags 0 r, r)
  | .cpyjLong o => let r := Reg.ofLong o; some (formCpyD e.tags 0 r, r)
  | .twaitAll o => let r := Reg.ofShort 0 o; some (formTwait 0 r, r)
  | .twaitAllLong o => let r := Reg.ofLong o; some (formTwait 0 r, r)
  | .twaitAny o => let r := Reg.ofLong o; some (formTwait 1 r, r)
  | .twaitFind o => let r := Reg.ofLong o; some (formTwait 2 r, r)
  | .lnch o => let r := Reg.ofShort 0 o; some (formLnch r, r)
  | .lnchLong o => let r := Reg.ofLong o; some (formLnch r, r)
  | .csrRd o => let r := Reg.ofShort 0 o; some (formCsr 0 r, r)
  | .csrRdLong o => let r := Reg.ofLong o; some (formCsr 0 r, r)
  | .csrWr o => let r := Reg.ofLong o; some (formCsr 1 r, r)
  | .csrSet o => let r := Reg.ofLong o; some (formCsr 2 r, r)
  | .csrClr o => let r := Reg.ofLong o; some (formCsr 3 r, r)
  | .tret o => let r := Reg.ofShort 0 o; some (formTret e.ctx e.agent r, r)
  | .tretLong o => let r := Reg.ofLong o; some (formTret e.ctx e.agent r, r)
  | .rqaRd o => let r := Reg.ofShort 0 o; some (formRqa 0 e.agent r, r)
  | .rqaRdLong o => let r := Reg.ofLong o; some (formRqa 0 e.agent r, r)
  | .rqaWr o => let r := Reg.ofLong o; some (formRqa 1 e.agent r, r)
  | .rqaDrop o => let r := Reg.ofLong o; some (formRqa 2 e.agent r, r)
  | _ => none

/-- A matrix instruction: it takes no guard (R235). -/
def isMatrix : Instr → Bool
  | .mxa _ => true
  | .mxaLong _ => true
  | .mxz _ => true
  | .mxzLong _ => true
  | .mxld _ => true
  | .mxldLong _ => true
  | .mxst _ => true
  | .mxstLong _ => true
  | .mxrd _ => true
  | .mxrdLong _ => true
  | .mxwr _ => true
  | .mxwrLong _ => true
  | .mxalAlloc _ => true
  | .mxalAllocLong _ => true
  | .mxalFree _ => true
  | .mxep _ => true
  | .mxepLong _ => true
  | _ => false

/-- The fields of the formats without operand fields of the register form (R112, R119 to R121, R167 to R174, R188). -/
def plainFieldsOk : Instr → Bool
  | .nop z => decide (z = 0)
  | .nopLong z w1 => decide (z = 0) && decide (w1 = 0)
  | .braLong z _ => decide (z = 0)
  | .callLong z _ => decide (z = 0)
  | .brc p _ _ => decide (p.toNat < 24)
  | .brcLong p _ z _ => decide (z = 0) && decide (p.toNat < 24)
  | .brs sr cc _ => decide (sr.toNat < 24) && decide (cc.toNat < 6)
  | .brsLong sr cc z _ => decide (z = 0) && decide (sr.toNat < 24) && decide (cc.toNat < 6)
  | .sadd o => sopOk o
  | .saddLong o _ => sopLongOk o
  | .ssub o => sopOk o
  | .ssubLong o _ => sopLongOk o
  | .smul o => sopOk o
  | .smulLong o _ => sopLongOk o
  | .sand o => sopOk o
  | .sandLong o _ => sopLongOk o
  | .sor o => sopOk o
  | .sorLong o _ => sopLongOk o
  | .sxor o => sopOk o
  | .sxorLong o _ => sopLongOk o
  | .sshl o => sopOk o
  | .sshlLong o _ => sopLongOk o
  | .sshr o => sopOk o
  | .sshrLong o _ => sopLongOk o
  | .ssar o => sopOk o
  | .ssarLong o _ => sopLongOk o
  | .smin o => sopOk o
  | .sminLong o _ => sopLongOk o
  | .smax o => sopOk o
  | .smaxLong o _ => sopLongOk o
  | .smov o => smovOk o
  | .scmp o => sopRegsOk o && decide (o.imm.toNat < 10)
  | .ssel o => sopRegsOk o && decide (o.imm.toNat < 6)
  | .smovi sd z _ => decide (sd.toNat < 24) && decide (z = 0)
  | .smoviLong sd z _ => decide (sd.toNat < 24) && decide (z = 0)
  | .sld o => scalarMemOk false o
  | .sldLong o _ => scalarMemOk false o && decide (o.imm = 0)
  | .sst o => scalarMemOk true o
  | .sstLong o _ => scalarMemOk true o && decide (o.imm = 0)
  | .ssys sd sa sb sel z => ssysOk sd sa sb sel z
  | .pfx rnd sat z => decide (z = 0) && decide (rnd.toNat ≤ 5) && (decide (rnd ≠ 0) || sat)
  | .moviLong _ z _ => decide (z = 0)
  | _ => true

/-- The fields of an encoded instruction hold what some block, team and clause allow. -/
def fieldsOk (i : Instr) : Bool :=
  match formOf Env.most i with
  | some (F, r) => F.ok r && (!isMatrix i || decide (r.g = 31))
  | none => plainFieldsOk i

/-- The bits that the row fixes among the fields an instruction carries: the op of ATOM, RED and CAS in A[7:5], and the sub-ops of the
long forms in X (R143, R144, R221). -/
def rowBits : Instr → Bool
  | .msetGLong o => decide (bitsN o.x 0 2 = 0)
  | .msetS o => decide (bitsN o.x 0 2 = 1)
  | .msetZ o => decide (bitsN o.x 0 2 = 2)
  | .mgetSLong o => decide (bitsN o.x 0 1 = 0)
  | .mgetV o => decide (bitsN o.x 0 1 = 1)
  | .movLong o => decide (bitsN o.x 0 1 = 0)
  | .movS o => decide (bitsN o.x 0 1 = 1)
  | .ldsLong o => decide (bitsN o.x 4 1 = 0)
  | .ldsQ o => decide (bitsN o.x 4 1 = 1)
  | .stsLong o => decide (bitsN o.x 4 1 = 0)
  | .stsQ o => decide (bitsN o.x 4 1 = 1)
  | .atomAdd o => decide (bitsN o.a 5 3 = 0)
  | .atomAddLong o => decide (bitsN o.a 5 3 = 0)
  | .atomMin o => decide (bitsN o.a 5 3 = 1)
  | .atomMinLong o => decide (bitsN o.a 5 3 = 1)
  | .atomMax o => decide (bitsN o.a 5 3 = 2)
  | .atomMaxLong o => decide (bitsN o.a 5 3 = 2)
  | .atomAnd o => decide (bitsN o.a 5 3 = 3)
  | .atomAndLong o => decide (bitsN o.a 5 3 = 3)
  | .atomOr o => decide (bitsN o.a 5 3 = 4)
  | .atomOrLong o => decide (bitsN o.a 5 3 = 4)
  | .atomXor o => decide (bitsN o.a 5 3 = 5)
  | .atomXorLong o => decide (bitsN o.a 5 3 = 5)
  | .atomExch o => decide (bitsN o.a 5 3 = 6)
  | .atomExchLong o => decide (bitsN o.a 5 3 = 6)
  | .atomInc o => decide (bitsN o.a 5 3 = 7)
  | .atomIncLong o => decide (bitsN o.a 5 3 = 7)
  | .redAdd o => decide (bitsN o.a 5 3 = 0)
  | .redAddLong o => decide (bitsN o.a 5 3 = 0) && decide (bitsN o.x 5 1 = 0)
  | .redMin o => decide (bitsN o.a 5 3 = 1)
  | .redMinLong o => decide (bitsN o.a 5 3 = 1) && decide (bitsN o.x 5 1 = 0)
  | .redMax o => decide (bitsN o.a 5 3 = 2)
  | .redMaxLong o => decide (bitsN o.a 5 3 = 2) && decide (bitsN o.x 5 1 = 0)
  | .redAnd o => decide (bitsN o.a 5 3 = 3)
  | .redAndLong o => decide (bitsN o.a 5 3 = 3) && decide (bitsN o.x 5 1 = 0)
  | .redOr o => decide (bitsN o.a 5 3 = 4)
  | .redOrLong o => decide (bitsN o.a 5 3 = 4) && decide (bitsN o.x 5 1 = 0)
  | .redXor o => decide (bitsN o.a 5 3 = 5)
  | .redXorLong o => decide (bitsN o.a 5 3 = 5) && decide (bitsN o.x 5 1 = 0)
  | .redDet o => decide (bitsN o.x 5 1 = 1)
  | .fenceMxLong o => decide (bitsN o.x 3 2 = 0)
  | .fenceAcq o => decide (bitsN o.x 3 2 = 1)
  | .fenceRel o => decide (bitsN o.x 3 2 = 2)
  | .fenceAr o => decide (bitsN o.x 3 2 = 3)
  | .barSyncLong o => decide (bitsN o.x 0 2 = 0)
  | .barArrive o => decide (bitsN o.x 0 2 = 1)
  | .barWait o => decide (bitsN o.x 0 2 = 2)
  | .prefL1Long o => decide (bitsN o.x 0 1 = 0)
  | .prefDc o => decide (bitsN o.x 0 1 = 1)
  | .cctlWbLong o => decide (bitsN o.x 0 2 = 0)
  | .cctlInv o => decide (bitsN o.x 0 2 = 1)
  | .cctlInvall o => decide (bitsN o.x 0 2 = 2)
  | .sigSetLong o => decide (bitsN o.x 0 2 = 0)
  | .sigAdd o => decide (bitsN o.x 0 2 = 1)
  | .sigSub o => decide (bitsN o.x 0 2 = 2)
  | .rflushLong o => decide (bitsN o.x 0 1 = 0)
  | .rflushAll o => decide (bitsN o.x 0 1 = 1)
  | .mxalAllocLong o => decide (bitsN o.x 0 1 = 0)
  | .mxalFree o => decide (bitsN o.x 0 1 = 1)
  | .cpyLLong o => decide (bitsN o.x 0 2 = 0)
  | .cpyT o => decide (bitsN o.x 0 2 = 1)
  | .cpyX o => decide (bitsN o.x 0 2 = 2)
  | .twaitAllLong o => decide (bitsN o.x 0 2 = 0)
  | .twaitAny o => decide (bitsN o.x 0 2 = 1)
  | .twaitFind o => decide (bitsN o.x 0 2 = 2)
  | .csrRdLong o => decide (bitsN o.x 0 2 = 0)
  | .csrWr o => decide (bitsN o.x 0 2 = 1)
  | .csrSet o => decide (bitsN o.x 0 2 = 2)
  | .csrClr o => decide (bitsN o.x 0 2 = 3)
  | .rqaRdLong o => decide (bitsN o.x 0 2 = 0)
  | .rqaWr o => decide (bitsN o.x 0 2 = 1)
  | .rqaDrop o => decide (bitsN o.x 0 2 = 2)
  | _ => true

end Sys2Proof.Machine
end

