-- ==== Sys2Proof/WellFormed.lean ====
section
/-!
DEFINITION. WellFormed: which instructions stand for words that some clause may execute. The checks themselves are fieldsOk and
rowBits of Machine/Fields.
-/

namespace Sys2Proof

/-- Every field holds what the instruction's form allows (R123 step 4), and the fields hold the bits of the instruction's own row. -/
def Instr.wellFormed (i : Instr) : Bool := Machine.rowBits i && Machine.fieldsOk i

/-- An instruction that has an encoding: it has words. -/
def Instr.encoded (i : Instr) : Bool := decide (encode i ≠ [])

end Sys2Proof
end

