-- ==== Sys2Proof/Safety.lean ====
section
/-!
DEFINITION. Safety: when an instruction issues and does what its meaning says, and how two states of the machine compare: the
terms in which claims are stated. Nothing here is run by the machine.
-/

namespace Sys2Proof.Machine

/-! ## When an instruction issues -/

/-- The executing lanes E of an instruction (R148). -/
def State.lanes (s : State) (r : Reg) : Mask := r.lanes s.me s.grp

/-- The register that operand k (0 D, 1 A, 2 B, 3 C) names in lane l. -/
def State.tgt (s : State) (F : Form) (r : Reg) (k l : Nat) : Nat := tgAt (s.me.targets F r) l k

/-- The lowest unset register that the instruction reads (R51). -/
def State.unset (s : State) (F : Form) (r : Reg) : Option Nat :=
  s.me.unsetRead (F.reads r (s.lanes r) s.grp (s.me.targets F r))

/-- UNINIT as the instruction leaves it (R51). -/
def State.unsetBit (s : State) (F : Form) (r : Reg) : Word := if (s.unset F r).isSome then 1 else 0

/-- The instruction issues in the state: R123 finds nothing, the guard of no lane of the group is poisoned, some lane executes (R148),
no register of it is busy (R28, R56), every indirect operand resolves (R54), and no enabled trap on an unset register is due (R51). -/
def State.runs (s : State) (F : Form) (r : Reg) : Bool :=
  decide (s.refusal F.cls (F.ok r) F.rnd F.sat = none) && decide (r.guardPois s.me s.grp = 0) && decide (s.lanes r ≠ 0) &&
  !s.me.mustWait F r (s.lanes r) s.grp && decide (s.me.failLanes F r (s.lanes r) s.grp = 0) &&
  ((s.unset F r).isNone || !bit s.me.trapEn 0)

/-- A scalar-pipe instruction issues: R123 finds nothing, the team is converged (R31, R165) and its scalar registers are free. -/
def State.runsScalar (s : State) (cls : Nat) (ok : Bool) (regs : List Nat) : Bool :=
  decide (s.refusal cls ok false false = none) && s.me.converged s.grp && !s.me.scalarsBusy regs

/-- No lane of a mask signals an FP exception that the team traps on (R195). -/
def State.quiet (s : State) (e : Mask) (exc : Nat → Exc) : Bool :=
  (lanesOf e).all (fun l => decide (exc l &&& (BitVec.ofNat 6 s.me.trapEn.toNat &&& 0x3E) = 0))

/-- The exceptions of the lanes of a mask together, as TEAM_STICKY takes them (R195). -/
def excBits (e : Mask) (exc : Nat → Exc) : Word :=
  ((lanesOf e).foldl (fun m l => m ||| exc l) (0 : Exc)).zeroExtend 32

/-! ## What an instruction leaves -/

/-- The thread of a lane when the instruction has issued and the group stands at the next one: index registers of indirect operands
modified in the executing lanes (R54), the PC of the group's lanes moved on (R107). -/
def State.onward (s : State) (r : Reg) (l : Nat) : Thread :=
  let th := s.me.thread l
  let th := if r.inds.any (fun p => decide (p.2 ≠ 0)) && (s.lanes r).getLsbD l then r.modified th else th
  if s.grp.getLsbD l then { th with pc := s.ctx.npc, hdr := s.ctx.nhdr } else th

/-- Elements of n registers from D on, in the executing lanes: word j of lane l is `f j l`. -/
def State.into (s : State) (F : Form) (r : Reg) (n : Nat) (f : Nat → Nat → Elem) (reg l : Nat) : Option Elem :=
  if (s.lanes r).getLsbD l && decide (s.tgt F r 0 l ≤ reg) && decide (reg < s.tgt F r 0 l + n) then some (f (reg - s.tgt F r 0 l) l) else none

/-- One element of D in each executing lane. -/
def State.one (s : State) (F : Form) (r : Reg) (f : Nat → Elem) : Nat → Nat → Option Elem := s.into F r 1 (fun _ l => f l)

/-- A 64-bit result in each executing lane, low word in D (R40). -/
def State.two (s : State) (F : Form) (r : Reg) (v : Nat → DWord) (p : Nat → Bool) : Nat → Nat → Option Elem :=
  s.into F r 2 (fun j l => { val := bits (v l) (32 * j) 32, pois := p l })

/-- No vector register written. -/
def noElem : Nat → Nat → Option Elem := fun _ _ => none

/-- No other change of a thread. -/
def sameThread : Nat → Thread → Thread := fun _ th => th

/-- A predicate written in the executing lanes. -/
def State.predIn (s : State) (r : Reg) (n : Nat) (v p : Nat → Bool) (l : Nat) (th : Thread) : Thread :=
  if (s.lanes r).getLsbD l then { th with pval := put24 th.pval n (v l), ppois := put24 th.ppois n (p l) } else th

/-- Index register n in the executing lanes takes a value computed from what it held before the instruction; where an operand of the
instruction also modifies that register, INDEX is what the operand leaves (R54, R176). -/
def State.indexIn (s : State) (r : Reg) (n : Nat) (f : Nat → Word → Word) (l : Nat) (th : Thread) : Thread :=
  if (s.lanes r).getLsbD l then
    let v := f l ((s.me.thread l).x.getD n 0)
    { th with x := putAt 8 0 th.x n (if r.modeOf n = 0 then v else xSetIndex v (bitsN (th.x.getD n 0) 16 8)) }
  else th

/-- The shape tag that the contents of a vector register have under rules 2 to 5 of R48. -/
def Team.shape (t : Team) (n : Nat) : Tag :=
  let lanes := List.range t.width
  let v := fun l => (t.velem n l).val
  if lanes.any (fun l => (t.velem n l).pois) then .general
  else if lanes.all (fun l => decide (v l = v 0)) then .uniform
  else if lanes.all (fun l => decide (v l = v 0 + BitVec.ofNat 32 l * (v 1 - v 0))) then .affine
  else .general

/-- Two lanes write different vector registers (rule 1 of R48). -/
def Scattered (w : Nat → Nat → Option Elem) : Prop := ∃ n k l m, w n k ≠ none ∧ w n l = none ∧ w m l ≠ none

/-- What a register instruction leaves and what it does not touch: of the whole machine only the issuing team changes; of the team only
the elements that `w` names, the threads, which go on (`onward`) and change as `f` says, and TEAM_STICKY, which gains `more`. Every
other element, scalar, mask, flag, entry, trap register, and all of memory stand as before. A register in which no lane writes keeps its
shape tag; one that is written is general where the lanes write different registers, else tagged by its whole contents (R48). -/
structure Effect (s t : State) (r : Reg) (w : Nat → Nat → Option Elem) (f : Nat → Thread → Thread) (more : Word) : Prop where
  machine : t = { s with me := t.me }
  team : t.me = { s.me with vregs := t.me.vregs, threads := t.me.threads, sticky := t.me.sticky }
  elem : ∀ n l, l < s.me.width → t.me.velem n l = (w n l).getD (s.me.velem n l)
  thread : ∀ l, l < s.me.width → t.me.thread l = f l (s.onward r l)
  tag : ∀ n, (∀ l, w n l = none) → t.me.vreg n = s.me.vreg n
  spread : Scattered w → ∀ n l, w n l ≠ none → (t.me.vreg n).tag = .general
  shape : ¬ Scattered w → ∀ n l, w n l ≠ none → (t.me.vreg n).tag = t.me.shape n
  sticky : t.me.sticky = s.me.sticky ||| more

/-- In every state where the instruction issues and `ok` holds, it completes with the effect given. -/
def Completes (i : Instr) (F : Form) (r : Reg) (ok : State → Bool) (w : State → Nat → Nat → Option Elem)
    (f : State → Nat → Thread → Thread) (more : State → Word) : Prop :=
  ∀ s : State, s.runs F r = true → ok s = true →
    ∃ t, exec i s = .next t ∧ Effect s t r (w s) (f s) (s.unsetBit F r ||| more s)

/-- One 32-bit result in each executing lane, and nothing else. -/
def Computes (i : Instr) (F : Form) (r : Reg) (v : State → Nat → Elem) : Prop :=
  Completes i F r (fun _ => true) (fun s => s.one F r (v s)) (fun _ => sameThread) (fun _ => 0)

/-- In every state where the instruction issues and `ok` holds, a predicate is written in each executing lane, with its poison. -/
def SetsPred (i : Instr) (F : Form) (r : Reg) (n : Nat) (ok : State → Bool) (v p : State → Nat → Bool) (more : State → Word) : Prop :=
  Completes i F r ok (fun _ => noElem) (fun s => s.predIn r n (v s) (p s)) more

/-- A statement about an instruction's short form, whose type is T, and its long form. -/
def Both (short : ShortOps → Instr) (long : LongOps → Instr) (T : Nat) (P : Instr → Reg → Prop) : Prop :=
  (∀ o, P (short o) (Reg.ofShort T o)) ∧ (∀ o, P (long o) (Reg.ofLong o))

/-- Operand k of lane l (1 A, 2 B, 3 C). -/
def State.opnd (s : State) (F : Form) (r : Reg) (k l : Nat) : Elem := s.me.velem (s.tgt F r k l) l

/-- Word j of the run that operand k names in lane l. -/
def State.opndAt (s : State) (F : Form) (r : Reg) (k j l : Nat) : Elem := s.me.velem (s.tgt F r k l + j) l

/-- b of lane l: the register, or under IMM the sign-extended field (R181). -/
def State.opndB (s : State) (F : Form) (r : Reg) (l : Nat) : Elem :=
  if r.xb 5 then Elem.ofWord (BitVec.ofInt 32 (sextN 8 r.b)) else s.opnd F r 2 l

/-- ext_t of operand k of lane l (R182). -/
def State.intOpnd (s : State) (F : Form) (r : Reg) (k l : Nat) : Int := extInt r.t (s.opnd F r k l).val.toNat

/-- ext_t of b of lane l: the register or the immediate (R181, R182). -/
def State.intOpndB (s : State) (F : Form) (r : Reg) (l : Nat) : Int := extInt r.t (s.opndB F r l).val.toNat

/-- A float operand of the instruction's type, FI applied (R62, R71). -/
def State.fltOpnd (s : State) (F : Form) (r : Reg) (k l : Nat) : FV := FV.of r.t r.fi (s.opnd F r k l)

/-- A 32-bit integer result of ext_t values of A and of B or the immediate (R182, R184). -/
def IntPair (f : Bool → Nat → Int → Int → Word) (form : Reg → Form) (i : Instr) (r : Reg) : Prop :=
  Computes i (form r) r (fun s l =>
    res (f s.ctx.sat r.t (s.intOpnd (form r) r 1 l) (s.intOpndB (form r) r l)) [s.opnd (form r) r 1 l, s.opndB (form r) r l])

/-- A result of the raw words of A and of B or the immediate (R185). -/
def WordPair (f : Word → Word → Word) (i : Instr) (r : Reg) : Prop :=
  Computes i (formLogic r) r (fun s l =>
    res (f (s.opnd (formLogic r) r 1 l).val (s.opndB (formLogic r) r l).val) [s.opnd (formLogic r) r 1 l, s.opndB (formLogic r) r l])

/-- A result of the raw word of A. -/
def WordOne (f : Word → Word) (i : Instr) (r : Reg) : Prop :=
  Computes i (formUnary r) r (fun s l => res (f (s.opnd (formUnary r) r 1 l).val) [s.opnd (formUnary r) r 1 l])

/-- A result of the raw words of A, B and C. -/
def WordThree (f : Word → Word → Word → Word) (form : Reg → Form) (i : Instr) (r : Reg) : Prop :=
  Computes i (form r) r (fun s l =>
    res (f (s.opnd (form r) r 1 l).val (s.opnd (form r) r 2 l).val (s.opnd (form r) r 3 l).val)
      [s.opnd (form r) r 1 l, s.opnd (form r) r 2 l, s.opnd (form r) r 3 l])

/-- A floating-point result of each lane with its exceptions (R194, R195): no enabled exception is signalled, the results are written and
TEAM_STICKY gains the exceptions of the lanes with no poisoned source. -/
def FloatResult (i : Instr) (F : Form) (r : Reg) (v : State → Nat → FRes) (p : State → Nat → Bool) : Prop :=
  Completes i F r (fun s => s.quiet (s.lanes r) (fun l => if p s l then 0 else (v s l).exc))
    (fun s => s.one F r (fun l => { val := BitVec.ofNat 32 (v s l).bits, pois := p s l })) (fun _ => sameThread)
    (fun s => excBits (s.lanes r) (fun l => if p s l then 0 else (v s l).exc))

/-- Where an enabled FP exception is signalled in some executing lane, the trap 0x12 is taken with those lanes and the union of the
exceptions, and the instruction has no other effect (R195). -/
def FloatTraps (i : Instr) (F : Form) (r : Reg) (v : State → Nat → FRes) (p : State → Nat → Bool) : Prop :=
  ∀ s : State, s.runs F r = true → s.quiet (s.lanes r) (fun l => if p s l then 0 else (v s l).exc) = false →
    exec i s = .next (s.trapNow 0x12
      (maskOf 64 (fun l => (s.lanes r).getLsbD l &&
        decide ((if p s l then (0 : Exc) else (v s l).exc) &&& (BitVec.ofNat 6 s.me.trapEn.toNat &&& 0x3E) ≠ 0)))
      ((excBits (s.lanes r) (fun l => if p s l then 0 else (v s l).exc)).zeroExtend 64) 0 0)

/-- The five scalar formats (R62). -/
def formats : List Fmt := [fmtF32, fmtF16, fmtBF16, fmtE4M3, fmtE5M2]

/-- A positive exact value n / d × 2^e that lies in [2^k, 2^(k+1)) is rounded once (R70 to R72, R194). The spacing of the format there is 2^q,
`m` the multiple of it that the mode picks and `x` that value in units of 2^-149. Below the format's largest value, x is written with its sign,
or flushed under FO; above, what row 3 of R72 gives. OF is overflow, NX a written value that is not the exact one, UF an inexact one whose
rounding with an unbounded exponent is below the smallest normal. -/
def Rnd.RoundsOnce (o : Rnd) (neg : Bool) (n d : Nat) (e k : Int) : Prop :=
  let f := o.f
  let q : Int := max (k - f.man) (1 - f.bias - f.man)
  let v := scale2 n d (e - q)
  let m := roundDiv o.mode neg v.1 v.2
  let x := m * 2 ^ (q + 149).toNat
  let w := scale2 n d (e - (k - f.man))
  let carry : Int := if roundDiv o.mode neg w.1 w.2 = 2 ^ (f.man + 1) then 1 else 0
  let flushed := o.fo = true ∧ 0 < x ∧ x < f.minNormal
  let off := flushed ∨ m * v.2 ≠ v.1
  let res := o.round neg n d e
  ∃ big, f.decode f.maxBits = .fin false big ∧
    (x ≤ big → ¬ flushed → f.decode res.bits = .fin neg x) ∧ (x ≤ big → flushed → f.decode res.bits = .fin neg 0) ∧
    (big < x → res.bits =
      if o.sat then f.sign neg + f.maxBits
      else if f.inf = false then f.nan
      else if o.mode = 2 ∨ (o.mode = 3 ∧ neg = true) ∨ (o.mode = 4 ∧ neg = false) then f.sign neg + f.maxBits
      else f.sign neg + f.infBits) ∧
    (res.exc &&& excOF ≠ 0 ↔ big < x) ∧ (res.exc &&& excNX ≠ 0 ↔ big < x ∨ off) ∧
    (res.exc &&& excUF ≠ 0 ↔ x ≤ big ∧ off ∧ k + carry < 1 - f.bias) ∧ res.exc &&& (excNV ||| excDZ) = 0

/-- A floating-point instruction: its results where no enabled exception is signalled, its trap where one is. -/
def FloatOp (i : Instr) (F : Form) (r : Reg) (v : State → Nat → FRes) (p : State → Nat → Bool) : Prop :=
  FloatResult i F r v p ∧ FloatTraps i F r v p

/-- A float operation of the operands A, B and C as far as the form has them, rounded as X[2:0], .sat and FO say (R193). -/
def FloatArith (form : Reg → Form) (n : Nat) (f : Rnd → FV → FV → FV → FRes) (i : Instr) (r : Reg) : Prop :=
  FloatOp i (form r) r
    (fun s l => f (s.rndX r (fmtOf r.t)) (s.fltOpnd (form r) r 1 l) (s.fltOpnd (form r) r 2 l) (s.fltOpnd (form r) r 3 l))
    (fun s l => (List.range n).any (fun k => (s.opnd (form r) r (k + 1) l).pois))

/-- A packed operation of the halves of A, B and C (R198). -/
def PackedArith (form : Reg → Form) (n : Nat) (f : Rnd → FV → FV → FV → FRes) (i : Instr) (r : Reg) : Prop :=
  let one := fun (s : State) (l h : Nat) => f (s.rndX r (pkFmt r)) (half r (s.opnd (form r) r 1 l) h)
    (half r (s.opnd (form r) r 2 l) (bsel r h)) (half r (s.opnd (form r) r 3 l) h)
  FloatOp i (form r) r
    (fun s l => { bits := (one s l 0).bits + 2 ^ 16 * (one s l 1).bits, exc := (one s l 0).exc ||| (one s l 1).exc })
    (fun s l => (List.range n).any (fun k => (s.opnd (form r) r (k + 1) l).pois))

/-- A ray test: n result words from a run of 8 and a run of m inputs, poisoned by any of them (R204). -/
def RayTest (n m : Nat) (f : List FV → List FV → List Word) (i : Instr) (r : Reg) : Prop :=
  let F := formRay n m r
  let run := fun (s : State) (k c l : Nat) => (List.range c).map (fun j => FV.of 2 r.fi (s.opndAt F r k j l))
  let p := fun (s : State) (l : Nat) => (List.range 8).any (fun j => (s.opndAt F r 1 j l).pois) || (List.range m).any (fun j => (s.opndAt F r 2 j l).pois)
  Completes i F r (fun _ => true) (fun s => s.into F r n (fun j l => { val := (f (run s 1 8 l) (run s 2 m l)).getD j 0, pois := p s l }))
    (fun _ => sameThread) (fun _ => 0)

/-- An instruction with no guard and no vector operand, taken as a register form: its executing lanes are the group. -/
def plainReg : Reg := Reg.ofShort 0 { d := 0, a := 0, b := 0 }

/-- The target of a branch: the header of its clause and 8 times the offset (R150). -/
def State.branchTarget (s : State) {n : Nat} (off : BitVec n) : BitVec 57 := s.ctx.hdr + BitVec.ofInt 57 (8 * off.toInt)

/-- An instruction moves the group's lanes, those that `take` names to `to`, the others to the next clause, and does nothing else. -/
def Branches (i : Instr) (s : State) (take : Nat → Bool) (dest : BitVec 57) : Prop :=
  ∃ t, exec i s = .next t ∧ Effect s t plainReg noElem
    (fun l th => if s.grp.getLsbD l && take l then { th with pc := dest, hdr := dest } else th) 0

/-- Scalar registers written with their poison, the group moved on, and nothing else changed but UNINIT, which `more` joins. -/
structure ScalarLeft (s t : State) (r : Reg) (w : Nat → Option Elem) (more : Word) : Prop where
  machine : t = { s with me := t.me }
  team : t.me = { s.me with sregs := t.me.sregs, threads := t.me.threads, sticky := s.me.sticky ||| more }
  scalar : ∀ k, k < 24 → t.me.sreg k = (w k).getD (s.me.sreg k)
  thread : ∀ l, l < s.me.width → t.me.thread l = s.onward r l

/-- An instruction writes scalar registers and does nothing else. -/
def ScalarEffect (i : Instr) (s : State) (r : Reg) (w : Nat → Option Elem) (more : Word) : Prop :=
  ∃ t, exec i s = .next t ∧ ScalarLeft s t r w more

/-- One scalar register written. -/
def ScalarResult (i : Instr) (s : State) (n : Nat) (e : Elem) : Prop :=
  ScalarEffect i s plainReg (fun k => if k = n then some e else none) 0

/-- A pair of scalar registers written, low word first (R40). -/
def pairOf (n : Nat) (v : DWord) (k : Nat) : Option Elem :=
  if k = n then some { val := bits v 0 32, pois := false } else if k = n + 1 then some { val := bits v 32 32, pois := false } else none

/-- A scalar operation of two sources: in its one-word form the second is a register, or the 4-bit immediate under sb 31; in its
two-word form it is W1 (R167, R169). -/
def ScalarPair (short : SOps → Instr) (long : SOps → Word → Instr) (f : Word → Word → Word) : Prop :=
  (∀ (o : SOps) (s : State), s.runsScalar 0 (sopOk o) [o.sd.toNat, o.sa.toNat, o.sb.toNat] = true →
    let a := s.me.sreg o.sa.toNat
    let b := if o.sb.toNat = 31 then Elem.ofWord (o.imm.zeroExtend 32) else s.me.sreg o.sb.toNat
    ScalarResult (short o) s o.sd.toNat { val := f a.val b.val, pois := a.pois || b.pois }) ∧
  (∀ (o : SOps) (w1 : Word) (s : State), s.runsScalar 0 (sopLongOk o) [o.sd.toNat, o.sa.toNat] = true →
    let a := s.me.sreg o.sa.toNat
    ScalarResult (long o w1) s o.sd.toNat { val := f a.val w1, pois := a.pois })

/-- Every live lane that the mask `v` names, and there is one, waits as `waits` says (R157). -/
def State.gathered (s : State) (v : Mask) (waits : Nat → Bool) : Bool :=
  let named := fun l => v.getLsbD l && !(s.me.thread l).exited
  (List.range s.me.width).any named && (List.range s.me.width).all (fun l => !named l || waits l)

/-- A lane waits on mask register n. -/
def State.waitsOn (s : State) (n l : Nat) : Bool := (s.me.thread l).waiting && decide ((s.me.thread l).wmask.toNat = n)

/-- A mask register written in every state where the instruction issues and `ok` holds, bits at or above the width read as zero (R41):
the lanes that then wait on it together are released to the address after their WAITM (R157), the group goes on, and nothing else
changes. -/
def SetsMask (i : Instr) (F : Form) (r : Reg) (n : Nat) (ok : State → Bool) (v : State → Mask) : Prop :=
  ∀ s : State, s.runs F r = true → ok s = true →
    ∃ t, exec i s = .next t ∧ t = { s with me := t.me } ∧
      t.me = { s.me with mregs := t.me.mregs, threads := t.me.threads, sticky := s.me.sticky ||| s.unsetBit F r } ∧
      (∀ k, k < 12 → t.me.mreg k = if k = n then v s &&& fullMask s.me.width else s.me.mreg k) ∧
      (∀ l, l < s.me.width → t.me.thread l =
        let th := s.onward r l
        if s.gathered (v s) (s.waitsOn n) && (v s).getLsbD l && !th.exited then
          (if s.grp.getLsbD l then { th with waiting := false } else { th with waiting := false, pc := th.rpc, hdr := th.rhdr })
        else th)

/-- An instruction has issued and stands in its team's replay queue as the entry `e` (R113, R211): of the whole machine only the team
changes, and of the team only the queue, which ends with the entry, the issue count, the flags that the entry counts on, the threads,
which go on, and UNINIT. -/
structure Queued (s t : State) (r : Reg) (e : Entry) (more : Word) : Prop where
  machine : t = { s with me := t.me }
  team : t.me = { s.me with entries := s.me.entries ++ [e], nextOrder := s.me.nextOrder + 1, flags := (s.me.incFlags e.fla e.flb).flags,
                            threads := t.me.threads, sticky := s.me.sticky ||| more }
  thread : ∀ l, l < s.me.width → t.me.thread l = s.onward r l

/-- An access as R208 to R212 describe it: the registers of its base, its other poisoned lanes, its addresses and what they must be a
multiple of, what the entry is to do, the data that it takes along and the registers that it keeps busy. -/
structure Access where
  bregs : List Nat
  bad : State → Nat → Bool
  addr : State → Nat → DWord
  align : Nat
  work : State → Work
  data : State → Nat → List Word := fun _ _ => []
  busy : State → List Nat := fun _ => []

/-- The base registers are poisoned. -/
def Access.basePois (x : Access) (s : State) : Bool := x.bregs.any (fun n => (s.me.sreg n).pois)

/-- An entry that holds an access of the instruction at issue: its lanes, addresses, data and busy registers, the flags it counts on,
with no lane refused and no page waited for (R211, R413). -/
structure Holds (s : State) (r : Reg) (e : Entry) (x : Access) : Prop where
  order : e.order = s.me.nextOrder
  lanes : e.lmask = s.lanes r ∧ e.emask = s.lanes r
  flags : e.fla = s.ctx.selA r.fsel ∧ e.flb = s.ctx.selB r.fsel
  work : e.work = x.work s
  addr : ∀ l, l < s.me.width → e.addr.getD l 0 = x.addr s l
  data : ∀ l, l < s.me.width → (s.lanes r).getLsbD l = true → e.data.getD l [] = x.data s l
  busy : e.busy = x.busy s ∧ e.sbusy = []
  fresh : e.waits = [] ∧ e.refused = 0 ∧ e.dropped = false ∧ e.priv = s.me.priv

/-- A memory instruction in every state where it issues, its base registers are free, the queue and its flags have room and `ok` holds:
row 1 of R212 where a register it reads is poisoned, row 2 where an address is misaligned, and else its entry in the queue. -/
def Accesses (i : Instr) (F : Form) (r : Reg) (ok : State → Bool) (x : Access) : Prop :=
  ∀ s : State, s.runs F r = true → s.me.scalarsBusy x.bregs = false → s.queueRoom r.fsel = true → ok s = true →
    let bad := maskOf s.me.width (fun l => (s.lanes r).getLsbD l && x.bad s l)
    let mis := maskOf s.me.width (fun l => (s.lanes r).getLsbD l && decide ((x.addr s l).toNat % x.align ≠ 0))
    (x.basePois s = true → exec i s = .next (s.trapNow 0x08 (s.lanes r) 0 0 0)) ∧
    (x.basePois s = false → bad ≠ 0 → exec i s = .next (s.trapNow 0x08 bad 0 0 0)) ∧
    (x.basePois s = false → bad = 0 → mis ≠ 0 → exec i s = .next (s.trapNow 0x09 mis 0 (x.addr s (lowLane mis)) 0)) ∧
    (x.basePois s = false → bad = 0 → mis = 0 → ∃ t e, exec i s = .next t ∧ Queued s t r e (s.unsetBit F r) ∧ Holds s r e x)

/-- Some element of a run of n registers at operand k is poisoned in a lane. -/
def State.runPois (s : State) (F : Form) (r : Reg) (k n l : Nat) : Bool := (List.range n).any (fun j => (s.opndAt F r k j l).pois)

/-- The words of a run of n registers at operand k in a lane. -/
def State.runData (s : State) (F : Form) (r : Reg) (k n l : Nat) : List Word := (List.range n).map (fun j => (s.opndAt F r k j l).val)

/-- The address of R209 and R217: base, offset register when `vo`, immediate; 64 bits in global memory, 32 bits as an offset. -/
def State.addrOf (s : State) (F : Form) (r : Reg) (glob vo : Bool) (imm : Int) (l : Nat) : DWord :=
  let b := (s.opnd F r 2 l).val
  let a : Int := (s.me.baseOf r glob : Int) + (if vo then (if glob then b.toInt else (b.toNat : Int)) else 0) + imm
  if glob then BitVec.ofInt 64 a else BitVec.ofInt 64 (a % 2 ^ 32)

/-- A load's or a store's access. -/
def loadAccess (form : Reg → Form) (glob : Bool) (m : MemOp) (r : Reg) : Access :=
  { bregs := r.baseRegs glob, bad := fun s l => r.vo && (s.opnd (form r) r 2 l).pois
    addr := fun s l => s.addrOf (form r) r glob r.vo (r.imm (m.esz * m.cnt)) l, align := m.esz * m.cnt, work := fun _ => .load m
    busy := fun s => s.me.dstBusy r (s.lanes r) m.cnt (s.me.targets (form r) r) }

/-- A store's access: its data is read at issue. -/
def storeAccess (form : Reg → Form) (glob : Bool) (m : MemOp) (r : Reg) : Access :=
  { bregs := r.baseRegs glob, bad := fun s l => (r.vo && (s.opnd (form r) r 2 l).pois) || s.runPois (form r) r 0 m.cnt l
    addr := fun s l => s.addrOf (form r) r glob r.vo (r.imm (m.esz * m.cnt)) l, align := m.esz * m.cnt, work := fun _ => .store m
    data := fun s l => s.runData (form r) r 0 m.cnt l }

/-- An atomic's access: n words of data at C, a result in D under `res`. -/
def atomAccess (F : Form) (n : Nat) (res : Bool) (w : Work) (r : Reg) : Access :=
  { bregs := r.baseRegs (decide (r.base ≠ 30)), bad := fun s l => (s.opnd F r 2 l).pois || s.runPois F r 3 n l
    addr := fun s l => s.addrOf F r (decide (r.base ≠ 30)) true 0 l, align := esize r.t, work := fun _ => w
    data := fun s l => s.runData F r 3 n l, busy := fun s => if res then s.me.dstBusy r (s.lanes r) 1 (s.me.targets F r) else [] }

/-- An access of whole lines or of nothing: no data, no alignment. -/
def lineAccess (F : Form) (w : Work) (r : Reg) : Access :=
  { bregs := r.baseRegs true, bad := fun s l => r.vo && (s.opnd F r 2 l).pois
    addr := fun s l => s.addrOf F r true r.vo (r.imm 4) l, align := 1, work := fun _ => w }

/-- An instruction with no address puts one entry into the queue whenever it issues and there is room. -/
def Enters (i : Instr) (F : Form) (r : Reg) (w : Work) : Prop :=
  ∀ s : State, s.runs F r = true → s.queueRoom r.fsel = true →
    ∃ t e, exec i s = .next t ∧ Queued s t r e (s.unsetBit F r) ∧ e.order = s.me.nextOrder ∧ e.lmask = s.lanes r ∧ e.emask = s.lanes r ∧
      e.fla = s.ctx.selA r.fsel ∧ e.flb = s.ctx.selB r.fsel ∧ e.work = w ∧ e.busy = [] ∧ e.sbusy = [] ∧ e.waits = [] ∧ e.dropped = false

/-! ## Asynchronous and matrix instructions -/

/-- The core of the issuing team keeps no record for engine replay (R432). -/
def State.unlogged (s : State) : Bool := !bit ((s.core s.me.die s.me.core).reg 0x503) 0

/-- A matrix instruction issues (R32, R123): every lane of the team is live and in the group. -/
def State.runsMatrix (s : State) (F : Form) (r : Reg) : Bool :=
  s.runs F r && decide (r.g = 31) && decide (s.grp = fullMask s.me.width) && decide (s.me.live = s.grp)

/-- A matrix instruction stands in the queue with its tile busy, and nothing else of the machine changes but the A-latch. -/
structure OnTile (s t : State) (r : Reg) (e : Entry) (b : Block) (a : AccTile) (tile : Nat) (more : Word) : Prop where
  blocks : t.blocks = s.blocks.map (fun c => if c.id = b.id then { b with acc := setAt b.acc tile { a with busy := true } } else c)
  queued : Queued s { t with blocks := s.blocks, me := { t.me with latch := s.me.latch } } r e more
  lanes : e.lmask = s.lanes r ∧ e.emask = s.lanes r ∧ e.fla = s.ctx.selA r.fsel ∧ e.flb = s.ctx.selB r.fsel

/-- A matrix instruction with operation number `op` on a tile: in every state where it issues with room, its operands are as `ok` says and
nothing is logged for replay, it stands in the queue with its tile busy and what `holds` says; where the tile is not allocated, it takes
trap 0x14 with SUB 3 (R247, R250). -/
def TileQueues (i : Instr) (F : State → Form) (r : Reg) (op tile : Nat) (ok : State → Bool) (holds : State → State → Entry → Prop) : Prop :=
  ∀ s : State, s.runsMatrix (F s) r = true → ok s = true →
    (∀ (b : Block) (a : AccTile), s.block s.me.block = some b → b.acc[tile]? = some a → a.busy = false → s.queueRoom r.fsel = true →
      s.unlogged = true →
      ∃ t e, exec i s = .next t ∧ OnTile s t r e b a tile (s.unsetBit (F s) r) ∧ e.work = .matrix op r.x r.t r.c tile ∧ holds s t e) ∧
    (s.myBlock.acc[tile]? = none → exec i s = .next (s.trapNow 0x14 s.grp 0 0 3))

/-! ## Memory -/

/-- The sparse tables that hold memory are in canonical form: memory at home, the bytes that cores and dies wrote, the lines that cores
hold, and the tables of cores and dies themselves. -/
def State.tidy (s : State) : Bool :=
  Memory.wf s.mem && tabWf s.cores && tabWf s.dies && s.cores.all (fun p => tabWf p.2.dirty && tabWf p.2.clean) &&
  s.dies.all (fun p => tabWf p.2.dirty)

/-- A byte of n bytes written at an address, or what stood there. -/
def wrote (a : Nat) (bs : List Byte) (x : Nat) (old : Byte) : Byte := if a ≤ x ∧ x < a + bs.length then bs.getD (x - a) 0 else old

/-- The mask names one lane only. -/
def onlyLane (m : Mask) (l : Nat) : Prop := ∀ k, m.getLsbD k = decide (k = l)

/-- A team with an entry complete: the entry is gone from its queue and off its flags, and nothing else differs but what its vector and
scalar registers hold (R92, R113). -/
structure Completed (t u : Team) (e : Entry) : Prop where
  queue : u.entries = t.entries.filter (fun x => decide (x.order ≠ e.order))
  flags : u.flags = decCounts t.flags e.fla e.flb
  rest : u = { t with entries := u.entries, flags := u.flags, vregs := u.vregs, sregs := u.sregs }

end Sys2Proof.Machine
end

