-- ==== Sys2Proof/Certificates/Slice0/Obligations.lean ====
section
/-!
DEFINITION. Certificates/Slice0/Obligations: the statements about the machine, in the order of OBLIGATIONS.json. The terms they
use that the model does not define are in Safety.
-/

open Sys2Proof Sys2Proof.Machine

/-- BRA, BRC and BRS (R150, R151). -/
def Obligations.BranchesMoveTheGroup : Prop :=
  (∀ (off : BitVec 24) (s : State), s.refusal 7 true false false = none → Branches (.bra off) s (fun _ => true) (s.branchTarget off)) ∧
  (∀ (z : BitVec 24) (w1 : Word) (s : State), s.refusal 7 (decide (z = 0)) false false = none →
    Branches (.braLong z w1) s (fun _ => true) (s.branchTarget w1)) ∧
  (∀ (p : BitVec 5) (neg : Bool) (off : BitVec 18) (s : State), s.refusal 7 (decide (p.toNat < 24)) false false = none →
    (∀ l, l < s.me.width → s.grp.getLsbD l = true → s.me.predPois p.toNat l = false) →
    Branches (.brc p neg off) s (fun l => s.me.pred p.toNat l != neg) (s.branchTarget off)) ∧
  (∀ (p : BitVec 5) (neg : Bool) (z : BitVec 18) (w1 : Word) (s : State), s.refusal 7 (decide (z = 0) && decide (p.toNat < 24)) false false = none →
    (∀ l, l < s.me.width → s.grp.getLsbD l = true → s.me.predPois p.toNat l = false) →
    Branches (.brcLong p neg z w1) s (fun l => s.me.pred p.toNat l != neg) (s.branchTarget w1)) ∧
  (∀ (sr : BitVec 5) (cc : BitVec 3) (off : BitVec 16) (s : State), s.refusal 7 (decide (sr.toNat < 24) && decide (cc.toNat < 6)) false false = none →
    s.me.scalarsBusy [sr.toNat] = false → (s.me.sreg sr.toNat).pois = false →
    Branches (.brs sr cc off) s (fun _ => scalarCond cc.toNat (s.me.sreg sr.toNat).val) (s.branchTarget off)) ∧
  (∀ (sr : BitVec 5) (cc : BitVec 3) (z : BitVec 16) (w1 : Word) (s : State),
    s.refusal 7 (decide (z = 0) && decide (sr.toNat < 24) && decide (cc.toNat < 6)) false false = none →
    s.me.scalarsBusy [sr.toNat] = false → (s.me.sreg sr.toNat).pois = false →
    Branches (.brsLong sr cc z w1) s (fun _ => scalarCond cc.toNat (s.me.sreg sr.toNat).val) (s.branchTarget w1)) ∧
  (∀ (p : BitVec 5) (neg : Bool) (off : BitVec 18) (s : State) (m : Mask), s.refusal 7 (decide (p.toNat < 24)) false false = none →
    (∀ l, m.getLsbD l = (decide (l < s.me.width) && s.grp.getLsbD l && s.me.predPois p.toNat l)) → m ≠ 0 →
    exec (.brc p neg off) s = .next (s.trapNow 0x08 m 0 0 0)) ∧
  (∀ (p : BitVec 5) (neg : Bool) (z : BitVec 18) (w1 : Word) (s : State) (m : Mask), s.refusal 7 (decide (z = 0) && decide (p.toNat < 24)) false false = none →
    (∀ l, m.getLsbD l = (decide (l < s.me.width) && s.grp.getLsbD l && s.me.predPois p.toNat l)) → m ≠ 0 →
    exec (.brcLong p neg z w1) s = .next (s.trapNow 0x08 m 0 0 0)) ∧
  (∀ (sr : BitVec 5) (cc : BitVec 3) (off : BitVec 16) (s : State), s.refusal 7 (decide (sr.toNat < 24) && decide (cc.toNat < 6)) false false = none →
    s.me.scalarsBusy [sr.toNat] = false → (s.me.sreg sr.toNat).pois = true → exec (.brs sr cc off) s = .next (s.trapNow 0x08 s.grp 0 0 0)) ∧
  (∀ (sr : BitVec 5) (cc : BitVec 3) (z : BitVec 16) (w1 : Word) (s : State),
    s.refusal 7 (decide (z = 0) && decide (sr.toNat < 24) && decide (cc.toNat < 6)) false false = none →
    s.me.scalarsBusy [sr.toNat] = false → (s.me.sreg sr.toNat).pois = true → exec (.brsLong sr cc z w1) s = .next (s.trapNow 0x08 s.grp 0 0 0))

/-- CALL, RET and JMPI (R150, R152). -/
def Obligations.CallsAndJumps : Prop :=
  let ra := fun (s : State) (reg l : Nat) =>
    if s.grp.getLsbD l && decide (reg = 254) then some { val := bits (s.ctx.npc.zeroExtend 64 : DWord) 0 32, pois := false }
    else if s.grp.getLsbD l && decide (reg = 255) then some { val := bits (s.ctx.npc.zeroExtend 64 : DWord) 32 32, pois := false }
    else none
  let goes := fun (s : State) (dest : BitVec 57) (l : Nat) (th : Thread) => if s.grp.getLsbD l then { th with pc := dest, hdr := dest } else th
  let free := fun (s : State) => decide (∀ v ∈ s.me.busyVec ++ s.me.absent, v < 254)
  let dest := fun (s : State) (r : Reg) (l : Nat) => (s.opndAt (formJump r) r 1 1 l).val ++ (s.opndAt (formJump r) r 1 0 l).val
  let fine := fun (r : Reg) (s : State) => (List.range s.me.width).all (fun l => !(s.lanes r).getLsbD l ||
    (!(s.opndAt (formJump r) r 1 0 l).pois && !(s.opndAt (formJump r) r 1 1 l).pois && decide ((dest s r l).toNat % 8 = 0) && decide ((dest s r l).toNat < 2 ^ 57)))
  let jump := fun (i : Instr) (r : Reg) => Completes i (formJump r) r (fine r) (fun _ => noElem)
    (fun s l th => if (s.lanes r).getLsbD l then { th with pc := bits (dest s r l) 0 57, hdr := bits (dest s r l) 0 57 } else th) (fun _ => 0)
  let meets := fun (s : State) (r : Reg) (f : Nat → Bool) => maskOf s.me.width (fun l => (s.lanes r).getLsbD l && f l)
  let traps := fun (i : Instr) (r : Reg) => ∀ s : State, s.runs (formJump r) r = true →
    let bad := meets s r (fun l => (s.opndAt (formJump r) r 1 0 l).pois || (s.opndAt (formJump r) r 1 1 l).pois)
    let mis := meets s r (fun l => decide ((dest s r l).toNat % 8 ≠ 0))
    let far := meets s r (fun l => decide (2 ^ 57 ≤ (dest s r l).toNat))
    (bad ≠ 0 → exec i s = .next (s.trapNow 0x08 bad 0 0 0)) ∧
    (bad = 0 → mis ≠ 0 → exec i s = .next (s.trapNow 0x09 mis 0 (dest s r (lowLane mis)) 0)) ∧
    (bad = 0 → mis = 0 → far ≠ 0 → exec i s = .next ((s.logViolation s.me.die s.me.core (dest s r (lowLane far)).toNat s.ctx.pc.toNat s.me.proc 7
      kindFetch 0 (lowLane far)).trapNow 0x0B far 0 (dest s r (lowLane far)) 7))
  (∀ (off : BitVec 24) (s : State), s.refusal 7 true false false = none → free s = true →
    ∃ t, exec (.call off) s = .next t ∧ Effect s t plainReg (ra s) (goes s (s.branchTarget off)) 0) ∧
  (∀ (z : BitVec 24) (w1 : Word) (s : State), s.refusal 7 (decide (z = 0)) false false = none → free s = true →
    ∃ t, exec (.callLong z w1) s = .next t ∧ Effect s t plainReg (ra s) (goes s (s.branchTarget w1)) 0) ∧
  Both .ret .retLong 0 jump ∧ Both .jmpi .jmpiLong 0 jump ∧ Both .ret .retLong 0 traps ∧ Both .jmpi .jmpiLong 0 traps

/-- JOIN, LEAVE, MSET and WAITM (R156, R157). -/
def Obligations.MaskRegisters : Prop :=
  Both .join .joinLong 0 (fun i r => SetsMask i (formMask r) r r.d (fun _ => true) (fun s => s.me.mreg r.d ||| s.lanes r)) ∧
  Both .leave .leaveLong 0 (fun i r => SetsMask i (formMask r) r r.d (fun _ => true) (fun s => s.me.mreg r.d &&& ~~~ s.lanes r)) ∧
  Both .msetG .msetGLong 0 (fun i r => SetsMask i (formMset r) r r.d (fun _ => true) (fun s => s.lanes r)) ∧
  (∀ o, let r := Reg.ofLong o
    SetsMask (.msetS o) (formMset r) r r.d (fun s => !s.me.scalarsBusy [r.a, r.a + 1] && !s.me.spairPois r.a) (fun s => s.me.spair r.a)) ∧
  (∀ o s, let r := Reg.ofLong o
    s.runs (formMset r) r = true → s.me.scalarsBusy [r.a, r.a + 1] = false → ((s.me.sreg r.a).pois || (s.me.sreg (r.a + 1)).pois) = true →
    exec (.msetS o) s = .next (s.trapNow 0x08 (s.lanes r) 0 0 0)) ∧
  (∀ o, let r := Reg.ofLong o
    SetsMask (.msetZ o) (formMset r) r r.d (fun _ => true) (fun _ => 0)) ∧
  Both .waitm .waitmLong 0 (fun i r => ∀ s : State, s.runs (formMask r) r = true →
    let held := fun l => (s.lanes r).getLsbD l && s.grp.getLsbD l && (s.me.mreg r.d).getLsbD l
    let free := s.gathered (s.me.mreg r.d) (fun l => held l || s.waitsOn r.d l)
    ∃ t, exec i s = .next t ∧ t = { s with me := t.me } ∧
      t.me = { s.me with threads := t.me.threads, sticky := s.me.sticky ||| s.unsetBit (formMask r) r } ∧
      ∀ l, l < s.me.width → t.me.thread l =
        let th := if held l then { s.me.thread l with waiting := true, wmask := BitVec.ofNat 4 r.d, pc := s.ctx.pc, hdr := s.ctx.hdr,
                                                      rpc := s.ctx.npc, rhdr := s.ctx.nhdr }
                  else s.onward r l
        if free && (s.me.mreg r.d).getLsbD l && !th.exited then { th with waiting := false, pc := th.rpc, hdr := th.rhdr } else th)

/-- MGET, CENSUS, MATCH, PEEK and LANE (R156, R159 to R162). -/
def Obligations.LaneInstructions : Prop :=
  let holds := fun (s : State) (r : Reg) (l : Nat) => (s.lanes r).getLsbD l && decide (l < s.me.width) && (s.me.pred r.a l != r.xb 3)
  let bad := fun (s : State) (r : Reg) => (List.range s.me.width).any (fun l => (s.lanes r).getLsbD l && s.me.predPois r.a l)
  let all := fun (s : State) (r : Reg) => (lanesOf (s.lanes r)).all (holds s r)
  let any := fun (s : State) (r : Reg) => (lanesOf (s.lanes r)).any (holds s r)
  let mgetS := fun (i : Instr) (r : Reg) => ∀ s : State, s.runs (formMget r) r = true → s.me.scalarsBusy [r.d, r.d + 1] = false →
    ScalarEffect i s r (pairOf r.d (s.me.mreg r.a)) (s.unsetBit (formMget r) r)
  let census := fun (i : Instr) (r : Reg) =>
    (r.xf 0 3 ≠ 3 → SetsPred i (formCensus r) r r.d (fun _ => true)
      (fun s l => match r.xf 0 3 with
        | 0 => all s r
        | 1 => any s r
        | 2 => all s r || !any s r
        | 4 => decide ((lanesOf (s.lanes r)).find? (holds s r) = some l)
        | _ => decide (((lanesOf (s.lanes r)).filter (holds s r)).length % 2 = 1))
      (fun s _ => bad s r) (fun _ => 0)) ∧
    (r.xf 0 3 = 3 → SetsMask i (formCensus r) r r.d (fun s => !bad s r) (fun s => maskOf 64 (holds s r))) ∧
    (∀ s : State, r.xf 0 3 = 3 → s.runs (formCensus r) r = true → bad s r = true →
      exec i s = .next (s.trapNow 0x08 (maskOf s.me.width (fun l => (s.lanes r).getLsbD l && s.me.predPois r.a l)) 0 0 0))
  let peek := fun (i : Instr) (r : Reg) => ∀ w, Completes i (formPeek w r) r (fun s => decide (s.me.width = w))
    (fun s => s.one (formPeek w r) r (fun l =>
      let n := if r.xb 2 then Elem.ofWord (BitVec.ofNat 32 r.b) else s.opnd (formPeek w r) r 2 l
      let j := peekLane (r.xf 0 2) (if r.xf 3 3 = 0 then w else 2 ^ r.xf 3 3) l n.val.toNat
      let v := s.me.velem (s.tgt (formPeek w r) r 1 (if s.grp.getLsbD j then j else l)) (if s.grp.getLsbD j then j else l)
      { val := v.val, pois := v.pois || n.pois })) (fun _ => sameThread) (fun _ => 0)
  let lane := fun (i : Instr) (r : Reg) =>
    (r.x < 3 ∨ r.x = 9 → Computes i (formLane r) r (fun s l => Elem.ofWord (bits (laneValue s (s.lanes r) r.x l) 0 32))) ∧
    (3 ≤ r.x → r.x ≤ 8 → Completes i (formLane r) r (fun _ => true)
      (fun s => s.two (formLane r) r (laneValue s (s.lanes r) r.x) (fun _ => false)) (fun _ => sameThread) (fun _ => 0))
  Both .mgetS .mgetSLong 0 (fun i r => r.x = 0 → mgetS i r) ∧
  (∀ o, let r := Reg.ofLong o
    r.x = 1 → Computes (.mgetV o) (formMget r) r (fun s l => Elem.ofWord (if (s.me.mreg r.a).getLsbD l then 1 else 0))) ∧
  Both .census .censusLong 0 census ∧
  Both .matchV .matchVLong 0 (fun i r => Completes i (formMatch r) r (fun _ => true)
    (fun s => s.two (formMatch r) r
      (fun l => maskOf s.me.width (fun k => (s.lanes r).getLsbD k && decide ((s.opnd (formMatch r) r 1 k).val = (s.opnd (formMatch r) r 1 l).val)))
      (fun _ => (lanesOf (s.lanes r)).any (fun k => (s.opnd (formMatch r) r 1 k).pois)))
    (fun _ => sameThread) (fun _ => 0)) ∧
  Both .peek .peekLong 0 peek ∧ Both .lane .laneLong 0 lane ∧
  (∀ span l n : Nat, 0 < span →
    peekLane 0 span l n = l / span * span + n % span ∧ (peekLane 1 span l n : Int) = (l / span * span : Nat) + ((l % span : Nat) - (n : Int)) % span ∧
    peekLane 2 span l n = l / span * span + (l % span + n) % span ∧ peekLane 3 span l n = l / span * span + (l % span ^^^ n % span)) ∧
  (∀ (s : State) (e : Mask) (l : Nat), laneValue s e 0 l = BitVec.ofNat 64 l ∧ laneValue s e 1 l = BitVec.ofNat 64 s.me.width ∧
    laneValue s e 2 l = BitVec.ofNat 64 (8 * s.me.sec + l) ∧ laneValue s e 7 l = s.grp ∧ laneValue s e 8 l = e ∧
    laneValue s e 9 l = BitVec.ofNat 64 ((List.range s.me.width).filter (fun k => e.getLsbD k && decide (k < l))).length ∧
    ∀ k, k < 64 → (laneValue s e 3 l).getLsbD k = decide (k < s.me.width ∧ k < l) ∧ (laneValue s e 4 l).getLsbD k = decide (k < s.me.width ∧ k ≤ l) ∧
      (laneValue s e 5 l).getLsbD k = decide (k < s.me.width ∧ l < k) ∧ (laneValue s e 6 l).getLsbD k = decide (k < s.me.width ∧ l ≤ k))

/-- PSET, PLOP, XSET, XGET and XADD (R163, R164, R176). -/
def Obligations.PredicatesAndIndexes : Prop :=
  let clean := fun (F : Form) (r : Reg) (s : State) =>
    r.xb 3 || (List.range s.me.width).all (fun l => !(s.lanes r).getLsbD l || !(s.opnd F r 1 l).pois)
  let index := fun (i : Instr) (F : Form) (r : Reg) (f : State → Nat → Word → Word) =>
    Completes i F r (clean F r) (fun _ => noElem) (fun s => s.indexIn r r.d (f s)) (fun _ => 0) ∧
    ∀ s : State, s.runs F r = true → clean F r s = false →
      exec i s = .next (s.trapNow 0x08 (maskOf s.me.width (fun l => (s.lanes r).getLsbD l && (s.opnd F r 1 l).pois)) 0 0 0)
  Both .pset .psetLong 0 (fun i r => SetsPred i (formPset r) r r.d (fun _ => true)
    (fun s l => match r.xf 0 2 with
      | 0 => decide ((s.opnd (formPset r) r 1 l).val ≠ 0)
      | 1 => r.xb 2
      | 2 => (s.opnd (formPset r) r 1 l).val.getLsbD r.b
      | _ => (s.me.mreg r.a).getLsbD l)
    (fun s l => match r.xf 0 2 with
      | 0 => (s.opnd (formPset r) r 1 l).pois
      | 2 => (s.opnd (formPset r) r 1 l).pois
      | _ => false) (fun _ => 0)) ∧
  Both .plop .plopLong 0 (fun i r => SetsPred i (formPlop r) r r.d (fun _ => true)
    (fun s l => r.xb ((if s.me.pred r.a l then 4 else 0) + (if s.me.pred r.b l then 2 else 0) + (if s.me.pred r.c l then 1 else 0)))
    (fun s l => s.me.predPois r.a l || s.me.predPois r.b l || s.me.predPois r.c l) (fun _ => 0)) ∧
  Both .xset .xsetLong 0 (fun i r => index i (formXset r) r
    (fun s l x => xsetField (r.xf 0 3) x (if r.xb 3 then BitVec.ofNat 32 r.b else (s.opnd (formXset r) r 1 l).val))) ∧
  Both .xget .xgetLong 0 (fun i r => Computes i (formXget r) r (fun s l => Elem.ofWord (xgetField r.x ((s.me.thread l).x.getD r.a 0)))) ∧
  Both .xadd .xaddLong 0 (fun i r => index i (formXadd r) r
    (fun s l x => xSetIndex x (xAdjust x ((bitsN x 16 8 : Nat) + (if r.xb 3 then sextN 8 r.b else (s.opnd (formXadd r) r 1 l).val.toInt)))))

/-- SOP, SMOV, SCMP, SSEL and SMOVI (R167 to R170). -/
def Obligations.ScalarArithmetic : Prop :=
  ScalarPair .sadd .saddLong (fun a b => a + b) ∧
  ScalarPair .ssub .ssubLong (fun a b => a - b) ∧
  ScalarPair .smul .smulLong (fun a b => a * b) ∧
  ScalarPair .sand .sandLong (fun a b => a &&& b) ∧
  ScalarPair .sor .sorLong (fun a b => a ||| b) ∧
  ScalarPair .sxor .sxorLong (fun a b => a ^^^ b) ∧
  ScalarPair .sshl .sshlLong (fun a b => BitVec.ofNat 32 (a.toNat * 2 ^ b.toNat)) ∧
  ScalarPair .sshr .sshrLong (fun a b => BitVec.ofNat 32 (a.toNat / 2 ^ b.toNat)) ∧
  ScalarPair .ssar .ssarLong (fun a b => BitVec.ofInt 32 (a.toInt / 2 ^ b.toNat)) ∧
  ScalarPair .smin .sminLong (fun a b => BitVec.ofInt 32 (min a.toInt b.toInt)) ∧
  ScalarPair .smax .smaxLong (fun a b => BitVec.ofInt 32 (max a.toInt b.toInt)) ∧
  (∀ (o : SOps) (s : State), s.runsScalar 0 (smovOk o) [o.sd.toNat, o.sa.toNat] = true →
    ScalarResult (.smov o) s o.sd.toNat (s.me.sreg o.sa.toNat)) ∧
  (∀ (o : SOps) (s : State), s.runsScalar 0 (sopRegsOk o && decide (o.imm.toNat < 10)) [o.sd.toNat, o.sa.toNat, o.sb.toNat] = true →
    let a := s.me.sreg o.sa.toNat
    let b := s.me.sreg o.sb.toNat
    ScalarResult (.scmp o) s o.sd.toNat { val := if scalarCmp o.imm.toNat a.val b.val then 1 else 0, pois := a.pois || b.pois }) ∧
  (∀ (o : SOps) (s : State), s.runsScalar 0 (sopRegsOk o && decide (o.imm.toNat < 6)) [o.sd.toNat, o.sa.toNat, o.sb.toNat] = true →
    let old := s.me.sreg o.sd.toNat
    let v := if scalarCond o.imm.toNat old.val then s.me.sreg o.sa.toNat else s.me.sreg o.sb.toNat
    ScalarResult (.ssel o) s o.sd.toNat { val := v.val, pois := v.pois || old.pois }) ∧
  (∀ (sd : BitVec 5) (z : BitVec 3) (imm : BitVec 16) (s : State), s.runsScalar 0 (decide (sd.toNat < 24) && decide (z = 0)) [sd.toNat] = true →
    ScalarResult (.smovi sd z imm) s sd.toNat { val := imm.signExtend 32, pois := false }) ∧
  (∀ (sd : BitVec 5) (z : BitVec 19) (w1 : Word) (s : State), s.runsScalar 0 (decide (sd.toNat < 24) && decide (z = 0)) [sd.toNat] = true →
    ScalarResult (.smoviLong sd z w1) s sd.toNat { val := w1, pois := false })

/-- SSYS (R171). -/
def Obligations.SystemValues : Prop :=
  (∀ (sd sa sb sel : BitVec 5) (z : BitVec 4) (s : State), ssysWide sel = false → s.runsScalar 0 (ssysOk sd sa sb sel z) [sd.toNat] = true →
    ScalarResult (.ssys sd sa sb sel z) s sd.toNat { val := bits (s.sysValue sel.toNat) 0 32, pois := false }) ∧
  (∀ (sd sa sb sel : BitVec 5) (z : BitVec 4) (s : State), ssysWide sel = true →
    s.runsScalar 0 (ssysOk sd sa sb sel z) [sd.toNat, sd.toNat + 1] = true →
    ScalarEffect (.ssys sd sa sb sel z) s plainReg (pairOf sd.toNat (s.sysValue sel.toNat)) 0) ∧
  ∀ s : State,
    s.sysValue 0 = BitVec.ofNat 64 s.me.width ∧ s.sysValue 1 = BitVec.ofNat 64 s.me.index ∧
    s.sysValue 9 = BitVec.ofNat 64 s.myGrid.gx ∧ s.sysValue 10 = BitVec.ofNat 64 s.myGrid.gy ∧ s.sysValue 11 = BitVec.ofNat 64 s.myGrid.gz ∧
    s.sysValue 15 = BitVec.ofNat 64 s.me.die ∧ s.sysValue 18 = (s.die s.me.die).rclk ∧
    s.sysValue 19 = s.me.trapEn.zeroExtend 64 ∧ s.sysValue 20 = s.me.sticky.zeroExtend 64 ∧
    (∀ x y z, x < s.myGrid.gx → y < s.myGrid.gy → s.myBlock.lin = x + s.myGrid.gx * (y + s.myGrid.gy * z) →
      s.sysValue 2 = BitVec.ofNat 64 x ∧ s.sysValue 3 = BitVec.ofNat 64 y ∧ s.sysValue 4 = BitVec.ofNat 64 z)

/-- SLD and SST at issue (R173, R174). -/
def Obligations.ScalarMemoryIssues : Prop :=
  let part := fun (i : Instr) (o : MemSOps) (store ok : Bool) (off : Int) => ∀ s : State,
    let n := if o.size then 8 else 4
    let reg := if store then o.sb.toNat else o.sd.toNat
    let regs := if o.size then [reg, reg + 1] else [reg]
    let bad := s.me.spairPois o.sa.toNat || (store && regs.any (fun k => (s.me.sreg k).pois))
    let addr := s.me.spair o.sa.toNat + BitVec.ofInt 64 off
    s.runsScalar 3 (ok && scalarMemOk store o) ([o.sa.toNat, o.sa.toNat + 1] ++ regs) = true → s.queueRoom 1 = true →
    (bad = false → addr.toNat % n = 0 → ∃ t e, exec i s = .next t ∧ Queued s t plainReg e 0 ∧
      e.order = s.me.nextOrder ∧ e.fla = s.ctx.seta ∧ e.flb = 15 ∧ e.lmask = maskPut 0 (lowLane s.me.live) true ∧ e.waits = [] ∧ e.refused = 0 ∧
      e.sbusy = (if store then [] else regs) ∧ (∀ l, l < s.me.width → e.addr.getD l 0 = addr) ∧
      (store = true → ∀ l, l < s.me.width → e.data.getD l [] = regs.map (fun k => (s.me.sreg k).val)) ∧
      e.work = (if store then .sstore o.size o.scope.toNat o.ord else .sload reg o.size o.scope.toNat o.ord)) ∧
    (bad = true → exec i s = .next (s.trapNow 0x08 s.grp 0 0 0)) ∧
    (bad = false → addr.toNat % n ≠ 0 → exec i s = .next (s.trapNow 0x09 s.grp 0 addr 0))
  (∀ o, part (.sld o) o false true ((o.imm.toNat * (if o.size then 8 else 4) : Nat) : Int)) ∧
  (∀ o w1, part (.sldLong o w1) o false (decide (o.imm = 0)) w1.toInt) ∧
  (∀ o, part (.sst o) o true true ((o.imm.toNat * (if o.size then 8 else 4) : Nat) : Int)) ∧
  (∀ o w1, part (.sstLong o w1) o true (decide (o.imm = 0)) w1.toInt)

/-- ext_t and the stored result (R182, R64). -/
def Obligations.IntegerValues : Prop :=
  ∀ (t w : Nat) (sg : Bool), (t, w, sg) ∈ [(0, 32, true), (1, 32, false), (7, 16, true), (8, 16, false), (9, 8, true), (10, 8, false)] →
    let lo : Int := if sg then -(2 ^ (w - 1)) else 0
    let hi : Int := if sg then 2 ^ (w - 1) - 1 else 2 ^ w - 1
    (∀ x : Word, lo ≤ extInt t x.toNat ∧ extInt t x.toNat ≤ hi ∧ (extInt t x.toNat - x.toNat) % 2 ^ w = 0) ∧
    (∀ r : Int, ∃ v : Int, lo ≤ v ∧ v ≤ hi ∧ (v - r) % 2 ^ w = 0 ∧ storeInt t false r = BitVec.ofInt 32 v) ∧
    (∀ r : Int, storeInt t true r = BitVec.ofInt 32 (max lo (min hi r)))

/-- The arithmetic of R184; `Effect` holds the shape tag of R48. -/
def Obligations.IntegerArithmetic : Prop :=
  Both .iadd .iaddLong 0 (fun i r => r.xb 3 = false → r.xb 4 = false → IntPair (fun sat t a b => storeInt t sat (a + b)) formIadd i r) ∧
  Both .isub .isubLong 0 (fun i r => r.xb 3 = false → r.xb 4 = false → IntPair (fun sat t a b => storeInt t sat (a - b)) formIadd i r) ∧
  Both .imul .imulLong 0 (IntPair (fun _ t a b => storeInt t false (a * b)) formIntB) ∧
  Both .imin .iminLong 0 (IntPair (fun _ t a b => storeInt t false (min a b)) formIntB) ∧
  Both .imax .imaxLong 0 (IntPair (fun _ t a b => storeInt t false (max a b)) formIntB) ∧
  Both .imulh .imulhLong 0 (fun i r => Computes i (formImulh r) r (fun s l =>
    res (BitVec.ofInt 32 (s.intOpnd (formImulh r) r 1 l * s.intOpnd (formImulh r) r 2 l / 2 ^ 32))
      [s.opnd (formImulh r) r 1 l, s.opnd (formImulh r) r 2 l])) ∧
  Both .imad .imadLong 0 (fun i r => Computes i (formImad r) r (fun s l =>
    res (storeInt r.t s.ctx.sat (s.intOpnd (formImad r) r 1 l * s.intOpnd (formImad r) r 2 l + s.intOpnd (formImad r) r 3 l))
      [s.opnd (formImad r) r 1 l, s.opnd (formImad r) r 2 l, s.opnd (formImad r) r 3 l])) ∧
  Both .iabs .iabsLong 0 (fun i r => Computes i (formIabs r) r (fun s l =>
    res (storeInt r.t s.ctx.sat (if 0 ≤ s.intOpnd (formIabs r) r 1 l then s.intOpnd (formIabs r) r 1 l else - s.intOpnd (formIabs r) r 1 l))
      [s.opnd (formIabs r) r 1 l])) ∧
  Both .iadd3 .iadd3Long 0 (WordThree (fun a b c => a + b + c) formIadd3)

/-- The carry forms of IADD and ISUB (R183). -/
def Obligations.CarryChains : Prop :=
  let part := fun (sub : Bool) (i : Instr) (r : Reg) => (r.xb 3 || r.xb 4) = true →
    let F := formIadd r
    let sum := fun (s : State) (l : Nat) =>
      let a : Int := (s.opnd F r 1 l).val.toNat
      let b : Int := (s.opndB F r l).val.toNat
      let c : Int := if r.xb 3 && s.me.pred r.c l then 1 else 0
      if sub then a - b - c else a + b + c
    let p := fun (s : State) (l : Nat) => (s.opnd F r 1 l).pois || (s.opndB F r l).pois || (r.xb 3 && s.me.predPois r.c l)
    Completes i F r (fun _ => true)
      (fun s => s.one F r (fun l => { val := BitVec.ofInt 32 (sum s l), pois := p s l }))
      (fun s => if r.xb 4 then s.predIn r r.c (fun l => if sub then decide (sum s l < 0) else decide (2 ^ 32 ≤ sum s l)) (p s) else sameThread)
      (fun _ => 0)
  Both .iadd .iaddLong 0 (part false) ∧ Both .isub .isubLong 0 (part true)

/-- The OPs of R185. -/
def Obligations.LogicAndShifts : Prop :=
  Both .and .andLong 0 (WordPair (fun a b => a &&& b)) ∧
  Both .or .orLong 0 (WordPair (fun a b => a ||| b)) ∧
  Both .xor .xorLong 0 (WordPair (fun a b => a ^^^ b)) ∧
  Both .shl .shlLong 0 (WordPair (fun a b => BitVec.ofNat 32 (a.toNat * 2 ^ b.toNat))) ∧
  Both .shr .shrLong 0 (WordPair (fun a b => BitVec.ofNat 32 (a.toNat / 2 ^ b.toNat))) ∧
  Both .sar .sarLong 0 (WordPair (fun a b => BitVec.ofInt 32 (a.toInt / 2 ^ b.toNat))) ∧
  Both .popc .popcLong 0 (WordOne (fun a => BitVec.ofNat 32 ((List.range 32).countP (fun k => a.getLsbD k)))) ∧
  Both .clz .clzLong 0 (WordOne (fun a => BitVec.ofNat 32 (((List.range 32).find? (fun k => a.getLsbD (31 - k))).getD 32))) ∧
  Both .brev .brevLong 0 (WordOne BitVec.reverse) ∧
  (∀ a : Word, a ^^^ BitVec.ofInt 32 (-1) = ~~~ a) ∧ (∀ b : Nat, 128 ≤ b → b < 256 → 32 ≤ (BitVec.ofInt 32 (sextN 8 b)).toNat)

/-- BFE, BFI and BMIX (R186, R187). -/
def Obligations.BitFields : Prop :=
  Both .bfe .bfeLong 0 (fun i r =>
    let b := fun (s : State) (l : Nat) => if r.xb 5 then Elem.ofWord (BitVec.ofNat 32 (r.b + 256 * r.c)) else s.opnd (formBfe r) r 2 l
    Computes i (formBfe r) r (fun s l =>
      res (bfeWord (decide (r.t = 0)) (s.opnd (formBfe r) r 1 l).val (bitsN (b s l).val 0 8) (bitsN (b s l).val 8 8)) [s.opnd (formBfe r) r 1 l, b s l])) ∧
  Both .bfi .bfiLong 0 (WordThree bfiWord formThree) ∧ Both .bmix .bmixLong 0 (WordThree bmixWord formThree) ∧
  (∀ (signed : Bool) (a : Word) (pos len k : Nat), k < 32 →
    let n := min len 32
    let src := fun j => if pos + j < 32 then a.getLsbD (pos + j) else (signed && a.getLsbD 31)
    (bfeWord signed a pos len).getLsbD k = if k < n then src k else (signed && decide (n ≠ 0) && src (n - 1))) ∧
  (∀ (a b c : Word) (k : Nat), k < 32 →
    (bfiWord a b c).getLsbD k =
      if bitsN b 0 8 ≤ k ∧ k < bitsN b 0 8 + bitsN b 8 8 then a.getLsbD (k - bitsN b 0 8) else c.getLsbD k) ∧
  (∀ (a q c : Word) (n k : Nat), n < 4 → k < 8 →
    let y := fun i => if bitsN q (8 * n) 3 < 4 then a.getLsbD (8 * bitsN q (8 * n) 3 + i) else c.getLsbD (8 * (bitsN q (8 * n) 3 - 4) + i)
    (bmixWord a q c).getLsbD (8 * n + k) =
      match bitsN q (8 * n + 3) 2 with | 0 => y k | 1 => false | 2 => y 7 | _ => true)

/-- SEL, MOV, MOVI and LEA (R188, R191). -/
def Obligations.MovesAndSelection : Prop :=
  let movi := fun (d : BitVec 8) (v : Word) (s : State) (reg l : Nat) =>
    if s.grp.getLsbD l && decide (reg = d.toNat) then some (Elem.ofWord v) else none
  Both .sel .selLong 0 (fun i r => Computes i (formSel r) r (fun s l =>
    let v := if s.me.pred r.c l then s.opnd (formSel r) r 1 l else s.opnd (formSel r) r 2 l
    { val := v.val, pois := v.pois || s.me.predPois r.c l })) ∧
  Both .mov .movLong 0 (fun i r => r.xb 0 = false → Computes i (formMov r) r (fun s l => s.opnd (formMov r) r 1 l)) ∧
  (∀ o, let r := Reg.ofLong o
    r.xb 0 = true → Completes (.movS o) (formMov r) r (fun s => !s.me.scalarsBusy [r.a]) (fun s => s.one (formMov r) r (fun _ => s.me.sreg r.a))
      (fun _ => sameThread) (fun _ => 0)) ∧
  (∀ (d : BitVec 8) (imm : BitVec 16) (s : State), s.refusal 7 true false false = none → d.toNat ∉ s.me.busyVec ++ s.me.absent →
    ∃ t, exec (.movi d imm) s = .next t ∧ Effect s t plainReg (movi d (imm.signExtend 32) s) sameThread 0) ∧
  (∀ (d : BitVec 8) (z : BitVec 16) (w1 : Word) (s : State), s.refusal 7 (decide (z = 0)) false false = none → d.toNat ∉ s.me.busyVec ++ s.me.absent →
    ∃ t, exec (.moviLong d z w1) s = .next t ∧ Effect s t plainReg (movi d w1 s) sameThread 0) ∧
  Both .lea .leaLong 0 (fun i r => Completes i (formLea r) r (fun _ => true)
    (fun s => s.two (formLea r) r
      (fun l =>
        let idx : Int := if r.xb 5 then (s.opnd (formLea r) r 2 l).val.toNat else (s.opnd (formLea r) r 2 l).val.toInt
        ((s.opndAt (formLea r) r 1 1 l).val ++ (s.opndAt (formLea r) r 1 0 l).val : DWord) + BitVec.ofInt 64 (idx * 2 ^ r.xf 0 5))
      (fun l => (s.opndAt (formLea r) r 1 0 l).pois || (s.opndAt (formLea r) r 1 1 l).pois || (s.opnd (formLea r) r 2 l).pois))
    (fun _ => sameThread) (fun _ => 0))

/-- CMP and DOT4 (R189, R190). -/
def Obligations.ComparisonAndDot : Prop :=
  Both .cmp .cmpLong 0 (fun i r =>
    let F := formCmp r
    let p := fun (s : State) (l : Nat) => (s.opnd F r 1 l).pois || (s.opndB F r l).pois
    let v := fun (s : State) (l : Nat) => fcmp (r.xf 0 4) (s.fltOpnd F r 1 l) (FV.of r.t r.fi (s.opndB F r l))
    let exc := fun (s : State) (l : Nat) => Exc.when (!p s l && (v s l).2) excNV
    (isFloatT r.t = false → SetsPred i F r r.d (fun _ => true)
      (fun s l => condHolds (r.xf 0 4) (decide (s.intOpnd F r 1 l < s.intOpndB F r l)) (decide (s.intOpnd F r 1 l = s.intOpndB F r l))) p (fun _ => 0)) ∧
    (isFloatT r.t = true → SetsPred i F r r.d (fun s => s.quiet (s.lanes r) (exc s)) (fun s l => (v s l).1) p
      (fun s => excBits (s.lanes r) (exc s)))) ∧
  Both .dot4 .dot4Long 9 (fun i r =>
    let F := formDot4 r
    let w := fun (s : State) (k l : Nat) => (s.opnd F r k l).val
    (isFloatT r.t = false → Computes i F r (fun s l =>
      res (dotInt (decide (r.t = 9)) s.ctx.sat (w s 1 l) (w s 2 l) (w s 3 l)) [s.opnd F r 1 l, s.opnd F r 2 l, s.opnd F r 3 l])) ∧
    (isFloatT r.t = true → FloatOp i F r
      (fun s l => dotFloat { f := fmtF32, mode := max 1 s.ctx.rnd, sat := s.ctx.sat, fo := r.fo } (fmtOf r.t) r.fi (w s 1 l) (w s 2 l) (w s 3 l))
      (fun s l => (s.opnd F r 1 l).pois || (s.opnd F r 2 l).pois || (s.opnd F r 3 l).pois))) ∧
  (∀ (sg sat : Bool) (a b c : Word),
    let t := if sg then 9 else 10
    dotInt sg sat a b c = storeInt (if sg then 0 else 1) sat (extInt (if sg then 0 else 1) c.toNat +
      extInt t (a.toNat % 256) * extInt t (b.toNat % 256) + extInt t (a.toNat / 2 ^ 8 % 256) * extInt t (b.toNat / 2 ^ 8 % 256) +
      extInt t (a.toNat / 2 ^ 16 % 256) * extInt t (b.toNat / 2 ^ 16 % 256) + extInt t (a.toNat / 2 ^ 24 % 256) * extInt t (b.toNat / 2 ^ 24 % 256))) ∧
  (∀ (o : Rnd) (ps : List (FV × FV)) (c : FV), (∀ p ∈ ps, p.1.isFin = true ∧ p.2.isFin = true) → c.isFin = true →
    let sum := (ps.map (fun p => p.1.int * p.2.int)).sum + c.int * 2 ^ 149
    let negz := fun (x : FV) => decide (x.int = 0) && x.neg
    let allNeg := ps.all (fun p => decide (p.1.int * p.2.int = 0) && (p.1.neg != p.2.neg)) && negz c
    (sum = 0 → o.dot4 ps c = o.zero (allNeg || decide (o.mode = 4))) ∧ (sum ≠ 0 → o.dot4 ps c = o.round (decide (sum < 0)) sum.natAbs 1 (-298)))

/-- The arithmetic of R196 and R197, and the rounding modes of R70: 1 rn, 2 rz, 3 ru, 4 rd, 5 ra. -/
def Obligations.FloatArithmetic : Prop :=
  Both .fadd .faddLong 2 (FloatArith formF2 2 (fun o a b _ => o.add a b)) ∧
  Both .fsub .fsubLong 2 (FloatArith formF2 2 (fun o a b _ => o.add a b.negate)) ∧
  Both .fmul .fmulLong 2 (FloatArith formF2 2 (fun o a b _ => o.mul a b)) ∧
  Both .ffma .ffmaLong 2 (FloatArith formFfma 3 (fun o a b c => o.fma a b c)) ∧
  Both .fmin .fminLong 2 (FloatArith formFmin 2 (fun o a b _ => Rnd.minmax { f := o.f, mode := 1, sat := false, fo := o.fo } false a b)) ∧
  Both .fmax .fmaxLong 2 (FloatArith formFmin 2 (fun o a b _ => Rnd.minmax { f := o.f, mode := 1, sat := false, fo := o.fo } true a b)) ∧
  Both .fscale .fscaleLong 2 (fun i r => FloatOp i (formF2 r) r
    (fun s l => (s.rndX r (fmtOf r.t)).scale (s.fltOpnd (formF2 r) r 1 l) (s.opnd (formF2 r) r 2 l).val.toInt)
    (fun s l => (s.opnd (formF2 r) r 1 l).pois || (s.opnd (formF2 r) r 2 l).pois)) ∧
  Both .frnd .frndLong 2 (FloatArith formFrnd 1 (fun o a _ _ => o.integral a)) ∧
  (∀ (neg : Bool) (n d : Nat), 0 < d →
    let down := fun q => q * d ≤ n ∧ n < (q + 1) * d
    let up := fun q => n ≤ q * d ∧ (q = 0 ∨ (q - 1) * d < n)
    let near := fun q => 2 * n ≤ (2 * q + 1) * d ∧ 2 * q * d ≤ 2 * n + d
    down (roundDiv 2 neg n d) ∧
    (if neg then down (roundDiv 3 neg n d) else up (roundDiv 3 neg n d)) ∧
    (if neg then up (roundDiv 4 neg n d) else down (roundDiv 4 neg n d)) ∧
    near (roundDiv 1 neg n d) ∧ (2 * (n % d) = d → roundDiv 1 neg n d % 2 = 0) ∧
    near (roundDiv 5 neg n d) ∧ (2 * (n % d) = d → n < roundDiv 5 neg n d * d)) ∧
  (∀ (o : Rnd) (neg : Bool) (n d : Nat) (e k : Int), o.f ∈ formats → 0 < n → 0 < d → (scale2 n d (e - k)).2 ≤ (scale2 n d (e - k)).1 →
    (scale2 n d (e - k)).1 < 2 * (scale2 n d (e - k)).2 → o.RoundsOnce neg n d e k) ∧
  (∀ (o : Rnd) (x : Nat) (neg : Bool) (m : Nat), o.f ∈ formats → o.fo = false → x < 2 ^ o.f.width → o.f.decode x = .fin neg m →
    (o.exact (.fin neg m)).bits = x) ∧
  (∀ (o : Rnd) (a b : Bool) (x y : Nat),
    let A := FV.fin a x
    let B := FV.fin b y
    let wr := fun (v : Int) (e : Int) (z : Bool) => if v = 0 then o.zero z else o.round (decide (v < 0)) v.natAbs 1 e
    let zs := fun (p q : Bool) => (p && q) || (decide (o.mode = 4) && (p || q))
    o.add A B = wr (A.int + B.int) (-149) (zs a b) ∧ o.mul A B = wr (A.int * B.int) (-298) (a != b) ∧
    (∀ (c : Bool) (z : Nat), o.fma A B (.fin c z) = wr (A.int * B.int + (FV.fin c z).int * 2 ^ 149) (-298) (zs (a != b) c)) ∧
    (∀ k : Int, -2000 ≤ k → k ≤ 2000 → o.scale A k = wr A.int (k - 149) a) ∧
    (A.int ≠ B.int → ∀ big, o.minmax big A B = { o.exact (if decide (A.int < B.int) = big then B else A) with exc := 0 }) ∧
    (∀ s, o.add (.inf a) (.inf s) = if a = s then o.infinite a 0 else { bits := o.f.nan, exc := excNV }) ∧
    (∀ s, o.mul (.inf s) A = if x = 0 then { bits := o.f.nan, exc := excNV } else o.infinite (s != a) 0)) ∧
  (∀ (o : Rnd) (s : Bool) (b : FV), o.add (.nan s) b = { bits := o.f.nan, exc := Exc.when (s || b.isSnan) excNV } ∧
    o.add b (.nan s) = { bits := o.f.nan, exc := Exc.when (s || b.isSnan) excNV } ∧ o.mul b (.nan s) = { bits := o.f.nan, exc := Exc.when (s || b.isSnan) excNV })

/-- The packed arithmetic of R198. -/
def Obligations.PackedArithmetic : Prop :=
  Both .pkadd .pkaddLong 11 (PackedArith formPk 2 (fun o a b _ => o.add a b)) ∧
  Both .pkmul .pkmulLong 11 (PackedArith formPk 2 (fun o a b _ => o.mul a b)) ∧
  Both .pkfma .pkfmaLong 11 (PackedArith formPkfma 3 (fun o a b c => o.fma a b c))

/-- The conversions of R199 and FCLASS (R200). -/
def Obligations.Conversions : Prop :=
  Both .fcvt .fcvtLong 3 (fun i r => FloatOp i (formFcvt r) r
    (fun s l => (s.rndHigh r (fmtOf r.t)).convert (FV.of (r.xf 0 4) r.fi (s.opnd (formFcvt r) r 1 l))) (fun s l => (s.opnd (formFcvt r) r 1 l).pois)) ∧
  Both .i2f .i2fLong 2 (fun i r => FloatOp i (formI2f r) r
    (fun s l => (s.rndHigh r (fmtOf r.t)).ofInteger (extInt (r.xf 0 4) (s.opnd (formI2f r) r 1 l).val.toNat)) (fun s l => (s.opnd (formI2f r) r 1 l).pois)) ∧
  Both .f2i .f2iLong 0 (fun i r => FloatOp i (formF2i r) r
    (fun s l =>
      let v := toInteger r.t (if s.ctx.rnd ≠ 0 then s.ctx.rnd else if r.xf 4 3 ≠ 0 then r.xf 4 3 else 2) (FV.of (r.xf 0 4) r.fi (s.opnd (formF2i r) r 1 l))
      { bits := v.1.toNat, exc := v.2 }) (fun s l => (s.opnd (formF2i r) r 1 l).pois)) ∧
  Both .fclass .fclassLong 2 (fun i r => Computes i (formFclass r) r (fun s l =>
    res (classify (fmtOf r.t) (s.fltOpnd (formFclass r) r 1 l)) [s.opnd (formFclass r) r 1 l])) ∧
  (∀ (o : Rnd) (m : Bool) (x : Nat), o.convert (.fin m x) = if x = 0 then o.zero m else o.round m x 1 (-149)) ∧
  (∀ (o : Rnd) (v : Int), o.ofInteger v = if v = 0 then o.zero false else o.round (decide (v < 0)) v.natAbs 1 0) ∧
  (∀ (t w : Nat) (sg : Bool), (t, w, sg) ∈ [(0, 32, true), (1, 32, false), (7, 16, true), (8, 16, false), (9, 8, true), (10, 8, false)] →
    let lo : Int := if sg then -(2 ^ (w - 1)) else 0
    let hi : Int := if sg then 2 ^ (w - 1) - 1 else 2 ^ w - 1
    (∀ (mode : Nat) (m : Bool) (x : Nat),
      let q := roundDiv mode m x (2 ^ 149)
      let v : Int := if m then -(q : Int) else q
      toInteger t mode (.fin m x) = (BitVec.ofInt 32 (max lo (min hi v)),
        if v < lo ∨ hi < v then excNV ||| excNX else if q * 2 ^ 149 = x then 0 else excNX)) ∧
    (∀ mode s, toInteger t mode (.nan s) = (0, excNV)) ∧
    (∀ mode m, toInteger t mode (.inf m) = (BitVec.ofInt 32 (if m then lo else hi), excNV ||| excNX))) ∧
  (∀ f ∈ [fmtF32, fmtF16, fmtBF16], ∀ x, x < 2 ^ f.width →
    let neg := decide (2 ^ (f.width - 1) ≤ x)
    let ex := x / 2 ^ f.man % 2 ^ (f.width - 1 - f.man)
    let mt := x % 2 ^ f.man
    classify f (f.decode x) = BitVec.ofNat 32 (2 ^
      (if ex = 2 ^ (f.width - 1 - f.man) - 1 then (if mt = 0 then (if neg then 0 else 7) else if mt < 2 ^ (f.man - 1) then 8 else 9)
       else if ex = 0 then (if mt = 0 then (if neg then 3 else 4) else if neg then 2 else 5)
       else if neg then 1 else 6)))

/-- The special functions (R202, R203) and QNT (R201). -/
def Obligations.SpecialFunctionsAndQuantising : Prop :=
  Both .frcp .frcpLong 2 (FloatArith formSfu 1 (fun o a _ _ => o.recip a)) ∧
  Both .frsq .frsqLong 2 (FloatArith formSfu 1 (fun o a _ _ => o.rsqrt a)) ∧
  Both .fsqrt .fsqrtLong 2 (FloatArith formSfu 1 (fun o a _ _ => o.sqrt a)) ∧
  Both .fexp2 .fexp2Long 2 (FloatArith formSfu 1 (fun o a _ _ => o.exp2 a)) ∧
  Both .flog2 .flog2Long 2 (FloatArith formSfu 1 (fun o a _ _ => o.log2 a)) ∧
  Both .fsin .fsinLong 2 (FloatArith formSfu 1 (fun o a _ _ => o.sin a)) ∧
  Both .fcos .fcosLong 2 (FloatArith formSfu 1 (fun o a _ _ => o.cos a)) ∧
  Both .ftanh .ftanhLong 2 (FloatArith formSfu 1 (fun o a _ _ => o.tanh a)) ∧
  Both .qnt .qntLong 13 (fun i r =>
    let F := formQnt r
    let p := fun (s : State) (l : Nat) => (List.range 32).any (fun k => (s.opndAt F r 1 k l).pois) ||
      (decide (r.t = 14) && (List.range 8).any (fun k => (s.opndAt F r 2 k l).pois))
    let exc := fun (s : State) (l : Nat) =>
      Exc.when (!p s l && (List.range 32).any (fun k => (FV.of 2 r.fi (s.opndAt F r 1 k l)).isSnan)) excNV
    Completes i F r (fun s => s.quiet (s.lanes r) (exc s))
      (fun s => s.into F r (qntRegs r.t) (fun j l => { val := (qntLane r s.me (s.me.targets F r) l).getD j 0, pois := p s l }))
      (fun _ => sameThread) (fun s => excBits (s.lanes r) (exc s))) ∧
  (∀ (o : Rnd) (m : Bool) (x : Nat), 0 < x → o.recip (.fin m x) = o.round m 1 x 149) ∧
  (∀ (o : Rnd) (x : Nat), 0 < x → o.sqrt (.fin false x) = o.root (2 * x) 1 (-75) ∧ o.rsqrt (.fin false x) = o.root 1 (2 * x) 75) ∧
  (∀ (o : Rnd) (n d : Nat) (e : Int), 0 < n → 0 < d → ∃ k r : Nat, 160 ≤ k ∧ r * r * d ≤ n * 2 ^ (2 * k) ∧ n * 2 ^ (2 * k) < (r + 1) * (r + 1) * d ∧
    o.root n d e = o.round false (2 * r + (if r * r * d = n * 2 ^ (2 * k) then 0 else 1)) 1 (e - k - 1)) ∧
  (∀ (o : Rnd) (neg : Bool) (f : Nat → Int × Int) (p : Nat) (res : FRes), (precisions.find? (fun q => (o.ends neg ((f q).1 - encErr) ((f q).1 + encErr) (f q).2).isSome)) = some p →
    o.enclose neg f = res → o.round neg ((f p).1 - encErr).toNat 1 (f p).2 = res ∧ o.round neg ((f p).1 + encErr).toNat 1 (f p).2 = res) ∧
  (∀ (o : Rnd) (j : Int), -2000 ≤ j → j < 2000 → o.exp2 (.fin (decide (j < 0)) (j.natAbs * 2 ^ 149)) = o.round false 1 1 j) ∧
  (∀ (o : Rnd) (n : Nat), o.log2 (.fin false (2 ^ n)) = o.ofInteger ((n : Int) - 149)) ∧
  (∀ (o : Rnd) (m : Bool) (x : Nat),
    (x % 2 ^ 148 = 0 → o.sin (.fin m x) = o.zero m) ∧ (x % 2 ^ 149 = 2 ^ 147 → o.sin (.fin m x) = o.round m 1 1 0) ∧
    (x % 2 ^ 149 = 3 * 2 ^ 147 → o.sin (.fin m x) = o.round (!m) 1 1 0) ∧ (x % 2 ^ 148 = 2 ^ 147 → o.cos (.fin m x) = o.zero false) ∧
    (x % 2 ^ 149 = 0 → o.cos (.fin m x) = o.round false 1 1 0) ∧ (x % 2 ^ 149 = 2 ^ 148 → o.cos (.fin m x) = o.round true 1 1 0)) ∧
  (∀ (o : Rnd) (m : Bool), o.recip (.fin m 0) = o.infinite m excDZ ∧ o.recip (.inf m) = o.zero m ∧ o.rsqrt (.fin m 0) = o.infinite m excDZ ∧
    o.rsqrt (.inf false) = o.zero false ∧ o.sqrt (.fin m 0) = o.zero m ∧ o.sqrt (.inf false) = o.infinite false 0 ∧ o.exp2 (.inf true) = o.zero false ∧
    o.exp2 (.inf false) = o.infinite false 0 ∧ o.log2 (.fin m 0) = o.infinite true excDZ ∧ o.log2 (.inf false) = o.infinite false 0 ∧
    o.tanh (.fin m 0) = o.zero m ∧ o.tanh (.inf m) = o.round m 1 1 0 ∧
    (∀ x, 0 < x → o.sqrt (.fin true x) = { bits := o.f.nan, exc := excNV } ∧ o.rsqrt (.fin true x) = { bits := o.f.nan, exc := excNV } ∧
      o.log2 (.fin true x) = { bits := o.f.nan, exc := excNV }) ∧
    o.sin (.inf m) = { bits := o.f.nan, exc := excNV } ∧ o.cos (.inf m) = { bits := o.f.nan, exc := excNV } ∧
    (∀ g ∈ [Rnd.recip, Rnd.rsqrt, Rnd.sqrt, Rnd.exp2, Rnd.log2, Rnd.sin, Rnd.cos, Rnd.tanh], g o (.nan m) = { bits := o.f.nan, exc := Exc.when m excNV })) ∧
  (∀ (k : Blk) (cb : List (BitVec 16)) (vs : List FV),
    (vs.any (fun v => !v.isFin) = true → k.quantise cb vs = k.pack (List.replicate 32 0) 0xFF) ∧
    (vs.all (fun v => v.isFin) = true → (k = .c4 → finiteEntries cb ≠ []) →
      let amax := vs.foldl (fun m v => max m v.int.natAbs) 0
      let e : Int := max (-127) (min 127 (if amax = 0 then 0 else (Nat.log2 amax : Int) - 149 - k.emax cb))
      let exceeds := fun (e : Int) => (k.codes cb e vs).any (fun c => c.2)
      ∃ j : Nat, j ≤ 2 ∧ k.quantise cb vs = k.pack ((k.codes cb (e + j) vs).map (fun c => c.1)) (e + j + 127).toNat ∧
        (∀ i : Nat, i < j → exceeds (e + i) = true ∧ e + i ≠ 127) ∧ (j = 2 ∨ e + j = 127 ∨ exceeds (e + j) = false))) ∧
  (∀ (f : Fmt) (e : Int) (m : Bool) (x : Nat), 0 < x →
    mxCode f e (.fin m x) = ((({ f := f, mode := 1, sat := true, fo := false } : Rnd).round m x 1 (-149 - e)).bits,
      decide ((({ f := f, mode := 1, sat := true, fo := false } : Rnd).round m x 1 (-149 - e)).exc &&& excOF ≠ 0))) ∧
  (∀ (u : Int) (q : Nat), q < 16 → q ≠ 8 → i4Near u < 16 ∧ i4Near u ≠ 8 ∧ (u - normK (int4 (i4Near u))).natAbs ≤ (u - normK (int4 q)).natAbs ∧
    ((u - normK (int4 (i4Near u))).natAbs = (u - normK (int4 q)).natAbs → i4Near u ≤ q)) ∧
  (∀ (cb : List (BitVec 16)) (e : Int) (v : FV) (q : Nat × FV), q ∈ finiteEntries cb →
    let far := fun (p : Nat × FV) => (normed v e - p.2.int * 2 ^ 127).natAbs
    ∃ p ∈ finiteEntries cb, (c4Code cb e v).1 = p.1 ∧ far p ≤ far q ∧ (far p = far q → p.1 ≤ q.1))

/-- BOXT, TRIT and SEGT (R204 to R207). -/
def Obligations.RayTests : Prop :=
  Both .boxt .boxtLong 2 (RayTest 5 24 boxtWords) ∧ Both .trit .tritLong 2 (RayTest 4 9 tritWords) ∧ Both .segt .segtLong 2 (RayTest 4 8 segtWords) ∧
  (∀ ray shape : List FV, rayOf ray = none →
    boxtWords ray shape = [0x7F800000, 0x7F800000, 0x7F800000, 0x7F800000, 0xE400] ∧
    tritWords ray shape = [0x7F800000, 0, 0, 0] ∧ segtWords ray shape = [0x7F800000, 0, 0, 0]) ∧
  (∀ n d : Int, d ≠ 0 →
    let res := rayRnd.round (decide ((n < 0) ≠ (d < 0))) n.natAbs d.natAbs 0
    rayQuot n d = if n = 0 ∨ res.bits = 0x80000000 then 0 else BitVec.ofNat 32 res.bits) ∧
  (∀ (tmin tmax : FV) (n d : Int), d ≠ 0 → inRange tmin tmax n d =
    decide (tmin.int * (d * d) ≤ n * d * 2 ^ 149 ∧ (tmax.isFin = true → n * d * 2 ^ 149 ≤ tmax.int * (d * d)))) ∧
  (∀ x, x < 2 ^ 32 → (fmtF32.decode x).isNan = false → rayOut (fmtF32.decode x) = if x % 2 ^ 31 = 0 then 0 else BitVec.ofNat 32 x) ∧
  (∀ (o d : V3) (tmin tmax : FV) (b : List FV),
    let at_ := fun (v : V3) (i : Nat) => if i = 0 then v.1 else if i = 1 then v.2.1 else v.2.2
    let lo := fun i => b.getD i (.nan false)
    let hi := fun i => b.getD (3 + i) (.nan false)
    let org := fun i => FV.fin (decide (at_ o i < 0)) (at_ o i).natAbs
    let slab := fun (v : FV) i => match v with
      | .inf n => FV.inf (n != decide (at_ d i < 0))
      | v => fmtF32.decode (rayQuot (v.int - at_ o i) (at_ d i)).toNat
    let tin := fun i => if (slab (hi i) i).less (slab (lo i) i) then slab (hi i) i else slab (lo i) i
    let tout := fun i => if (slab (hi i) i).less (slab (lo i) i) then slab (lo i) i else slab (hi i) i
    let bad := (∃ i, i < 6 ∧ (b.getD i (.nan false)).isNan = true) ∨ (∃ i, i < 3 ∧ (hi i).less (lo i) = true) ∨
      (∃ i, i < 3 ∧ at_ d i = 0 ∧ ((org i).less (lo i) = true ∨ (hi i).less (org i) = true))
    let ins := fun (v : FV) => v = tmin ∨ ∃ i, i < 3 ∧ at_ d i ≠ 0 ∧ v = tin i
    let outs := fun (v : FV) => v = tmax ∨ ∃ i, i < 3 ∧ at_ d i ≠ 0 ∧ v = tout i
    (bad → boxNear o d tmin tmax b = none) ∧
    (∀ v, boxNear o d tmin tmax b = some v → ins v ∧ (∀ x, ins x → v.less x = false) ∧ ∀ y, outs y → y.less v = false) ∧
    (¬ bad → boxNear o d tmin tmax b = none → ∃ x y, ins x ∧ outs y ∧ y.less x = true)) ∧
  (∀ (ray box : List FV) (o d : V3) (tmin tmax : FV), rayOf ray = some (o, d, tmin, tmax) →
    let near := fun k => boxNear o d tmin tmax ((box.drop (6 * k)).take 6)
    let w := boxtWords ray box
    let last := w.getD 4 0
    let idx := fun j => bitsN last (8 + 2 * j) 2
    w.length = 5 ∧ (∀ k, k < 4 → w.getD k 0 = (match near k with | some v => rayOut v | none => 0x7F800000) ∧ last.getLsbD k = (near k).isSome) ∧
    bitsN last 4 4 = 0 ∧ bitsN last 16 16 = 0 ∧
    (∀ i j, i < j → j < 4 → idx i ≠ idx j ∧ ((near (idx j)).isSome = true → (near (idx i)).isSome = true) ∧
      (∀ u v, near (idx i) = some u → near (idx j) = some v → v.less u = false ∧ (u.less v = false → idx i < idx j)) ∧
      (near (idx i) = none → near (idx j) = none → idx i < idx j))) ∧
  (∀ (ray tri : List FV) (o d : V3) (tmin tmax : FV), rayOf ray = some (o, d, tmin, tmax) →
    let p0 := v3At tri 0
    let e1 := (v3At tri 3).sub p0
    let e2 := (v3At tri 6).sub p0
    let det := e1.dot (d.cross e2)
    let fin := (List.range 9).all (fun i => (tri.getD i (.nan false)).isFin)
    (fin = false ∨ det = 0 → tritWords ray tri = [0x7F800000, 0, 0, 0]) ∧
    (fin = true → det ≠ 0 → ∃ t u v : Int, (V3.scale det o).add (V3.scale t d) = ((V3.scale det p0).add (V3.scale u e1)).add (V3.scale v e2) ∧
      tritWords ray tri =
        if 0 ≤ u * det ∧ 0 ≤ v * det ∧ (u + v) * det ≤ det * det ∧ inRange tmin tmax t det = true
        then [rayQuot t det, rayQuot u det, rayQuot v det, if det < 0 then 3 else 1] else [0x7F800000, 0, 0, 0])) ∧
  ∀ (ray seg : List FV) (o d : V3) (tmin tmax : FV), rayOf ray = some (o, d, tmin, tmax) →
    let w := fun i => (seg.getD i (.nan false)).int
    let a := (v3At seg 4).sub (v3At seg 0)
    let c := (v3At seg 0).sub o
    let dd := d.dot d
    -- dd × perp(x)
    let perp := fun (x : V3) => (V3.scale dd x).sub (V3.scale (x.dot d) d)
    -- s = p / q
    let q := if (perp a).dot (perp a) = 0 then 1 else (perp a).dot (perp a)
    let p := if (perp a).dot (perp a) = 0 then 0 else max 0 (min q (-((perp c).dot (perp a))))
    let e := (V3.scale q c).add (V3.scale p a)
    -- 2 q h and (q dd)² r2
    let h2 := (q - p) * w 3 + p * w 7
    let r2 := (perp e).dot (perp e)
    let hit := (List.range 8).all (fun i => (seg.getD i (.nan false)).isFin) = true ∧ 0 ≤ w 3 ∧ 0 ≤ w 7 ∧ 4 * r2 ≤ h2 * h2 * (dd * dd) ∧
      inRange tmin tmax (e.dot d) (q * dd) = true
    (∀ x : V3, (perp x).dot d = 0) ∧ (¬ hit → segtWords ray seg = [0x7F800000, 0, 0, 0]) ∧
    (hit → ∃ f : Word, segtWords ray seg = [rayQuot (e.dot d) (q * dd), rayQuot p q, f, 1] ∧ (h2 = 0 ∨ r2 = 0 → f = 0) ∧
      (h2 ≠ 0 → r2 ≠ 0 → f = BitVec.ofNat 32 (rayRnd.root (4 * r2).natAbs (h2 * h2 * (dd * dd)).natAbs 0).bits))

/-- LD, ST, LDS and STS at issue (R208 to R217). -/
def Obligations.LoadsAndStoresEnter : Prop :=
  Both .ld .ldLong 1 (fun i r => Accesses i (formLd r) r (fun _ => true) (loadAccess formLd true (ldOp r) r)) ∧
  Both .st .stLong 1 (fun i r => Accesses i (formSt r) r (fun _ => true) (storeAccess formSt true (stOp r) r)) ∧
  Both .lds .ldsLong 1 (fun i r => Accesses i (formSpad false r) r (fun _ => true) (loadAccess (formSpad false) false (ldsOp r) r)) ∧
  Both .sts .stsLong 1 (fun i r => Accesses i (formSpad true r) r (fun _ => true) (storeAccess (formSpad true) false (stsOp r) r))

/-- LDS.q, STS.q, LDT and STT at issue (R218 to R220). -/
def Obligations.FifoAndTileAccessesEnter : Prop :=
  let plane := fun (r : Reg) (s : State) => r.c + s.me.baseOf r false
  let unit := fun (r : Reg) => if esize r.t = 4 then 2 else 1
  let x := fun (F : Form) (r : Reg) (store : Bool) (m : MemOp) =>
    { bregs := r.baseRegs false, bad := fun s l => (s.opnd F r 2 l).pois || (store && s.runPois F r 0 r.run l)
      addr := fun s l => tileAddr (unit r) (plane r s) (s.opnd F r 2 l).val.toNat, align := 1
      work := fun _ => if store then .store m else .load m
      data := fun s l => if store then s.runData F r 0 r.run l else []
      busy := fun s => if store then [] else s.me.dstBusy r (s.lanes r) r.run (s.me.targets F r) : Access }
  let part := fun (store : Bool) (i : Instr) (r : Reg) => ∀ frag : Bool,
    let F := formTile store frag r
    let m : MemOp := { space := .tile, scope := bankScope (r.xf 0 3), acq := !store && r.xb 3, rel := store && r.xb 3, esz := 2 * unit r,
                       cnt := r.run, ty := r.t, fmt := false, nf := false }
    let ordered := fun (s : State) => decide (s.isFrag = frag) && (!r.xb 4 || (lanesOf (s.lanes r)).all (fun l => s.orderedReady s.me l))
    Accesses i F r (fun s => ordered s && !(decide (unit r = 2) && decide (plane r s % 2 = 1))) (x F r store m) ∧
    (∀ s : State, s.runs F r = true → ordered s = true → s.me.scalarsBusy (r.baseRegs false) = false → unit r = 2 → plane r s % 2 = 1 →
      (x F r store m).basePois s = false → (∀ l, l < s.me.width → (s.lanes r).getLsbD l = true → (x F r store m).bad s l = false) →
      exec i s = .next (s.trapNow 0x09 (s.lanes r) 0 ((x F r store m).addr s (lowLane (s.lanes r))) 0))
  let fifo := fun (i : Instr) (F : State → Form) (r : Reg) (push : Bool) => ∀ s : State, s.runs (F s) r = true → s.queueRoom r.fsel = true →
    let bad := maskOf s.me.width (fun l => (s.lanes r).getLsbD l && push && (s.opnd (F s) r 0 l).pois)
    (bad ≠ 0 → exec i s = .next (s.trapNow 0x08 bad 0 0 0)) ∧
    (bad = 0 → ∃ t e, exec i s = .next t ∧ Queued s t r e (s.unsetBit (F s) r) ∧
      e.lmask = s.lanes r ∧ e.order = s.me.nextOrder ∧ e.work = (if push then .fifoPush r.c 0 else .fifoPop r.c 0) ∧
      e.busy = (if push then [] else s.me.dstBusy r (s.lanes r) 1 (s.me.targets (F s) r)) ∧
      (∀ l, l < s.me.width → (s.lanes r).getLsbD l = true → e.data.getD l [] = if push then s.runData (F s) r 0 1 l else []))
  Both .ldt .ldtLong 1 (part false) ∧ Both .stt .sttLong 1 (part true) ∧
  (∀ o, let r := Reg.ofLong o
    fifo (.ldsQ o) (fun s => formFifo false s.myBlock.fifos.length r) r false) ∧
  (∀ o, let r := Reg.ofLong o
    fifo (.stsQ o) (fun s => formFifo true s.myBlock.fifos.length r) r true)

/-- ATOM, RED, RED.det and CAS at issue (R221 to R225). -/
def Obligations.AtomicsEnter : Prop :=
  let atom := fun (i : Instr) (r : Reg) => Accesses i (formAtom r) r (fun _ => true) (atomAccess (formAtom r) 1 true (.atomic (atomOp r) .atom r.aop) r)
  let red := fun (i : Instr) (r : Reg) => Accesses i (formRed r) r (fun _ => true) (atomAccess (formRed r) 1 false (.atomic (atomOp r) .red r.aop) r)
  Both .atomAdd .atomAddLong 1 atom ∧ Both .atomMin .atomMinLong 1 atom ∧ Both .atomMax .atomMaxLong 1 atom ∧ Both .atomAnd .atomAndLong 1 atom ∧
  Both .atomOr .atomOrLong 1 atom ∧ Both .atomXor .atomXorLong 1 atom ∧ Both .atomExch .atomExchLong 1 atom ∧ Both .atomInc .atomIncLong 1 atom ∧
  Both .redAdd .redAddLong 1 red ∧ Both .redMin .redMinLong 1 red ∧ Both .redMax .redMaxLong 1 red ∧ Both .redAnd .redAndLong 1 red ∧
  Both .redOr .redOrLong 1 red ∧ Both .redXor .redXorLong 1 red ∧
  (∀ o, let r := Reg.ofLong o
    Accesses (.redDet o) (formRedDet r) r (fun _ => true) (atomAccess (formRedDet r) 1 false (.redDet r.t 0) r)) ∧
  Both .cas .casLong 1 (fun i r => Accesses i (formCas r) r (fun _ => true) (atomAccess (formCas r) 2 true (.atomic (atomOp r) .cas 0) r))

/-- FENCE, CPS, PREF, CCTL, SIG and RFLUSH at issue (R226, R229 to R233). -/
def Obligations.SynchronisationEnters : Prop :=
  let fence := fun (i : Instr) (r : Reg) => ∀ s : State, s.runs (formFence s.ctx r) r = true → s.queueRoom r.fsel = true →
    ∃ t e, exec i s = .next t ∧ Queued s t r e (s.unsetBit (formFence s.ctx r) r) ∧ e.lmask = s.lanes r ∧ e.emask = s.lanes r ∧
      e.work = .fence (r.xf 3 2) (r.xf 0 3) ∧ e.fla = s.ctx.selA r.fsel ∧ e.flb = s.ctx.selB r.fsel
  let line := fun (i : Instr) (n : Nat) (w : Work) (r : Reg) => Accesses i (formLine n r) r (fun _ => true) (lineAccess (formLine n r) w r)
  let sig := fun (i : Instr) (r : Reg) => Accesses i (formSig r) r (fun _ => true)
    { bregs := r.baseRegs true, bad := fun s l => (r.vo && (s.opnd (formSig r) r 2 l).pois) || s.runPois (formSig r) r 3 2 l
      addr := fun s l => s.addrOf (formSig r) r true r.vo 0 l, align := 8, work := fun _ => .sig (r.xf 0 2) (r.xb 2)
      data := fun s l => s.runData (formSig r) r 3 2 l }
  Both .fenceMx .fenceMxLong 0 fence ∧ (∀ o, fence (.fenceAcq o) (Reg.ofLong o)) ∧ (∀ o, fence (.fenceRel o) (Reg.ofLong o)) ∧
  (∀ o, fence (.fenceAr o) (Reg.ofLong o)) ∧
  (∀ o, line (.prefL1 o) 2 (.pref 0) (Reg.ofShort 0 o)) ∧ (∀ o, line (.prefL1Long o) 2 (.pref ((Reg.ofLong o).xf 0 1)) (Reg.ofLong o)) ∧
  (∀ o, line (.prefDc o) 2 (.pref ((Reg.ofLong o).xf 0 1)) (Reg.ofLong o)) ∧
  (∀ o, line (.cctlWb o) 2 (.cctl 0) (Reg.ofShort 0 o)) ∧ (∀ o, line (.cctlWbLong o) 2 (.cctl ((Reg.ofLong o).xf 0 2)) (Reg.ofLong o)) ∧
  (∀ o, line (.cctlInv o) 2 (.cctl ((Reg.ofLong o).xf 0 2)) (Reg.ofLong o)) ∧
  (∀ o, Enters (.cctlInvall o) (formWhole 2 (Reg.ofLong o)) (Reg.ofLong o) (.cctl 2)) ∧
  Both .sigSet .sigSetLong 0 sig ∧ (∀ o, sig (.sigAdd o) (Reg.ofLong o)) ∧ (∀ o, sig (.sigSub o) (Reg.ofLong o)) ∧
  Both .rflush .rflushLong 0 (fun i r => line i 1 (.rflush false) r) ∧
  (∀ o, Enters (.rflushAll o) (formWhole 1 (Reg.ofLong o)) (Reg.ofLong o) (.rflush true)) ∧
  Both .cps .cpsLong 0 (fun i r => ∀ (s : State) (b : Block),
    let F := formCps s.barCount r
    let size := esize r.t * r.run
    let lane := fun (f : Nat → Bool) => maskOf s.me.width (fun l => (s.lanes r).getLsbD l && f l)
    let bad := lane (fun l => (r.vo && (s.opnd F r 2 l).pois) || (s.opnd F r 0 l).pois)
    let mis := lane (fun l => decide ((s.addrOf F r true r.vo 0 l).toNat % size ≠ 0))
    let low := lane (fun l => decide ((s.opnd F r 0 l).val.toNat % size ≠ 0))
    s.runs F r = true → s.me.scalarsBusy (r.baseRegs true) = false → s.queueRoom r.fsel = true → s.block s.me.block = some b →
    (r.baseRegs true).any (fun n => (s.me.sreg n).pois) = false →
    (bad ≠ 0 → exec i s = .next (s.trapNow 0x08 bad 0 0 0)) ∧
    (bad = 0 → mis ≠ 0 → exec i s = .next (s.trapNow 0x09 mis 0 (s.addrOf F r true r.vo 0 (lowLane mis)) 0)) ∧
    (bad = 0 → mis = 0 → low ≠ 0 → exec i s = .next (s.trapNow 0x09 low 0 ((s.opnd F r 0 (lowLane low)).val.zeroExtend 64) 0)) ∧
    let x := b.bars.getD r.c Barrier.reset
    let late := match s.barNeed b r.c with | some n => decide (n ≤ x.arrivals) | none => false
    (bad = 0 → mis = 0 → low = 0 → ∃ t e m, exec i s = .next t ∧ Queued s { t with blocks := s.blocks } r e (s.unsetBit F r) ∧
      t.blocks = s.blocks.map (fun c => if c.id = b.id then
        { b with bars := setAt b.bars r.c (if late then { x with later := x.later + 1 } else { x with cps := x.cps + 1 }) } else c) ∧
      e.work = .cps m r.c (if late then x.phase + 1 else x.phase) ∧ m.space = .global ∧ m.esz * m.cnt = size ∧ m.scope = (ldOp r).scope ∧
      e.lmask = s.lanes r ∧ (∀ l, l < s.me.width → e.addr.getD l 0 = s.addrOf F r true r.vo 0 l) ∧
      (∀ l, l < s.me.width → (s.lanes r).getLsbD l = true → e.data.getD l [] = [(s.opnd F r 0 l).val])))

/-- BAR (R227, R228). -/
def Obligations.BarriersCountArrivals : Prop :=
  let behind := fun (s : State) (l : Nat) => (s.me.entries.drop s.me.suspended).any (fun x => decide (x.order < s.me.nextOrder) && !x.dropped && x.openFor l)
  let lastIs := fun (s t : State) (r : Reg) (m : Mask) (p : Word) => ∀ l, l < s.me.width → ∀ n,
    (t.me.thread l).lastAt n = if m.getLsbD l && decide (n = r.d) then some p else (s.me.thread l).lastAt n
  let part := fun (i : Instr) (r : Reg) => ∀ s : State, s.runs (formBar s.barCount r) r = true → s.queueRoom r.fsel = true →
    (∃ t, exec i s = .next t ∧ t = { s with me := t.me, blocks := t.blocks, mxOld := t.mxOld } ∧ t.me.vregs = s.me.vregs ∧ t.me.sregs = s.me.sregs ∧ t.me.mregs = s.me.mregs) ∧
    (∀ b x, s.me.id ≠ 0 → s.block s.me.block = some b → b.bars[r.d]? = some x → (∀ y ∈ s.me.entries, y.order < s.me.nextOrder) →
      (∀ l, (s.lanes r).getLsbD l = true → l < s.me.width) →
      let due := maskOf s.me.width (fun l => (s.lanes r).getLsbD l && !behind s l)
      let code := x.code.getD r.b
      (r.xf 0 2 ≠ 2 → code ≠ 0 → x.arrivals + popMask due < 8 * code →
        let held := if r.xf 0 2 = 1 then s.lanes r &&& ~~~ due else s.lanes r
        ∃ t, exec i s = .next t ∧ lastIs s t r due x.phase ∧
          t.block s.me.block = some { b with bars := setAt b.bars r.d { x with arrivals := x.arrivals + popMask due, code := if due = 0 then x.code else some code } } ∧
          (held = 0 → t.me.entries = s.me.entries) ∧
          (held ≠ 0 → ∃ e, t.me.entries = s.me.entries ++ [e] ∧ e.lmask = held ∧ e.emask = s.lanes r ∧ e.fla = s.ctx.selA r.fsel ∧ e.flb = s.ctx.selB r.fsel ∧
            e.work = .bar r.d (r.xf 0 2) (r.xb 2) r.b due (some x.phase))) ∧
      (r.xf 0 2 ≠ 2 → code ≠ 0 → due = s.lanes r → x.cps = 0 → x.arrivals + popMask (s.lanes r) = 8 * code →
        ∃ t, exec i s = .next t ∧ lastIs s t r (s.lanes r) x.phase ∧ t.me.entries = s.me.entries ∧
          (∀ l, l < s.me.width → (t.me.thread l).pc = (s.onward r l).pc) ∧
          t.block s.me.block = some { b with bars := setAt b.bars r.d { x with phase := x.phase + 1, arrivals := 0, code := none, cps := x.later, later := 0 } }) ∧
      (r.xf 0 2 = 2 → (∀ l, (s.lanes r).getLsbD l = true → ∃ p, (s.me.thread l).lastAt r.d = some p ∧ wrapAfter x.phase p = true) →
        ∃ t, exec i s = .next t ∧ t.blocks = s.blocks ∧ t.me.entries = s.me.entries ∧ ∀ l, l < s.me.width → t.me.thread l = s.onward r l) ∧
      (r.xf 0 2 = 2 → (∀ l p, (s.lanes r).getLsbD l = true → (s.me.thread l).lastAt r.d = some p → wrapAfter x.phase p = false) →
        ∃ t e, exec i s = .next t ∧ Queued s t r e (s.unsetBit (formBar s.barCount r) r) ∧ e.lmask = s.lanes r ∧
          e.work = .bar r.d 2 (r.xb 2) r.b 0 (some x.phase)))
  Both .barSync .barSyncLong 0 part ∧ (∀ o, part (.barArrive o) (Reg.ofLong o)) ∧ (∀ o, part (.barWait o) (Reg.ofLong o)) ∧
  ∀ (s : State) (blk n : Nat) (b : Block), s.block blk = some b →
    let x := b.bars.getD n Barrier.reset
    (x.code = none → s.barComplete blk n = s) ∧
    ∀ c, x.code = some c → s.barComplete blk n =
      if (if c = 0 then s.expected blk n x.phase else 8 * c) ≤ x.arrivals ∧ x.cps = 0
      then s.setBlock { b with bars := setAt b.bars n { x with phase := x.phase + 1, arrivals := 0, code := none, cps := x.later, later := 0 } } else s

/-- One byte written (R86 to R88). -/
def Obligations.MemoryReadsBackWrites : Prop :=
  ∀ (s : State) (p : Point) (pa : Nat) (b : Byte), s.tidy = true →
    (s.putByte p pa b).byteAt p pa = b ∧
    (∀ (q : Point) (a : Nat), a ≠ pa → (s.putByte p pa b).byteAt q a = s.byteAt q a) ∧
    (∀ d, (s.putByte .home pa b).byteAt (.die d) pa = b) ∧
    (∀ d c a, (s.putByte (.l1 d c) pa b).byteAt .home a = s.byteAt .home a ∧
      ∀ x, (s.putByte (.l1 d c) pa b).byteAt (.die x) a = s.byteAt (.die x) a) ∧
    (∀ d a, (s.putByte (.die d) pa b).byteAt .home a = s.byteAt .home a)

/-- LOAD_COMPLETE (R92, R211, R214, R217, R219). -/
def Obligations.LoadsReturnBytes : Prop :=
  (∀ (s : State) (team entry : Nat) (t : Team) (e : Entry) (m : MemOp) (b : Block),
    s.ready team entry = some (t, e) → e.work = .load m → m.space = .scratch ∨ m.space = .tile → m.acq = false → s.block t.block = some b → e.refused = 0 →
    let k := s.bankOf b m.space
    let stride := if m.space = .tile then 8192 * (m.esz / 2) else m.esz
    (∀ l, e.lmask.getLsbD l = true → (e.addr.getD l 0).toNat + stride * (m.cnt - 1) + m.esz ≤ k.size ∧ 0 < m.cnt) →
    ∃ u, exec (.loadComplete team entry) s = .next (s.setTeam u) ∧ Completed t u e ∧ u.sregs = t.sregs ∧
      ∀ n l, l < t.width → u.velem n l =
        if e.lmask.getLsbD l = true ∧ tgAt e.tgt l 0 ≤ n ∧ n < tgAt e.tgt l 0 + m.cnt then
          { val := extend m.ty (ofLeBytes (k.read ((e.addr.getD l 0).toNat + stride * (n - tgAt e.tgt l 0)) m.esz))
            pois := (List.range m.cnt).any (fun i => k.poisoned ((e.addr.getD l 0).toNat + stride * i) m.esz) }
        else t.velem n l) ∧
  (∀ (s : State) (team entry : Nat) (t : Team) (e : Entry) (pa : Nat → Nat), s.tidy = true → s.ready team entry = some (t, e) →
    (s.core t.die t.core).bad = [] →
    let own := fun a => (tabGet (s.core t.die t.core).dirty a).getD (s.dieByte t.die a)
    let seen := fun (sc l a : Nat) (b : Byte) => b = own a ∨ (s.pointAt sc t.die t.core (pa l) = .l1 t.die t.core ∧ b = s.l1Byte t.die t.core a)
    let plain := fun (m : MemOp) (l n : Nat) => (∃ c, s.place t e m kindRead l = .mem (pa l) c ∧ s.heldAt (.mem (pa l) c) = false) ∧
      s.isWindow (pa l) = false ∧ ∀ ln ∈ linesIn (pa l) n, s.lineBad (128 * ln) = false
    let done := fun (u : State) (v : Team) => u.team t.id = some v ∧ v.entries = t.entries.filter (fun x => decide (x.order ≠ e.order)) ∧
      v.flags = decCounts t.flags e.fla e.flb
    (∀ m, e.work = .load m → m.space = .global ∨ m.space = .const → m.fmt = false →
      (∀ l, e.lmask.getLsbD l = true → plain m l (m.esz * m.cnt)) →
      ∃ u v, ∃ byte : Nat → Nat → Byte, exec (.loadComplete team entry) s = .next u ∧ done u v ∧ v.sregs = t.sregs ∧
        (∀ l a, e.lmask.getLsbD l = true → pa l ≤ a → a < pa l + m.esz * m.cnt → seen (if m.space = .const then 6 else m.scope) l a (byte l a)) ∧
        ∀ n l, l < t.width → v.velem n l =
          if e.lmask.getLsbD l = true ∧ tgAt e.tgt l 0 ≤ n ∧ n < tgAt e.tgt l 0 + m.cnt then
            Elem.ofWord (extend m.ty (ofLeBytes ((List.range m.esz).map (fun i => byte l (pa l + m.esz * (n - tgAt e.tgt l 0) + i)))))
          else t.velem n l) ∧
    (∀ sd pair sc acq, e.work = .sload sd pair sc acq →
      let l := lowLane e.lmask
      let m : MemOp := { space := .global, scope := sc, acq := acq, rel := false, esz := 4, cnt := if pair then 2 else 1, ty := 1, fmt := false, nf := false }
      plain m l (4 * m.cnt) →
      ∃ u v, ∃ byte : Nat → Byte, exec (.loadComplete team entry) s = .next u ∧ done u v ∧ v.vregs = t.vregs ∧
        (∀ a, pa l ≤ a → a < pa l + 4 * m.cnt → seen sc l a (byte a)) ∧
        ∀ k, k < 24 → v.sreg k =
          if sd ≤ k ∧ k < sd + m.cnt then Elem.ofWord (BitVec.ofNat 32 (ofLeBytes ((List.range 4).map (fun i => byte (pa l + 4 * (k - sd) + i)))))
          else t.sreg k))

/-- STORE_PERFORMED (R92, R211, R213). -/
def Obligations.StoresWriteTheirBytes : Prop :=
  (∀ (s : State) (team entry l pa : Nat) (t : Team) (e : Entry) (m : MemOp), s.tidy = true →
    s.ready team entry = some (t, e) →
    (e.work = .store m ∨ ∃ pair, e.work = .sstore pair m.scope m.rel ∧
      m = { space := .global, scope := m.scope, acq := false, rel := m.rel, esz := 4, cnt := if pair then 2 else 1, ty := 1, fmt := false, nf := false }) →
    m.space = .global → m.rel = false → e.refused = 0 → s.waitsHeld t.id e.order none = false → onlyLane e.lmask l →
    s.place t e m kindWrite l = .mem pa false → s.isWindow pa = false →
    let bs := storeBytesOf m.esz (e.data.getD l [])
    let p := s.pointAt m.scope t.die t.core pa
    (∀ r ∈ s.reds, r.overlaps pa bs.length = false) →
    ∃ u v, exec (.storePerformed team entry) s = .next u ∧ u.team t.id = some v ∧ v.entries = t.entries.filter (fun x => decide (x.order ≠ e.order)) ∧
      v.vregs = t.vregs ∧ (∀ a, u.byteAt p a = wrote pa bs a (s.byteAt p a)) ∧ (p ≠ .home → u.mem = s.mem) ∧ (∀ x, x ≠ t.id → u.team x = s.team x)) ∧
  (∀ (s : State) (team entry l : Nat) (t : Team) (e : Entry) (m : MemOp) (b : Block),
    s.ready team entry = some (t, e) → e.work = .store m → m.space = .scratch → m.rel = false → e.refused = 0 → s.waitsHeld t.id e.order none = false →
    onlyLane e.lmask l →
    s.block t.block = some b → tabWf b.scratch.bytes = true →
    let o := (e.addr.getD l 0).toNat
    let bs := storeBytesOf m.esz (e.data.getD l [])
    o + m.esz * m.cnt ≤ b.scratch.size →
    ∃ u v k, exec (.storePerformed team entry) s = .next u ∧ u = { s with me := u.me, teams := u.teams, blocks := u.blocks, mxOld := u.mxOld } ∧
      u.team t.id = some v ∧ v.entries = t.entries.filter (fun x => decide (x.order ≠ e.order)) ∧ v.vregs = t.vregs ∧
      u.block b.id = some { b with scratch := k } ∧ (∀ x, x ≠ b.id → u.block x = s.block x) ∧
      ∀ a, defGet emptyByte k.bytes a = wrote o bs a (defGet emptyByte b.scratch.bytes a))

/-- ATOMIC_PERFORMED (R221 to R225). -/
def Obligations.AtomicsReadModifyWrite : Prop :=
  (∀ (s : State) (team entry l : Nat) (t : Team) (e : Entry) (m : MemOp) (k : AtomKind) (op : Nat) (b : Block),
    s.ready team entry = some (t, e) → e.work = .atomic m k op → m.space = .scratch → m.acq = false → m.rel = false → e.refused = 0 →
    s.waitsHeld t.id e.order none = false → onlyLane e.lmask l → l < t.width → s.block t.block = some b → tabWf b.scratch.bytes = true →
    let o := (e.addr.getD l 0).toNat
    o + m.esz * m.cnt ≤ b.scratch.size → b.scratch.poisoned o m.esz = false →
    let old := ofLeBytes (b.scratch.read o m.esz)
    let d := ((e.data.getD l []).headD 0).toNat
    let x := d % 2 ^ (8 * m.esz)
    let bs := match k with
      | .cas => if old = d then leBytes m.esz (((e.data.getD l []).getD 1 0).toNat) else []
      | _ => leBytes m.esz (atomValue op m.ty old x)
    ∃ u v w, exec (.atomicPerformed team entry) s = .next u ∧ u = { s with me := u.me, teams := u.teams, blocks := u.blocks, mxOld := u.mxOld } ∧
      u.team t.id = some v ∧ v.entries = t.entries.filter (fun y => decide (y.order ≠ e.order)) ∧
      u.block b.id = some { b with scratch := w } ∧
      (∀ a, defGet emptyByte w.bytes a = wrote o bs a (defGet emptyByte b.scratch.bytes a)) ∧
      ∀ n j, j < t.width → v.velem n j =
        if k ≠ .red ∧ j = l ∧ n = tgAt e.tgt l 0 then Elem.ofWord (BitVec.ofNat 32 old) else t.velem n j) ∧
  (∀ ty old x : Nat, ty < 2 → old < 2 ^ 32 → x < 2 ^ 32 →
    atomValue 0 ty old x = (old + x) % 2 ^ 32 ∧ atomValue 3 ty old x = Nat.land old x ∧ atomValue 4 ty old x = Nat.lor old x ∧
    atomValue 5 ty old x = Nat.xor old x ∧ atomValue 6 ty old x = x ∧ atomValue 7 ty old x = (if old < x then old + 1 else 0) ∧
    extInt ty (atomValue 1 ty old x) = min (extInt ty old) (extInt ty x) ∧ extInt ty (atomValue 2 ty old x) = max (extInt ty old) (extInt ty x)) ∧
  (∀ ty old x : Nat, ty = 2 ∨ ty = 3 ∨ ty = 4 →
    let f := fmtOf ty
    let o : Rnd := { f := f, mode := 1, sat := false, fo := false }
    atomValue 0 ty old x = (o.add (f.decode old) (f.decode x)).bits ∧ atomValue 1 ty old x = (o.minmax false (f.decode old) (f.decode x)).bits ∧
    atomValue 2 ty old x = (o.minmax true (f.decode old) (f.decode x)).bits)

/-- PROTECTION_REFUSAL (R213). -/
def Obligations.RefusedWritesTrap : Prop :=
  let drops := fun (t : Team) (e : Entry) => { t with
    entries := t.entries.map (fun x => if x.order = e.order then { e with dropped := true, waits := [] } else x)
    stepAt := t.stepAt.filter (fun m => decide (m.entry ≠ some e.order)) }
  let trap := fun (e : Entry) => ({ cause := 0x0B, sub := e.refCause, tpc := e.pc, thdr := e.hdr, lanes := e.refused, info := 0, faddr := e.refAddr, next := false } : Trap)
  (∀ (s : State) (team entry : Nat) (t : Team) (e : Entry), s.ready team entry = some (t, e) →
    ((∃ ty since, e.work = .redDet ty since) ∨ ∃ op irq, e.work = .sig op irq) → t.entries.find? (fun x => decide (x.order = e.order)) = some e →
    (e.refused ≠ 0 → exec (.protectionRefusal team entry) s = .next ((s.setTeam (drops t e)).trapTeam t.id (trap e))) ∧
    (e.refused = 0 → exec (.protectionRefusal team entry) s = .next s)) ∧
  ∀ (s : State) (team entry : Nat) (t : Team) (e : Entry) (m : MemOp), s.ready team entry = some (t, e) →
    t.entries.find? (fun x => decide (x.order = e.order)) = some e → e.refused = 0 → s.waitsHeld t.id e.order none = false →
    let refusedBy := fun (at_ : Nat → At) (ev : Instr) =>
      let bad := maskOf 64 (fun l => e.lmask.getLsbD l && (match at_ l with | .refuse _ => true | _ => false))
      let low := lowLane bad
      ∀ cause, bad ≠ 0 → at_ low = .refuse cause →
        let e' := { e with refused := bad, refAddr := e.addr.getD low 0, refCause := cause }
        let s' := s.logViolation t.die t.core (e.addr.getD low 0).toNat e.pc.toNat t.proc cause e.kind 0 low
        ∃ u, s'.team t.id = some u ∧ exec ev s = .next ((s'.setTeam (drops u e')).trapTeam t.id (trap e'))
    (e.work = .store m → refusedBy (s.place t e m kindWrite) (.storePerformed team entry) ∧ refusedBy (s.place t e m kindWrite) (.protectionRefusal team entry)) ∧
    (∀ pair, e.work = .sstore pair m.scope m.rel →
      m = { space := .global, scope := m.scope, acq := false, rel := m.rel, esz := 4, cnt := if pair then 2 else 1, ty := 1, fmt := false, nf := false } →
      refusedBy (s.place t e m kindWrite) (.storePerformed team entry)) ∧
    (∀ k op, e.work = .atomic m k op → refusedBy (s.atomPlace t e m) (.atomicPerformed team entry) ∧ refusedBy (s.atomPlace t e m) (.protectionRefusal team entry))

/-- FENCE, PREF, CCTL and WRITE_VISIBLE (R87, R91, R230, R231). -/
def Obligations.FencesAndCaches : Prop :=
  let done := fun (t : Team) (e : Entry) (u : State) => ∃ v, u.team t.id = some v ∧ Completed t v e ∧ v.vregs = t.vregs ∧ v.sregs = t.sregs
  ∀ s : State, s.tidy = true →
    (∀ (team entry : Nat) (t : Team) (e : Entry), s.ready team entry = some (t, e) → t.entries.find? (fun x => decide (x.order = e.order)) = some e →
      (∀ sc, e.work = .fence 0 sc →
        ((t.before e).any (fun x => x.work.writes) = true → exec (.fenceComplete team entry) s = .next s) ∧
        ((t.before e).any (fun x => x.work.writes) = false →
          ∃ u, exec (.fenceComplete team entry) s = .next ((s.lanesReady t.id e.emask false).setTeam u) ∧ Completed t u e ∧
            u.vregs = t.vregs ∧ u.sregs = t.sregs)) ∧
      (∀ sc, e.work = .fence 2 sc → 5 ≤ sc → (t.before e).any (fun x => x.work.accesses) = false →
        ∃ u, exec (.fenceComplete team entry) s = .next u ∧ done t e u ∧
          ∀ a b, tabGet (s.core t.die t.core).dirty a = some b → u.homeByte a = b) ∧
      (∀ sc, e.work = .fence 1 sc → (t.before e).any (fun x => x.work.reads) = true → exec (.fenceComplete team entry) s = .next s) ∧
      (∀ k sc, k = 2 ∨ k = 3 → e.work = .fence k sc → (t.before e).any (fun x => x.work.accesses) = true → exec (.fenceComplete team entry) s = .next s) ∧
      (∀ sc, e.work = .fence 1 sc → (t.before e).any (fun x => x.work.reads) = false →
        ∃ u, exec (.fenceComplete team entry) s = .next u ∧ done t e u ∧ (3 ≤ sc → (u.core t.die t.core).clean = []) ∧
          ∀ a b, 3 ≤ sc → tabGet (s.core t.die t.core).dirty a = some b → u.dieByte t.die a = b) ∧
      (∀ sc, e.work = .fence 3 sc → (t.before e).any (fun x => x.work.accesses) = false →
        ∃ u, exec (.fenceComplete team entry) s = .next u ∧ done t e u ∧ (3 ≤ sc → (u.core t.die t.core).clean = []) ∧
          ∀ a b, 5 ≤ sc → tabGet (s.core t.die t.core).dirty a = some b → u.homeByte a = b) ∧
      (∀ inv, inv = 0 ∨ inv = 1 → e.work = .cctl inv → ∃ u, exec (.cctlComplete team entry) s = .next u ∧ done t e u ∧ u.mem = s.mem ∧
        (∀ a, u.dieByte t.die a = if lineOf a ∈ s.linesOf t e then (tabGet (s.core t.die t.core).dirty a).getD (s.dieByte t.die a) else s.dieByte t.die a) ∧
        ∀ ln, tabGet (u.core t.die t.core).clean ln = if inv = 1 ∧ ln ∈ s.linesOf t e then none else tabGet (s.core t.die t.core).clean ln) ∧
      (e.work = .pref 0 → ∃ u, exec (.prefAccepted team entry) s = .next u ∧ done t e u ∧ u.mem = s.mem ∧ u.dies = s.dies ∧
        ∀ ln, (tabGet (u.core t.die t.core).clean ln).isSome = (decide (ln ∈ s.linesOf t e) || (tabGet (s.core t.die t.core).clean ln).isSome)) ∧
      (e.work = .cctl 2 → ∃ u, exec (.cctlComplete team entry) s = .next u ∧ (u.core t.die t.core).clean = [] ∧ (u.core t.die t.core).dirty = [] ∧
        ∀ a b, tabGet (s.core t.die t.core).dirty a = some b → u.dieByte t.die a = b) ∧
      (e.work = .pref 1 → ∃ u, exec (.prefAccepted team entry) s = .next (s.setTeam u) ∧ Completed t u e ∧ u.vregs = t.vregs ∧ u.sregs = t.sregs)) ∧
    (∀ d c ln, ∃ u, exec (.writeVisible d (some c) ln) s = .next u ∧ u.mem = s.mem ∧
      ∀ a, u.dieByte d a = if a / 128 = ln then (tabGet (s.core d c).dirty a).getD (s.dieByte d a) else s.dieByte d a) ∧
    (∀ d ln, ∃ u, exec (.writeVisible d none ln) s = .next u ∧
      ∀ a, u.homeByte a = if a / 128 = ln then s.dieByte d a else s.homeByte a)

/-- FIFO_OP_PERFORMED and CPS_WRITE_PERFORMED (R218, R229). -/
def Obligations.FifoAndCopies : Prop :=
  let waiting := fun (s : State) (t : Team) (e : Entry) => ({ s with nextId := s.nextId + 1 } : State).setTeam (t.setEntry e)
  (∀ (s : State) (team entry k seq : Nat) (t : Team) (e : Entry) (b : Block), s.ready team entry = some (t, e) → s.block t.block = some b →
    let q := b.fifos.getD k []
    (e.work = .fifoPush k seq → s.fifoBefore b.id k seq true = false →
      (q.length + popMask e.lmask ≤ 12288 → ∃ u v, exec (.fifoOpPerformed team entry) s = .next u ∧ u.team t.id = some v ∧ Completed t v e ∧
        v.vregs = t.vregs ∧
        u.block b.id = some { b with fifos := setAt b.fifos k (q ++ (lanesOf e.lmask).map (fun l => Elem.ofWord ((e.data.getD l []).headD 0))) }) ∧
      (12288 < q.length + popMask e.lmask → ∃ u, exec (.fifoOpPerformed team entry) s = .next u ∧ u.blocks = s.blocks ∧ (seq ≠ 0 → u = s) ∧
        (seq = 0 → u = waiting s t { e with work := .fifoPush k s.nextId }))) ∧
    (e.work = .fifoPop k seq → s.fifoBefore b.id k seq false = false →
      (popMask e.lmask ≤ q.length → ∃ u v, exec (.fifoOpPerformed team entry) s = .next u ∧ u.team t.id = some v ∧ Completed t v e ∧
        u.block b.id = some { b with fifos := setAt b.fifos k (q.drop (popMask e.lmask)) } ∧
        ∀ n l, l < t.width → v.velem n l =
          if e.lmask.getLsbD l = true ∧ n = tgAt e.tgt l 0 then q.getD ((lanesOf e.lmask).filter (fun j => decide (j < l))).length Elem.zero
          else t.velem n l) ∧
      (q.length < popMask e.lmask → ∃ u, exec (.fifoOpPerformed team entry) s = .next u ∧ u.blocks = s.blocks ∧ (seq ≠ 0 → u = s) ∧
        (seq = 0 → u = waiting s t { e with work := .fifoPop k s.nextId })))) ∧
  (∀ (s : State) (team entry n l pa : Nat) (ph : Word) (t : Team) (e : Entry) (m : MemOp) (b : Block) (x : Barrier),
    s.ready team entry = some (t, e) → e.work = .cps m n ph → e.refused = 0 → onlyLane e.lmask l → s.block t.block = some b →
    tabWf b.scratch.bytes = true → b.bars[n]? = some x → x.code = none →
    t.entries.find? (fun y => decide (y.order = e.order)) = some e →
    let o := ((e.data.getD l []).headD 0).toNat
    o + m.esz * m.cnt ≤ b.scratch.size → s.place t e m kindRead l = .mem pa false →
    ∃ u v c, exec (.cpsWritePerformed team entry) s = .next u ∧ u.team t.id = some v ∧
      v.entries = t.entries.filter (fun y => decide (y.order ≠ e.order)) ∧ v.vregs = t.vregs ∧
      u.block b.id = some c ∧
      c.bars[n]? = some (if ph = x.phase then { x with cps := x.cps - 1 } else { x with later := x.later - 1 }) ∧
      ∀ a, (a < o ∨ o + m.esz * m.cnt ≤ a) → defGet emptyByte c.scratch.bytes a = defGet emptyByte b.scratch.bytes a) ∧
  (∀ (s : State) (team entry n l cause : Nat) (ph : Word) (t : Team) (e : Entry) (m : MemOp) (b : Block) (x : Barrier),
    s.ready team entry = some (t, e) → e.work = .cps m n ph → e.refused = 0 → onlyLane e.lmask l → s.block t.block = some b →
    tabWf b.scratch.bytes = true → b.bars[n]? = some x → x.code = none →
    t.entries.find? (fun y => decide (y.order = e.order)) = some e →
    let o := ((e.data.getD l []).headD 0).toNat
    o + m.esz * m.cnt ≤ b.scratch.size → s.place t e m kindRead l = .refuse cause →
    ∃ u v c, exec (.cpsWritePerformed team entry) s = .next u ∧ u.team t.id = some v ∧
      v.entries = t.entries.filter (fun y => decide (y.order ≠ e.order)) ∧ v.pend = t.pend ∧ v.frame = t.frame ∧ u.block b.id = some c ∧
      ∀ a, defGet emptyByte c.scratch.bytes a = (if o ≤ a ∧ a < o + m.esz * m.cnt then 0 else defGet emptyByte b.scratch.bytes a) ∧
        (o ≤ a → a < o + m.esz * m.cnt → c.scratch.poisoned a 1 = true))

/-- CPY, CPYJ and TWAIT at issue (R255 to R258, R266, R267, R270). -/
def Obligations.CopiesAndWaitsIssue : Prop :=
  let started := fun (b : Block) (n : Nat) => { b with tags := mapIx (fun i (x : CopyTag) => if i = n then { done := false, status := 0, busy := true } else x) b.tags }
  let joins := fun (i : Instr) (F : Form) (s : State) (r : Reg) (b : Block) (w : Work) (cap : List Byte) =>
    ∃ t e, exec i s = .next t ∧ Queued s { t with blocks := s.blocks } r e (s.unsetBit F r) ∧ e.work = w ∧ e.cap = cap ∧ e.lmask = s.lanes r ∧
      e.fla = s.ctx.selA r.fsel ∧ e.flb = s.ctx.selB r.fsel ∧ t.blocks = s.blocks.map (fun c => if c.id = b.id then started b r.d else c)
  let linear := fun (i : Instr) (r : Reg) => ∀ s : State,
    let F := formCpyL s.tagCount r
    let pa := decide (r.xf 2 2 = 0)
    let pb := decide (r.xf 4 2 = 0)
    let regs := sregs r.a pa ++ sregs r.b pb ++ [r.c]
    s.runs F r = true → s.me.scalarsBusy regs = false →
    (s.tagBusy r.d = false → regs.any (fun n => (s.me.sreg n).pois) = true → exec i s = .next (s.trapNow 0x08 (s.lanes r) 0 0 0)) ∧
    (s.tagBusy r.d = true → exec i s = .next s) ∧
    (∀ b, regs.any (fun n => (s.me.sreg n).pois) = false → s.block s.me.block = some b → s.tagBusy r.d = false → s.queueRoom r.fsel = true →
      s.unlogged = true → joins i F s r b (.copy 0 r.d r.x) (wordsBytes [s.me.snum r.a pa, s.me.snum r.b pb, (s.me.sreg r.c).val.toNat]))
  let described := fun (sub k : Nat) (i : Instr) (r : Reg) => ∀ s : State,
    let F := formCpyD s.tagCount k r
    let o := (s.me.sreg r.a).val.toNat
    s.runs F r = true → s.me.scalarsBusy [r.a] = false →
    (s.tagBusy r.d = false → (s.me.sreg r.a).pois = true → exec i s = .next (s.trapNow 0x08 (s.lanes r) 0 0 0)) ∧
    (s.tagBusy r.d = true → exec i s = .next s) ∧
    (∀ b, (s.me.sreg r.a).pois = false → s.block s.me.block = some b → s.tagBusy r.d = false → s.queueRoom r.fsel = true → s.unlogged = true →
      (s.descAt o (decide (sub ≠ 3)) = none → joins i F s r b (.copy sub r.d r.x) (wordsBytes [o, 0, 0])) ∧
      (∀ n, s.descAt o (decide (sub ≠ 3)) = some n → ((s.me.entries.drop s.me.suspended).all (fun f => f.dropped || (!f.work.acq && !f.work.writes))) = true →
        (b.scratch.poisoned o n = true → exec i s = .next (s.trapNow 0x08 (s.lanes r) 0 0 0)) ∧
        (b.scratch.poisoned o n = false → joins i F s r b (.copy sub r.d r.x) (wordsBytes [o, 0, 0] ++ b.scratch.read o n))))
  let waits := fun (sub : Nat) (i : Instr) (r : Reg) => ∀ s : State,
    let ds := if r.d = 31 then [] else sregs r.d (decide (sub ≠ 2))
    s.runs (formTwait sub r) r = true → s.me.scalarsBusy ([r.a, r.a + 1] ++ ds) = false →
    (s.me.spairPois r.a = true → exec i s = .next (s.trapNow 0x08 (s.lanes r) 0 0 0)) ∧
    (s.me.spairPois r.a = false → s.queueRoom r.fsel = true →
      ∃ t e, exec i s = .next t ∧ Queued s t r e (s.unsetBit (formTwait sub r) r) ∧ e.lmask = s.grp ∧ e.sbusy = ds ∧
        e.work = .twait sub r.d (s.me.spair r.a &&& fullMask s.tagCount))
  Both .cpyL .cpyLLong 0 linear ∧ (∀ o, described 1 1 (.cpyT o) (Reg.ofLong o)) ∧ (∀ o, described 2 2 (.cpyX o) (Reg.ofLong o)) ∧
  Both .cpyj .cpyjLong 0 (described 3 0) ∧ Both .twaitAll .twaitAllLong 0 (waits 0) ∧ (∀ o, waits 1 (.twaitAny o) (Reg.ofLong o)) ∧
  (∀ o, waits 2 (.twaitFind o) (Reg.ofLong o))

/-- LNCH (R14, R17, R26, R27, R271, R272, R408, R437); the pool asked for one cluster and the reads after the accesses are log entry 33. -/
def Obligations.LaunchesStartChildren : Prop :=
  Both .lnch .lnchLong 0 (fun i r => ∀ s : State,
    let F := formLnch r
    let ds := if r.d = 31 then [] else [r.d, r.d + 1]
    let a := s.me.spair r.a
    s.runs F r = true →
    (s.grp.getLsbD 0 = false → exec i s = .next (s.trapGroup 0x06)) ∧
    (s.grp.getLsbD 0 = true → s.me.scalarsBusy ([r.a, r.a + 1] ++ ds) = false →
      (s.me.spairPois r.a = true → exec i s = .next (s.trapNow 0x08 1 0 0 0)) ∧
      (s.me.spairPois r.a = false → a.toNat % 64 ≠ 0 → exec i s = .next (s.trapNow 0x09 1 0 a 0)) ∧
      (s.me.spairPois r.a = false → a.toNat % 64 = 0 → s.myGrid.depth = 10 → exec i s = .next (s.trapNow 0x0D s.grp 0 0 0)) ∧
      (s.me.spairPois r.a = false → a.toNat % 64 = 0 → s.myGrid.depth ≠ 10 → s.flagsRoom r.fsel = true →
        ((s.me.entries.drop s.me.suspended).all (fun x => x.dropped || !x.work.accesses)) = true →
        ∀ s1 s2 card desc, s.engRead (engOf s.me s.me.priv) 5 .global a.toNat 64 = .ok (s1, card) →
          s1.engRead (engOf s.me s.me.priv) 5 .global (fieldAt card 0 8) 128 = .ok (s2, desc) →
          let gx := fieldAt card 8 4
          let gy := fieldAt card 0xC 2
          let gz := fieldAt card 0xE 2
          let good := fun k => recordOk card && decide (fieldAt card 0 8 % 128 = 0) && extentsOk k gx gy gz &&
            decide (k.cx * k.cy * k.cz * poolBytes k ≤ (s.handlerEntry s.me.die s.me.core s.me.proc).2.2) && s.clusterFits s.me.die k
          ((∀ k, parseKDesc desc = some k → good k = false) → exec i s = .next (s.trapNow 0x01 s.grp 0 0 0)) ∧
          (∀ k, parseKDesc desc = some k → good k = true → ∃ t, exec i s = .next t ∧ t.nextLseq = s.nextLseq + 1 ∧ t.me.entries = s.me.entries ∧
            t.me.vregs = s.me.vregs ∧ t.me.mregs = s.me.mregs ∧
            (∀ n, n < 24 → t.me.sreg n = if r.d = 31 then s.me.sreg n else (pairOf r.d (BitVec.ofNat 64 s.nextLseq) n).getD (s.me.sreg n)) ∧
            (∀ l, l < s.me.width → t.me.thread l = s.onward r l) ∧
            (gx = 0 ∨ gy = 0 ∨ gz = 0 → t.grids = s.grids ∧ t.me.kids = s.me.kids ∧ t.me.flags = s.me.flags) ∧
            (gx ≠ 0 → gy ≠ 0 → gz ≠ 0 →
              t.me.kids = s.me.kids ++ [{ lseq := s.nextLseq, fla := s.ctx.selA r.fsel, flb := s.ctx.selB r.fsel, held := false }] ∧
              t.me.flags = (s.me.incFlags (s.ctx.selA r.fsel) (s.ctx.selB r.fsel)).flags ∧
              ∃ g, t.grids = s.grids ++ [g] ∧ g.lseq = s.nextLseq ∧ g.proc = s.me.proc ∧ g.kd = k ∧ g.gx = gx ∧ g.gy = gy ∧ g.gz = gz ∧
                g.args = BitVec.ofNat 64 (fieldAt card 0x10 8) ∧ g.depth = s.myGrid.depth + 1 ∧ g.left = gx * gy * gz)))))

/-- Matrix instructions at issue (R236 to R252); the order among several causes is log entries 8 and 31. -/
def Obligations.MatrixInstructionsEnter : Prop :=
  let mapAt := fun (s : State) (o : Nat) (mxa : Bool) (k : EKind) => match s.readMap o mxa k with | .ok v => some v | _ => none
  let word := fun (s : State) (n : Nat) => (s.me.sreg n).val.toNat
  let clean := fun (s : State) (l : List Nat) => !s.me.scalarsBusy l && !l.any (fun n => (s.me.sreg n).pois)
  let kept := fun (s t : State) => t.me.latch = s.me.latch
  let traps := fun (i : Instr) (s : State) (c sub : Nat) => exec i s = .next (s.trapNow c s.grp 0 0 sub)
  let zero := fun (i : Instr) (r : Reg) => TileQueues i (fun _ => { formMxz with x := decide (r.xf 0 6 = 0) }) r 0x71 r.d (fun _ => true) (fun s t _ => kept s t)
  let mapped := fun (op : Nat) (form : Reg → Form) (i : Instr) (r : Reg) =>
    TileQueues i (fun _ => form r) r op r.d (fun s => clean s [r.a] && (mapAt s (word s r.a) false (kindOfType r.t (r.xb 4))).isSome)
      (fun s t e => kept s t ∧ ∃ v, s.readMap (word s r.a) false (kindOfType r.t (r.xb 4)) = .ok v ∧ e.cap = mxCapture (some v) none 0 false) ∧
    (∀ s : State, s.runsMatrix (form r) r = true → s.me.scalarsBusy [r.a] = false →
      ((s.me.sreg r.a).pois = true → traps i s 0x08 0) ∧
      ((s.me.sreg r.a).pois = false → ∀ c k, s.readMap (word s r.a) false (kindOfType r.t (r.xb 4)) = .trap c k → traps i s c k))
  let rows := fun (rd : Bool) (i : Instr) (r : Reg) =>
    TileQueues i (fun _ => formMxrw rd r) r (if rd then 0x74 else 0x75) (if rd then r.a else r.d)
      (fun s => decide (r.b + s.me.width ≤ 128) && (rd || !(lanesOf (s.lanes r)).any (fun l => s.runPois (formMxrw rd r) r 1 r.mxCount l)))
      (fun s t e => kept s t ∧ (if rd then e.data = [[BitVec.ofNat 32 r.b]] ∧ e.busy = s.me.dstBusy r (s.lanes r) r.mxCount (s.me.targets (formMxrw rd r) r)
        else e.busy = [] ∧ ∀ l, l < s.me.width → e.addr.getD l 0 = BitVec.ofNat 64 r.b ∧
          ((s.lanes r).getLsbD l = true → e.data.getD l [] = s.runData (formMxrw rd r) r 1 r.mxCount l))) ∧
    (∀ s : State, s.runsMatrix (formMxrw rd r) r = true →
      let bad := maskOf s.me.width (fun l => (s.lanes r).getLsbD l && !rd && s.runPois (formMxrw rd r) r 1 r.mxCount l)
      (bad ≠ 0 → exec i s = .next (s.trapNow 0x08 bad 0 0 0)) ∧ (bad = 0 → 128 < r.b + s.me.width → traps i s 0x14 6))
  let epilogue := fun (i : Instr) (r : Reg) =>
    let inBank := fun (s : State) => decide (word s r.a % 32 = 0) && s.myBlock.scratch.inside (word s r.a) 32
    TileQueues i (fun _ => formMxep r) r 0x77 r.d (fun s => decide (r.xf 0 2 = 0) || (clean s [r.a] && inBank s))
      (fun s t e => kept s t ∧ e.cap = mxCapture none none (if r.xf 0 2 = 0 then 0 else word s r.a) false) ∧
    (∀ s : State, s.runsMatrix (formMxep r) r = true → r.xf 0 2 ≠ 0 → s.me.scalarsBusy [r.a] = false →
      ((s.me.sreg r.a).pois = true → traps i s 0x08 0) ∧ ((s.me.sreg r.a).pois = false → inBank s = false → traps i s 0x14 2))
  let multiply := fun (i : Instr) (r : Reg) =>
    let F := fun (s : State) => formMxa s.me.width s.me.latch.valid r
    let regs := if r.asrc then [r.b % 32] else [r.a, r.b % 32]
    let held := fun (s : State) => s.me.latch.valid
    let room := fun (s : State) => !r.asrc || decide ((s.me.entries.filter (fun x => x.regA && !x.dropped)).length < 2)
    let free := fun (s : State) => clean s regs && room s
    let aMap := fun (s : State) => if held s || r.asrc then some { m := mapOf [], k := .f16, raw := [], cb := [] } else mapAt s (word s r.a) true .f16
    let vals := fun (s : State) => if held s then s.me.latch.vals else if r.asrc then s.me.mxaVals r else []
    TileQueues i F r 0x70 r.d
      (fun s => free s && (!held s || s.me.latch.fits r) && (!r.asrc || mxaRunOk s.me.width r) && (held s || !r.asrc || decide (s.me.mxaPois r = 0)) &&
        !s.me.latch.pending && (aMap s).isSome && (mapAt s (word s (r.b % 32)) true .f16).isSome)
      (fun s t e => e.data = [vals s] ∧ (∃ a b, aMap s = some a ∧ mapAt s (word s (r.b % 32)) true .f16 = some b ∧ e.cap = mxCapture (some a) (some b) 0 (held s)) ∧
        t.me.latch = if r.xb 5 then { valid := true, asrc := r.asrc, a := r.a, afmt := r.afmt, m := r.x % 4, c := r.c, vals := vals s } else Latch.reset) ∧
    (∀ s : State, s.runsMatrix (F s) r = true → s.me.scalarsBusy regs = false → room s = false → exec i s = .next s) ∧
    (∀ s : State, s.runsMatrix (F s) r = true → s.me.scalarsBusy regs = false → room s = true → regs.any (fun n => (s.me.sreg n).pois) = true →
      traps i s 0x08 0) ∧
    (∀ s : State, s.runsMatrix (F s) r = true → free s = true →
      (held s = true → s.me.latch.fits r = false → traps i s 0x14 7) ∧
      (held s = false → r.asrc = true → mxaRunOk s.me.width r = false → traps i s 0x14 6) ∧
      (held s = false → r.asrc = true → mxaRunOk s.me.width r = true → s.me.mxaPois r ≠ 0 → exec i s = .next (s.trapNow 0x08 (s.me.mxaPois r) 0 0 0)))
  Both .mxz .mxzLong 0 zero ∧ Both .mxld .mxldLong 2 (mapped 0x72 formMxld) ∧ Both .mxst .mxstLong 2 (mapped 0x73 formMxst) ∧
  Both .mxrd .mxrdLong 2 (rows true) ∧ Both .mxwr .mxwrLong 2 (rows false) ∧ Both .mxep .mxepLong 0 epilogue ∧ Both .mxa .mxaLong 0 multiply

/-- MXAL (R235), and where a matrix instruction may issue (R32). -/
def Obligations.AccumulatorsAllocated : Prop :=
  let part := fun (free : Bool) (i : Instr) (r : Reg) => ∀ (s : State) (b : Block), s.runsMatrix (formMxal free r) r = true →
    s.block s.me.block = some b → s.me.scalarsBusy (if r.d = 31 then [] else [r.d]) = false →
    let n := b.acc.length
    let dest := fun (acc : List AccTile) =>
      let saved := (s.setBlock { b with acc := acc }).writePieces s.me b.bsave.toNat [(0x14, leBytes 4 acc.length)]
      (∀ u, saved = .ok u → s.unlogged = true → ∃ t, exec i s = .next t ∧ u.me = s.me ∧
        u.blocks = s.blocks.map (fun c => if c.id = b.id then { b with acc := acc } else c) ∧
        ScalarLeft u t r (fun k => if k = r.d then some (Elem.ofWord (BitVec.ofNat 32 n)) else none) 0) ∧
      (∀ va lv, saved = .fault va lv → exec i s = .next (s.frameHalt va lv kindWrite)) ∧
      (∀ va c, saved = .refuse va c → exec i s = .next (s.refusedTeam s.me va c kindWrite))
    if free then (n < r.b → exec i s = .next (s.trapNow 0x0C s.grp 0 0 0)) ∧
      (r.b ≤ n → (b.acc.drop (n - r.b)).any (fun a => a.busy) = false → dest (b.acc.take (n - r.b)))
    else (b.accMax < n + r.b → exec i s = .next (s.trapNow 0x0C s.grp 0 0 0)) ∧ (n + r.b ≤ b.accMax → dest (b.acc ++ List.replicate r.b AccTile.zero))
  let whole := fun (F : State → Form) (i : Instr) (r : Reg) => ∀ s : State, s.refusal (F s).cls ((F s).ok r) (F s).rnd (F s).sat = none →
    (r.g ≠ 31 → exec i s = .next (s.trapGroup 0x01)) ∧
    (r.g = 31 → ¬ (s.grp = fullMask s.me.width ∧ s.me.live = s.grp) → exec i s = .next (s.trapGroup 0x06))
  Both .mxalAlloc .mxalAllocLong 0 (part false) ∧ (∀ o, part true (.mxalFree o) (Reg.ofLong o)) ∧
  Both .mxalAlloc .mxalAllocLong 0 (fun i r => whole (fun _ => formMxal false r) i r) ∧
  Both .mxa .mxaLong 0 (fun i r => whole (fun s => formMxa s.me.width s.me.latch.valid r) i r) ∧
  Both .mxrd .mxrdLong 2 (fun i r => whole (fun _ => formMxrw true r) i r) ∧ Both .mxep .mxepLong 0 (fun i r => whole (fun _ => formMxep r) i r)

/-- CSR (R278, R279, R409). -/
def Obligations.SystemRegistersReadAndWrite : Prop :=
  let part := fun (sub : Nat) (i : Instr) (r : Reg) => ∀ s : State,
    let F := formCsr sub r
    let n := r.csrNum
    let regs := fun (k : Nat) => if k = 31 then [] else if r.xb 2 then [k, k + 1] else [k]
    let x : DWord := if r.a = 31 then 0 else if r.xb 2 then s.me.spair r.a else (s.me.sreg r.a).val.zeroExtend 64
    let old := s.readCsr n
    let new := if sub = 1 then x else if sub = 2 then old ||| x else old &&& ~~~ x
    let dest := fun (k : Nat) => if r.d = 31 then none else if r.xb 2 then pairOf r.d old k else if k = r.d then some (Elem.ofWord (bits old 0 32)) else none
    s.runs F r = true →
    (s.me.converged s.grp = false → exec i s = .next (s.trapNow 0x05 s.grp 0 0 0)) ∧
    (s.me.converged s.grp = true → s.me.scalarsBusy (regs r.a ++ regs r.d) = false →
      ((regs r.a).any (fun k => (s.me.sreg k).pois) = true → exec i s = .next (s.trapNow 0x08 (s.lanes r) 0 0 0)) ∧
      ((regs r.a).any (fun k => (s.me.sreg k).pois) = false →
        (sub = 0 → ∃ t, exec i s = .next t ∧ ScalarLeft s t r dest (s.unsetBit F r)) ∧
        (sub ≠ 0 → n < 0x100 → ∃ t, exec i s = .next t ∧
          ScalarLeft s { t with me := { t.me with trapEn := s.me.trapEn, sticky := s.me.sticky, handler := s.me.handler,
                                                  scratch0 := s.me.scratch0, scratch1 := s.me.scratch1 } } r dest 0 ∧
          t.me.trapEn = (if n = 0 then bits new 0 32 &&& 0x3F else s.me.trapEn) ∧
          t.me.sticky = (if n = 1 ∧ sub ≠ 3 then s.me.sticky &&& ~~~ bits x 0 32 else s.me.sticky) ∧
          t.me.handler = (if n = 2 then new else s.me.handler) ∧
          t.me.scratch0 = (if n = 4 then new else s.me.scratch0) ∧ t.me.scratch1 = (if n = 5 then new else s.me.scratch1)) ∧
        (sub ≠ 0 → 0x100 ≤ n → ∃ t u, exec i s = .next t ∧ u = s.csrWrite s.me.die s.me.core n new (if sub = 3 then 0 else x) ∧
          t = { u with me := t.me } ∧ t.me = { u.me with sregs := t.me.sregs, threads := t.me.threads } ∧
          ∀ k, k < 24 → t.me.sreg k = (dest k).getD (u.me.sreg k))))
  Both .csrRd .csrRdLong 0 (part 0) ∧ (∀ o, part 1 (.csrWr o) (Reg.ofLong o)) ∧ (∀ o, part 2 (.csrSet o) (Reg.ofLong o)) ∧
  (∀ o, part 3 (.csrClr o) (Reg.ofLong o)) ∧
  ∀ s : State, s.readCsr 0 = s.me.trapEn.zeroExtend 64 ∧ s.readCsr 1 = s.me.sticky.zeroExtend 64 ∧ s.readCsr 2 = s.me.handler ∧
    s.readCsr 3 = s.me.frameVa ∧ s.readCsr 4 = s.me.scratch0 ∧ s.readCsr 5 = s.me.scratch1 ∧ s.readCsr 6 = s.me.bsave

/-- RQA (R281, R413). -/
def Obligations.QueueEntriesEditedInHandlers : Prop :=
  let ready := fun (sub : Nat) (r : Reg) (s : State) =>
    s.runs (formRqa sub s.me.agent r) r = true ∧ s.me.converged s.grp = true ∧
    s.me.scalarsBusy ([r.a] ++ (if sub = 0 then [r.d] else []) ++ (if sub = 1 then [r.c] else [])) = false ∧ (s.me.sreg r.a).pois = false ∧
    (sub = 1 → (s.me.sreg r.c).pois = false)
  let index := fun (r : Reg) (s : State) => (s.me.sreg r.a).val.toNat
  let absent := fun (sub : Nat) (i : Instr) (r : Reg) => ∀ s : State, ready sub r s → s.rqEntry (index r s) = none → exec i s = .next (s.trapNow 0x01 s.grp 0 0 0)
  let same := fun (r : Reg) (s t : State) => t.me.vregs = s.me.vregs ∧ t.me.sregs = s.me.sregs ∧ t.me.mregs = s.me.mregs ∧ t.me.flags = s.me.flags ∧
    ∀ l, l < s.me.width → t.me.thread l = s.onward r l
  let written := fun (s : State) (r : Reg) (x : Entry) => s.writePieces s.me s.me.frameVa.toNat
    [(0x480 + 64 * index r s, entryBytes x (s.me.frameVa.toNat + captureOff s.me.width (index r s)))]
  let put := fun (s : State) (x : Entry) => s.me.entries.map (fun y => if y.order = x.order then x else y)
  let reads := fun (i : Instr) (r : Reg) => ∀ (s : State) (x : Entry), ready 0 r s → s.rqEntry (index r s) = some x →
    ∃ t, exec i s = .next t ∧ ScalarLeft s t r (fun k => if k = r.d then some (Elem.ofWord
      (BitVec.ofNat 32 (fieldAt (entryBytes x (s.me.frameVa.toNat + captureOff s.me.width (index r s))) (4 * r.b) 4))) else none)
      (s.unsetBit (formRqa 0 s.me.agent r) r)
  let writes := fun (i : Instr) (r : Reg) => ∀ (s u : State) (x : Entry), ready 1 r s → s.rqEntry (index r s) = some x →
    let v := (s.me.sreg r.c).val
    let undrop := decide (r.b = 3) && x.dropped && !x.final && !bit v 0
    let left : Mask := if r.b = 8 then x.lmask &&& (bits x.lmask 32 32 ++ v) else if r.b = 9 then x.lmask &&& (v ++ bits x.lmask 0 32) else x.lmask
    let x' := { x with dropped := x.dropped && !undrop, refused := if undrop then 0 else x.refused, lmask := left
                       emask := if x.work = .bin then x.emask &&& ~~~ (x.lmask &&& ~~~ left) else x.emask
                       progress := if r.b = 10 ∧ v.toNat < x.work.units then v else x.progress }
    written s r x' = .ok u → ∃ t, exec i s = .next t ∧ t.me.entries = put s x' ∧ same r s t ∧ t.me.frame = s.me.frame ∧ t.mem = u.mem
  let drops := fun (i : Instr) (r : Reg) => ∀ (s u : State) (x : Entry) (f : Frame), ready 2 r s → s.rqEntry (index r s) = some x → s.me.frame = some f →
    (x.final = true → ∃ t, exec i s = .next t ∧ t.me.entries = s.me.entries ∧ t.me.frame = s.me.frame ∧ same r s t ∧ t.mem = s.mem) ∧
    (x.final = false → s.me.id ≠ 0 → written s r { x with dropped := true, final := true } = .ok u →
      ∃ t f', exec i s = .next t ∧ t.me.entries = put s { x with dropped := true, final := true } ∧ same r s t ∧ t.mem = u.mem ∧
        t.me.frame = some f' ∧ f'.flags = decCounts f.flags x.fla x.flb)
  Both .rqaRd .rqaRdLong 0 (fun i r => reads i r ∧ absent 0 i r) ∧ (∀ o, writes (.rqaWr o) (Reg.ofLong o) ∧ absent 1 (.rqaWr o) (Reg.ofLong o)) ∧
  (∀ o, drops (.rqaDrop o) (Reg.ofLong o) ∧ absent 2 (.rqaDrop o) (Reg.ofLong o))

/-- TRET (R280, R416); the release before it is log entries 34 and 10, the model's reading. -/
def Obligations.HandlersReturn : Prop :=
  Both .tret .tretLong 0 (fun i r => ∀ s : State, s.runs (formTret s.ctx s.me.agent r) r = true → s.me.converged s.grp = true →
    (s.me.frame = none → exec i s = .next (s.trapNow 0x01 s.grp 0 0 0)) ∧
    (∀ f : Frame, s.me.frame = some f →
      let busy := (s.me.entries.drop s.me.suspended).any (fun x => !x.dropped) || s.me.kids.any (fun k => !k.held)
      (busy = true → exec i s = .next s) ∧
      (∀ u, busy = false → (s.releaseBy 5 s.me s.grp).restore s.me f false f.pcls 0 = .ok u → exec i s = .next u)) ∧
    (∀ (f : Frame) (card : List Byte) (latch : Latch), s.me.frame = some f → s.me.id ≠ 0 → f.nrq = 0 → s.me.entries = [] →
      s.me.kids.all (fun k => k.held) = true → s.me.width ≤ 64 → s.me.threads.length = s.me.width →
      let q := s.releaseBy 5 s.me s.grp
      q.readOwn s.me (s.me.frameVa.toNat + 0x80) 1024 = .ok card → (if f.unlatched then .ok Latch.reset else q.readLatch s.me f.latch) = .ok latch →
      let rec_ := fun (l k : Nat) => BitVec.ofNat 64 (fieldAt card (16 * l + 8 * k) 8)
      (∀ l, l < s.me.width → (s.me.thread l).exited = false → bit (rec_ l 0) 58 = false ∧ bit (rec_ l 0) 63 = false) →
      (∀ l, l < s.me.width → (s.me.thread l).exited = true → (s.me.thread l).waiting = false ∧ bit (rec_ l 0) 58 = false) →
      ∃ t, exec i s = .next t ∧ t.me.priv = false ∧ t.me.frame = none ∧ t.me.cls = f.pcls ∧ t.me.flags = f.flags ∧ t.me.latch = latch ∧
        t.me.kids = s.me.kids.map (fun k => { k with held := false }) ∧ t.me.run = .running ∧ t.me.entries = [] ∧ t.me.vregs = s.me.vregs ∧ t.me.sregs = s.me.sregs ∧ t.me.mregs = s.me.mregs ∧
        t.mem = q.mem ∧
        ∀ l, l < s.me.width → (s.me.thread l).exited = false →
          (t.me.thread l).pc = bits (rec_ l 0) 0 57 ∧ (t.me.thread l).exited = false ∧ (t.me.thread l).waiting = false ∧
          (t.me.thread l).hdr = (if bits (rec_ l 0) 0 57 = f.pcs.getD l 0 then bits (rec_ l 1) 0 57 else bits (rec_ l 0) 0 57)))

/-- EXIT, YIELD, TRAP, BRK, NOP and PFX (R153 to R155, R121, R122). -/
def Obligations.ThreadsEndYieldAndTrap : Prop :=
  let code := fun (cause : Nat) (i : Instr) (r : Reg) => ∀ s : State, s.runs (formCode r) r = true →
    let k : Trap := { cause := cause, sub := 0, tpc := s.ctx.pc, thdr := s.ctx.hdr, lanes := s.lanes r, info := BitVec.ofNat 64 (r.a * 256 + r.b),
                      faddr := 0, next := true }
    let t0 := s.me.stepPast s.grp s.ctx
    (exec i s = .next (s.takeTrap k)) ∧
    (∀ u, s.me.agent = false → s.me.pend = none → s.me.frame = none → s.me.priv = false → s.me.handler ≠ 0 → s.stopsOn s.me cause = false →
      ({ s with me := t0 } : State).writePieces t0 s.me.frameVa.toNat (framePieces t0 k 0) = .ok u →
      ∃ t f, exec i s = .next t ∧ t.me.frame = some f ∧ f.cause = cause ∧ f.flags = s.me.flags ∧ t.me.priv = true ∧ t.me.vregs = s.me.vregs ∧
        t.me.sregs = s.me.sregs ∧ t.me.mregs = s.me.mregs ∧ t.me.entries = s.me.entries ∧ t.me.flags = List.replicate 12 0 ∧
        (∀ l, l < s.me.width → f.pcs.getD l 0 = if s.grp.getLsbD l then s.ctx.npc else (s.me.thread l).pc) ∧
        ∀ l, l < s.me.width → (s.me.thread l).exited = false → (t.me.thread l).pc = bits s.me.handler 0 57 ∧ (t.me.thread l).hdr = bits s.me.handler 0 57 ∧
          (t.me.thread l).waiting = false ∧ (t.me.thread l).exited = false)
  Both .exit .exitLong 0 (fun i r => ∀ s : State, s.runs (formExit r) r = true → s.me.id ≠ 0 →
    ∃ t, exec i s = .next t ∧ t = { s with me := t.me, blocks := t.blocks } ∧
      t.me = { s.me with threads := t.me.threads, sticky := s.me.sticky ||| s.unsetBit (formExit r) r } ∧
      let now := fun l => if (s.lanes r).getLsbD l then { s.onward r l with exited := true, waiting := false, pc := 0, hdr := 0 } else s.onward r l
      let together := fun n => (List.range s.me.width).all (fun k => !(s.me.mreg n).getLsbD k || (now k).exited ||
        ((now k).waiting && decide ((now k).wmask.toNat = n)))
      let freed := fun l => (now l).waiting && !(now l).exited && decide ((now l).wmask.toNat < 12) && (s.me.mreg (now l).wmask.toNat).getLsbD l &&
        together (now l).wmask.toNat
      ∀ l, l < s.me.width → t.me.thread l =
        if freed l then { now l with waiting := false, pc := (now l).rpc, hdr := (now l).rhdr } else now l) ∧
  Both .yield .yieldLong 0 (fun i r => ∀ s : State, s.runs (formYield r) r = true →
    ∃ t, exec i s = .next t ∧ t.me.yielded = true ∧
      Effect s { t with me := { t.me with yielded := s.me.yielded } } r noElem sameThread (s.unsetBit (formYield r) r)) ∧
  Both .trap .trapLong 0 (code 0x0F) ∧ Both .brk .brkLong 0 (code 0x0E) ∧
  (∀ (z : BitVec 24) (s : State), s.refusal 7 (decide (z = 0)) false false = none →
    ∃ t, exec (.nop z) s = .next t ∧ Effect s t plainReg noElem sameThread 0) ∧
  (∀ (z : BitVec 24) (w1 : Word) (s : State), s.refusal 7 (decide (z = 0) && decide (w1 = 0)) false false = none →
    ∃ t, exec (.nopLong z w1) s = .next t ∧ Effect s t plainReg noElem sameThread 0) ∧
  (∀ (rnd : BitVec 3) (sat : Bool) (z : BitVec 20) (s : State), s.ctx.last = false → bits s.ctx.w1 24 8 ≠ 0x1E →
    ∃ w : Word, bits w 25 7 = 0x0F ∧ bits w 21 3 = rnd ∧ bits w 20 1 = BitVec.ofBool sat ∧ bits w 0 20 = z ∧
      exec (.pfx rnd sat z) s = .next { s with ctx := { s.ctx with pfxw := w, rnd := rnd.toNat, sat := sat } })

/-- Words of every group decode (R110 to R121, R143, R144). -/
def Obligations.WordsDecode : Prop :=
  decodeBytes [0x06, 0x22, 0x04, 0x60] = .ok (.ld ⟨4, 0x22, 6⟩, []) ∧
  decodeBytes [0x0A, 0x09, 0x08, 0xC3, 0x00, 0x32, 0x1C, 0x0B] =
    .ok (.ffmaLong ⟨8, 9, 10, 11, 3, true, false, false, false, false, true, true, 2, 0⟩, []) ∧
  decodeWords 0x1818BE63 0 = .ok (.sshl ⟨3, 2, 31, 3⟩) ∧ decodeWords 0x1C100020 0 = .ok (.ssys 2 0 0 2 0) ∧
  decodeWords 0x99300000 0x00123456 = .ok (.smoviLong 6 0 0x00123456) ∧ decodeWords 0x020BFFF8 0 = .ok (.brc 1 false 0x3FFF8) ∧
  decodeWords 0x1E500000 0 = .ok (.pfx 2 true 0) ∧ decodeWords 0x3507FFFE 0 = .ok (.movi 7 0xFFFE) ∧
  decodeWords 0x200B0509 0 = .ok (.iadd ⟨11, 5, 9⟩) ∧
  decodeWords 0xE2071F00 0x03F80150 = .ok (.ldsQ ⟨7, 31, 0, 3, 31, false, false, false, false, false, false, false, 1, 0x50⟩) ∧
  decodeWords 0xE6050206 0x08F80145 = .ok (.atomAddLong ⟨5, 2, 6, 8, 31, false, false, false, false, false, false, false, 1, 0x45⟩) ∧
  decodeWords 0xEA000000 0x00F80044 = .ok (.barSyncLong ⟨0, 0, 0, 0, 31, false, false, false, false, false, false, false, 0, 0x44⟩) ∧
  decodeWords 0xF4280040 0x08F80243 = .ok (.mxrdLong ⟨0x28, 0, 0x40, 8, 31, false, false, false, false, false, false, false, 2, 0x43⟩) ∧
  decodeWords 0xF8020400 0x00F80041 = .ok (.cpyT ⟨2, 4, 0, 0, 31, false, false, false, false, false, false, false, 0, 0x41⟩) ∧
  decodeWords 0xFC050400 0x00F80001 = .ok (.csrWr ⟨5, 4, 0, 0, 31, false, false, false, false, false, false, false, 0, 1⟩) ∧
  decodeWords 0x5B140000 0 = .ok (.bin ⟨0x14, 0, 0⟩)

/-- The decoder and the encoder are inverse to each other (R107 to R144). -/
def Obligations.DecodeAndEncodeAgree : Prop :=
  (∀ (i : Instr) (rest : List Byte), i.encoded = true → rowBits i = true → decodeBytes (encodeBytes i ++ rest) = .ok (i, rest)) ∧
  (∀ (w0 w1 : Word) (i : Instr), decodeWords w0 w1 = .ok i → encode i = if bit w0 31 then [w0, w1] else [w0])

/-- Reserved OPs and sub-ops decode to nothing (R110, R119, R121, R143, R144, R156, R171, R221, R231, R232). -/
def Obligations.ReservedWordsRefused : Prop :=
  ∀ w0 w1 : Word,
    let op := bits w0 24 7
    let x := bits w1 0 2
    let none_ := decodeWords w0 w1 = .error .reserved
    (op ∈ [0x1F, 0x3B, 0x3C, 0x3D, 0x3E, 0x3F, 0x5D, 0x5E, 0x5F, 0x7F] → none_) ∧
    (op = 0x18 → bit w0 31 = false → 14 ≤ bitsN w0 4 5 → none_) ∧ (op = 0x18 → bit w0 31 = true → 11 ≤ bitsN w0 4 5 → none_) ∧
    (op = 0x1C → bit w0 31 = true → none_) ∧ (op = 0x1E → bit w0 31 = true → none_) ∧
    (op = 0x67 → (bits w0 13 3 = 6 ∨ bits w0 13 3 = 7) → none_) ∧
    (op = 0x66 → bit w0 31 = false → (bits w0 13 3 = 6 → decodeWords w0 w1 = .ok (.atomExch (shortOf w0))) ∧
      (bits w0 13 3 = 7 → decodeWords w0 w1 = .ok (.atomInc (shortOf w0)))) ∧
    (op ∈ [0x0E, 0x6A, 0x6D, 0x6E, 0x78, 0x7A, 0x7E] → bit w0 31 = true → x = 3 → none_) ∧
    (op ∉ [0x1F, 0x3B, 0x3C, 0x3D, 0x3E, 0x3F, 0x5D, 0x5E, 0x5F, 0x7F] → ∃ v0 v1 i, bits v0 24 7 = op ∧ decodeWords v0 v1 = .ok i)

/-- The checks of R123 in order, and what comes at once after them (R31, R148); the places of the poisoned guard and of the empty E are log entry 8. -/
def Obligations.IssueChecksInOrder : Prop :=
  let grp := fun (i : Instr) (s : State) (c : Nat) => exec i s = .next (s.trapNow c s.grp 0 0 0)
  let checks := fun (F : State → Form) (i : Instr) (r : Reg) => ∀ s : State,
    let fits := (F s).cls = 7 ∨ (F s).cls = s.ctx.cls
    let allowed := (F s).cls = 6 → s.me.priv = true
    let legal := ((F s).ok r && s.ctx.pfxOk (F s).rnd (F s).sat) = true
    (¬ fits → grp i s 0x04) ∧ (fits → ¬ allowed → grp i s 0x13) ∧ (fits → allowed → ¬ legal → grp i s 0x01) ∧
    (fits → allowed → legal →
      (r.guardPois s.me s.grp ≠ 0 → exec i s = .next (s.trapNow 0x08 (r.guardPois s.me s.grp) 0 0 0)) ∧
      (r.guardPois s.me s.grp = 0 → s.lanes r = 0 → ∃ t, exec i s = .next t ∧ Effect s t plainReg noElem sameThread 0))
  Both .iadd .iaddLong 0 (fun i r => checks (fun _ => formIadd r) i r) ∧ Both .fadd .faddLong 2 (fun i r => checks (fun _ => formF2 r) i r) ∧
  Both .ld .ldLong 1 (fun i r => checks (fun _ => formLd r) i r) ∧ Both .boxt .boxtLong 2 (fun i r => checks (fun _ => formRay 5 24 r) i r) ∧
  Both .trit .tritLong 2 (fun i r => checks (fun _ => formRay 4 9 r) i r) ∧ Both .segt .segtLong 2 (fun i r => checks (fun _ => formRay 4 8 r) i r) ∧ Both .cpyL .cpyLLong 0 (fun i r => checks (fun s => formCpyL s.tagCount r) i r) ∧
  Both .csrRd .csrRdLong 0 (fun i r => checks (fun _ => formCsr 0 r) i r) ∧ Both .tret .tretLong 0 (fun i r => checks (fun s => formTret s.ctx s.me.agent r) i r) ∧
  (∀ (s : State) (e : Reject), decodeWords s.ctx.w0 s.ctx.w1 = .error e →
    let op := bitsN s.ctx.w0 24 7
    s.execWords = .next (s.trapNow (if rejectsFirst s.ctx.w0 then 0x01 else if classOf op ≠ 7 ∧ classOf op ≠ s.ctx.cls then 0x04
      else if classOf op = 6 ∧ s.me.priv = false then 0x13 else 0x01) s.grp 0 0 0)) ∧
  ∀ s : State, s.me.converged s.grp = false →
    (∀ o, s.refusal 0 (sopOk o) false false = none → grp (.sadd o) s 0x05 ∧ grp (.sshr o) s 0x05) ∧
    (∀ o, s.refusal 0 (smovOk o) false false = none → grp (.smov o) s 0x05) ∧
    (∀ sd z w1, s.refusal 0 (decide (sd.toNat < 24) && decide (z = 0)) false false = none → grp (.smoviLong sd z w1) s 0x05) ∧
    (∀ o, s.refusal 3 (scalarMemOk false o) false false = none → grp (.sld o) s 0x05)

/-- Taking a trap (R411, R412, R415); the empty latch in the handler is log entry 34. -/
def Obligations.TrapsSaveTheTeam : Prop :=
  (∀ (s u : State) (k : Trap), s.me.agent = false → s.me.pend = none → s.me.frame = none → s.me.priv = false → s.me.threads.length = s.me.width →
    s.stopsOn s.me k.cause = false → k.cause ≠ 0 →
    let t0 := if k.next then s.me.stepPast s.grp s.ctx else s.me
    let park := k.park || decide (s.me.handler = 0)
    ({ s with me := t0 } : State).writePieces t0 s.me.frameVa.toNat (framePieces t0 k (if park then k.cause else 0)) = .ok u →
    ∃ t f, s.takeTrap k = t ∧ t.me.frame = some f ∧ f.cause = k.cause ∧ f.flags = s.me.flags ∧ f.pcls = s.me.cls ∧ f.nrq = s.me.entries.length ∧
      f.latch = s.me.latch ∧ f.nested = (if park then k.cause else 0) ∧ f.inHandler = !park ∧
      t.me.flags = List.replicate 12 0 ∧ t.me.latch = Latch.reset ∧ t.me.entries = s.me.entries ∧ t.me.vregs = s.me.vregs ∧
      t.me.sregs = s.me.sregs ∧ t.me.mregs = s.me.mregs ∧ t.me.priv = !park ∧ t.me.run = (if park = true ∧ s.me.run ≠ .frozen then .parked else s.me.run) ∧
      (park = false → t.mem = u.mem) ∧
      (∀ l, l < s.me.width →
        let th := t0.thread l
        t.me.thread l = if park = false ∧ th.exited = false
          then { th with waiting := false, pc := bits s.me.handler 0 57, hdr := bits s.me.handler 0 57 } else { th with waiting := false })) ∧
  (∀ (s u : State) (k : Trap) (f : Frame), s.me.agent = false → s.me.pend = none → s.me.frame = some f →
    s.writeVirt s.me.die s.me.core s.me.proc true (s.me.frameVa.toNat + 0x31) [BitVec.ofNat 8 k.cause] = .ok u → ∃ t f', s.takeTrap k = t ∧ t.me.run = (if s.me.run = .frozen then .frozen else .parked) ∧
    t.me.entries = s.me.entries.take s.me.suspended ∧ t.me.flags = (s.me.entries.drop s.me.suspended).foldl (fun fs e => decCounts fs e.fla e.flb) s.me.flags ∧
    t.me.frame = some f' ∧ f'.nested = k.cause ∧ f'.cause = f.cause ∧ f'.flags = f.flags ∧ f'.nrq = f.nrq ∧ t.me.vregs = s.me.vregs ∧
    t.me.sregs = s.me.sregs ∧ t.me.threads = s.me.threads) ∧
  (∀ (t : Team) (k : Trap) (n : Nat), k.cause < 2 ^ 8 → k.sub < 2 ^ 8 →
    let h := frameHeader t k n
    fieldAt h 0 1 = k.cause ∧ fieldAt h 1 1 = k.sub ∧ fieldAt h 0x08 8 = k.tpc.toNat ∧ fieldAt h 0x10 8 = k.lanes.toNat ∧
    fieldAt h 0x18 8 = k.info.toNat ∧ fieldAt h 0x20 8 = k.faddr.toNat ∧ fieldAt h 0x38 8 = k.thdr.toNat ∧
    (t.flags.length = 12 → ∀ i, i < 12 → fieldAt h 0x28 8 / 2 ^ (4 * i) % 16 = (t.flag i).toNat) ∧
    (n < 2 ^ 8 → fieldAt h 0x31 1 = n) ∧ (t.entries.length ≤ 32 → fieldAt h 0x30 1 % 64 = t.entries.length) ∧
    fieldAt h 0x30 1 / 64 = t.cls % 4)

/-- A step runs the instruction decoded at the PC (R23, R107, R122, R123); the order of turn, agenda and choices is log entry 80, the place after a
control transfer with a trailing prefix log entry 20. -/
def Obligations.StepRunsTheDecodedInstruction : Prop :=
  ∀ (s : State) (c : Choice) (cs : List Choice) (cl : Clause) (n : Nat) (x : Item) (i : Instr) (t : State),
    s.tripped = false → s.agenda = [] → (s.turn + 1) % 8 ≠ 0 → ({ s with turn := s.turn + 1 } : State).choices = c :: cs →
    let p := ({ s with turn := s.turn + 1 } : State).prepare c
    p.ctx.pc ≠ p.ctx.hdr → p.clauseAt p.me p.ctx.hdr = .ok cl → cl.items[n]? = some x → x.start = p.ctx.pc →
    (∀ m y, m < n → cl.items[m]? = some y → y.start ≠ p.ctx.pc) → decodeWords x.w0 x.w1 = .ok i →
    let at_ := cl.ctx p.ctx.hdr n x
    (x.pfx = none → exec i { p with ctx := at_ } = .next t → t.me ≠ p.me → step s = .next (p.after t)) ∧
    (∀ w q, x.pfx = some w → exec (.pfx (bits w 21 3) (bit w 20) (bits w 0 20)) { p with ctx := { at_ with last := false, w1 := x.w0 } } = .next q →
      q.ctx.pfxw ≠ 0 → exec i { q with ctx := { q.ctx with last := at_.last, w1 := x.w1 } } = .next t → t.me ≠ p.me → step s = .next (p.after t)) ∧
    at_.pc = x.start ∧ at_.hdr = p.ctx.hdr ∧ at_.w0 = x.w0 ∧ at_.w1 = x.w1 ∧ at_.cls = clauseClass cl.h ∧
    at_.seta = clauseSetA cl.h ∧ at_.setb = clauseSetB cl.h ∧
    (n + 1 < cl.items.length → at_.npc = x.next ∧ at_.nhdr = p.ctx.hdr) ∧
    (n + 1 = cl.items.length → cl.trail = none → at_.npc = cl.next ∧ at_.nhdr = cl.next) ∧
    (∀ a w, n + 1 = cl.items.length → cl.trail = some (a, w) → isTransfer x.w0 = false → at_.npc = a ∧ at_.nhdr = p.ctx.hdr) ∧
    (n + 1 = cl.items.length → isTransfer x.w0 = true → at_.npc = cl.next ∧ at_.nhdr = cl.next)

/-- A clause holds what memory holds (R107 to R111, R125, R400); that a fetch reads home as it is now is log entry 52. -/
def Obligations.ClausesComeFromMemory : Prop :=
  (∀ (s : State) (t : Team) (a : BitVec 57) (c : Clause), s.clauseAt t a = .ok c →
    let h := c.h
    let one := fun (a' : BitVec 57) (x : Item) =>
      s.codeWord t a' = .ok x.w0 ∧ (if bit x.w0 31 then s.codeWord t (a' + 4) = .ok x.w1 ∧ x.next = a' + 8 else x.next = a' + 4)
    a.toNat % 8 = 0 ∧ s.codeWord t a = .ok h ∧ bits h 29 3 = 5 ∧ bitsN h 25 4 = c.items.length ∧ 0 < c.items.length ∧ bits h 22 3 ≠ 7 ∧
    (bitsN h 6 4 < 12 ∨ bitsN h 6 4 = 15) ∧ (bitsN h 2 4 < 12 ∨ bitsN h 2 4 = 15) ∧ (bitsN h 6 4 ≠ bitsN h 2 4 ∨ bitsN h 6 4 = 15) ∧
    (∀ x, c.items.head? = some x → x.start = a + 4) ∧
    (∀ (n : Nat) (x y : Item), c.items[n]? = some x → c.items[n + 1]? = some y → y.start = x.next ∧ isTransfer x.w0 = false) ∧
    (∀ (n : Nat) (x : Item), c.items[n]? = some x → (x.pfx = none → one x.start x) ∧
      (∀ w, x.pfx = some w → bits w 24 8 = 0x1E ∧ s.codeWord t x.start = .ok w ∧ one (x.start + 4) x))) ∧
  (∀ (s : State) (t : Team) (va : BitVec 57) (w : Word), s.codeWord t va = .ok w → ∃ pa cmp,
    s.translate t.die t.core t.proc t.priv kindFetch (va.setWidth 64) = .ok pa cmp ∧
    w = s.homeByte (pa + 3) ++ s.homeByte (pa + 2) ++ s.homeByte (pa + 1) ++ s.homeByte pa)

/-- The device right after reset (R386, R393, R395, R415, R441, R448). -/
def Obligations.ResetState : Prop :=
  State.reset.teams = [] ∧ State.reset.blocks = [] ∧ State.reset.grids = [] ∧ State.reset.queues = [] ∧ State.reset.passes = [] ∧
  State.reset.jobs = [] ∧ State.reset.agenda = [] ∧ State.reset.parts = [] ∧ State.reset.irqs = [] ∧ State.reset.tripped = false ∧
  State.reset.bootState = 0 ∧ Memory.wf State.reset.mem = true ∧ (∀ pa, State.reset.homeByte pa = emptyByte) ∧
  State.reset.devRead 0x400 = 0xA ∧ State.reset.devRead 0x409 = BitVec.ofNat 64 (Config.formLimit State.reset.form) ∧
  (∀ d c, State.reset.coreRead d c 0x10A = 20 ∧ State.reset.coreRead d c 0x115 = 24) ∧
  (∀ d, State.reset.dieRead d 0x21B = 0xF4240 ∧ State.reset.dieRead d 0x21E = 8192)

/-- Memory stays in canonical form (R86, R87). -/
def Obligations.StepKeepsTheMemoryForm : Prop :=
  ∀ s t : State, Memory.wf s.mem = true → step s = .next t → Memory.wf t.mem = true

/-- Scheduling, admission, retirement and bank modes (R18, R20, R28 to R30, R37, R376, R389); the choices of the model in them are log entries 36, 46,
64 and 65. -/
def Obligations.SchedulingAndAdmissionEvents : Prop :=
  (∀ s : State, (∀ c, s.clauseAt s.me s.ctx.hdr = .ok c → (s.me.clauseReady c.h = false → exec .clauseFetch s = .next s) ∧
      (s.me.clauseReady c.h = true → ∃ t, exec .clauseFetch s = .next t ∧ t = { s with me := t.me, mxOld := t.mxOld } ∧
        t.me = { s.me with threads := t.me.threads, jhint := t.me.jhint } ∧
        ∀ l, l < s.me.width → t.me.thread l = if s.grp.getLsbD l then { s.me.thread l with pc := s.ctx.hdr + 4, hdr := s.ctx.hdr } else s.me.thread l)) ∧
    (s.clauseAt s.me s.ctx.hdr = .bad → exec .clauseFetch s = .next (s.trapNow 0x02 s.grp 0 0 0))) ∧
  (∀ (s : State) (id : Nat) (u : Team) (m : Mask) (n : Nat), s.team id = some u →
    (s.groupReady u m = false → exec (.schedReady256 id m) s = .next s ∧ exec (.schedReady1024 id m) s = .next s) ∧
    (u.waited m s.turn 256 = false → exec (.schedReady256 id m) s = .next s) ∧
    (u.waited m s.turn 1024 = false ∨ m &&& ~~~ u.raised ≠ 0 → exec (.schedReady1024 id m) s = .next s) ∧
    (s.groupReady u m = true →
      (u.waited m s.turn 256 = true →
        ∃ v, exec (.schedReady256 id m) s = .next (s.setTeam v) ∧ v = { u with raised := u.raised ||| m, raisedAt := v.raisedAt }) ∧
      (u.waited m s.turn 1024 = true → m &&& ~~~ u.raised = 0 →
        exec (.schedReady1024 id m) s = .next (s.setTeam { u with raisedTop := u.raisedTop ||| m }))) ∧
    exec (.joinHintExpire id) s = .next (s.setTeam { u with jhint := 0 }) ∧
    (n ∉ u.absent → exec (.registerCacheFill id n) s = .next s) ∧
    (n ∈ u.absent → (∀ v, s.readReg u n = .ok v → exec (.registerCacheFill id n) s = .next (({ s with fresh := s.fresh + 16 } : State).setTeam
        { u with absent := u.absent.filter (fun k => decide (k ≠ n)), vregs := if v.tag = .unset then u.vregs else tabSet u.vregs n v })) ∧
      (∀ va lv, s.readReg u n = .fault va lv → exec (.registerCacheFill id n) s = .next ((s.devFault u.die u.core u.proc va kindRead lv 0).setTeam
        { u with absent := u.absent.filter (fun k => decide (k ≠ n)) ++ [n] })) ∧
      (∀ va c, s.readReg u n = .refuse va c → exec (.registerCacheFill id n) s = .next (s.refusedTeam u va c kindRead)))) ∧
  (∀ (s u : State) (id : Nat) (v : Team) (b : Block), s.team id = some v → v.mayRetire = true → s.writeImage v = .ok u → s.block v.block = some b →
    ((∃ w ∈ s.allTeams, w.id ≠ id ∧ w.block = v.block ∧ w.agent = false) → ∃ t, exec (.teamRetire id) s = .next t ∧
      t.blocks = s.blocks.map (fun x => if x.id = v.block then { x with past := x.past ++ [(v.index, v.threads.map (fun th => th.last))] } else x) ∧
      t.grids = s.grids ∧ t.mem = u.mem ∧ (∀ w, w ∈ t.allTeams ↔ w ∈ s.allTeams ∧ w.id ≠ id)) ∧
    ((∀ w ∈ s.allTeams, w.id ≠ id → w.block ≠ v.block ∨ w.agent = true) → v.agent = false → b.run = .resident → b.acc.all (fun a => !a.busy) = true →
      b.tags.all (fun x => !x.busy) = true → ∃ t, exec (.teamRetire id) s = .next t ∧ t.blocks = s.blocks.filter (fun x => decide (x.id ≠ b.id)))) ∧
  (∀ (s u : State) (d c : Nat) (e : BlockEntry) (es : List BlockEntry) (g : Grid), (s.core d c).queue = e :: es → s.grid e.grid = some g →
    s.agentActs d c = true → s.awake d c = true → s.reserving d = false → g.lseq = e.grid → g.kd.cluster = 1 → g.linearOf (g.clusterOf e.lin).1 0 = e.lin →
    (s.logical d).find? (fun k => (s.core d k).queue.any (fun x => decide (x.grid = g.lseq ∧ x.lin = e.lin))) = some c →
    (s.setCore d c { s.core d c with queue := (e :: es).filter (fun x => !decide (x.grid = g.lseq ∧ x.lin = e.lin)) }).admitBlock g e.lin d c 0 = .ok u →
    exec (.blockAdmit d c) s = .next u) ∧
  (∀ (s u : State) (g : Grid) (lin d c : Nat), s.admitBlock g lin d c 0 = .ok u → ∃ b ts, u.blocks = s.blocks ++ [b] ∧ u.teams = s.teams ++ ts ∧
    ts.length = g.kd.teams ∧ b.id = s.nextId ∧ b.grid = g.lseq ∧ b.lin = lin ∧ b.die = d ∧ b.core = c ∧ b.run = .resident ∧
    b.scratch = Bank.zero g.kd.scratch ∧ b.bars = List.replicate 16 Barrier.reset ∧ b.tags = List.replicate g.kd.tags CopyTag.reset ∧
    b.acc = List.replicate g.kd.acc AccTile.zero ∧ b.fifos = List.replicate g.kd.fifo [] ∧
    ∀ w ∈ ts, w.block = s.nextId ∧ w.width = g.kd.width ∧ w.priv = false ∧ w.agent = false ∧ w.entries = [] ∧ w.frame = none ∧ w.spair 0 = g.args ∧
      w.flags = List.replicate 12 0 ∧ w.trapEn = BitVec.ofNat 32 g.kd.trapEn ∧ w.proc = g.proc ∧
      w.threads = List.replicate g.kd.width { Thread.reset with pc := bits g.kd.entry 0 57, hdr := bits g.kd.entry 0 57 }) ∧
  (∀ (s : State) (d a b : Nat), s.tidy = true → s.logical d = [a, b] → a < 64 → b < 64 → a ≠ b →
    let qa := (s.core d a).queue
    let qb := (s.core d b).queue
    let n := (qa.length - qb.length) / 2
    (qa.length ≤ qb.length + 8 → qb.length ≤ qa.length + 8 → exec (.balanceTick d) s = .next s) ∧
    (qb.length + 8 < qa.length → qa.all (fun e => e.movable) = true → exec (.balanceTick d) s = .next
      ((s.setCore d a { s.core d a with queue := qa.take (qa.length - n) }).setCore d b { s.core d b with queue := qb ++ qa.drop (qa.length - n) }))) ∧
  (∀ (s : State) (b : Block) (g : Grid) (u : Team), s.block b.id = some b → s.grid b.grid = some g → s.blocks.filter (fun x => decide (x.grid = b.grid)) = [b] →
    s.asked b = false → b.run = .resident → s.massOf b.grid = none → s.childLacksRoom = true → u ∈ s.teamsOf b.id → s.waitsOnChild u = true →
    (∀ x ∈ s.blocks, x.die = b.die → s.unitWaits x = true → s.launchOf x ≤ s.launchOf b) →
    ∃ t, exec (.childRoomPreempt b.id) s = .next t ∧ t.blocks = s.blocks.map (fun c => if c.id = b.id then { b with away := 1 } else c) ∧
      t.cores = (s.setCore b.die b.core { (s.core b.die b.core).setReg 0x114 (preStat true b.slot) with moving := (s.core b.die b.core).moving ++ [b.id] }).cores) ∧
  (∀ (s : State) (d c bank mode : Nat),
    let k := s.core d c
    let w := BitVec.ofNat 64 (bank % 32 + mode % 4 * 32)
    let open_ := bank < 16 ∧ (∀ x ∈ k.banking, x.1 ≠ bank) ∧ ∀ u ∈ k.alloc, u.bank ≠ bank
    (open_ → exec (.bankCmdGo d c bank mode) s = .next (s.setCore d c
      { k.setReg 0x109 (w ||| (k.reg 0x109 &&& 0x20000000) ||| 0x40000000) with banking := k.banking ++ [(bank, mode)] })) ∧
    (¬ open_ → exec (.bankCmdGo d c bank mode) s = .next (s.setCore d c (k.setReg 0x109 (w ||| 0x20000000 ||| (k.reg 0x109 &&& 0x40000000)))))) ∧
  (∀ (s : State) (d c bank mode : Nat) (rest : List (Nat × Nat)), (s.core d c).banking = (bank, mode) :: rest → bank < 16 → ∃ v,
    let u := s.flushCore d c
    let k := u.core d c
    exec (.bankModeDone d c) s = .next (u.setCore d c
      { (k.setReg 0x108 v).setReg 0x109 (if rest = [] then k.reg 0x109 &&& 0xBFFFFFFF else k.reg 0x109) with banking := rest, clean := [] }) ∧
    ∀ i, i < 16 → bitsN v (2 * i) 2 = if i = bank then mode % 4 else bitsN (k.reg 0x108) (2 * i) 2)

/-- Walks, faults and invalidations (R399 to R403); LOG2 below 16 is log entry 39, the device's own waits and refusals log entry 17. -/
def Obligations.TranslationEvents : Prop :=
  (∀ (s : State) (d c p : Nat) (va : DWord),
    ((s.tlbFind d c p va.toNat).isSome = true → exec (.pageWalk d c p va) s = .next s) ∧
    (∀ e, s.tlbFind d c p va.toNat = none → s.walk d p va.toNat = .leaf e → exec (.pageWalk d c p va) s =
      .next (s.setCore d c { s.core d c with tlb := e :: (s.core d c).tlb.take 2047 })) ∧
    (∀ lv, s.tlbFind d c p va.toNat = none → s.walk d p va.toNat = .fault lv →
      let page := pageOf va.toNat
      let asks := fun (u : Team) (e : Entry) => s.seeks u e && decide (e.lanesIn [page] ≠ 0)
      let needs := (s.allTeams.filter (fun u => decide (u.die = d ∧ u.core = c ∧ u.proc = p))).flatMap (fun u => (u.entries.drop u.suspended).filter (asks u))
      (needs = [] → exec (.pageWalk d c p va) s = .next s) ∧
      (∀ e es, needs = e :: es → exec (.pageWalk d c p va) s = .next ((s.pageFault d c p va.toNat e.kind lv 0).mapTeams (fun u =>
        if u.die = d ∧ u.core = c ∧ u.proc = p then
          { u with entries := mapIx (fun i x => if u.suspended ≤ i ∧ asks u x = true ∧ page ∉ x.waits then { x with waits := page :: x.waits } else x) u.entries }
        else u)))) ∧
    (∀ (u : Team) (e : Entry) (r : Nat), s.tlbFind d c p va.toNat = none → s.walk d p va.toNat = .refuse r → s.me = u → s.teams = [] → u.id ≠ 0 →
      u.die = d → u.core = c → u.proc = p → u.frame = none → u.entries = [e] → s.seeks u e = true → e.refused = 0 → ((s.die d).reg 0x21A) = 0 →
      let m := s.refusedIn d p e (e.lanesIn [pageOf va.toNat])
      m ≠ 0 → ∃ t, exec (.pageWalk d c p va) s = .next t ∧ t.mem = s.mem ∧ t.dies = s.dies ∧
        t.me.entries = [{ e with refused := m, refAddr := e.addr.getD (lowLane m) 0, refCause := r }])) ∧
  (∀ (s : State) (d c p va kind lv src : Nat),
    let r : FaultRec := { proc := p, va := va, vpage := pageOf va, kind := kind, level := lv, source := src, core := if c < 36 then s.logicalOf d c else 0xFF, ty := 0,
                          written := false }
    let known := ∃ q ∈ (s.die d).faults, q.ty = 0 ∧ q.proc = p ∧ q.vpage = pageOf va
    (known → s.pageFault d c p va kind lv src = s) ∧
    (¬ known → s.pageFault d c p va kind lv src = (s.setDie d { s.die d with faults := (s.die d).faults ++ [r] }).drainFaults d ((s.die d).faults ++ [r]))) ∧
  (∀ (s : State) (d p va : Nat) (e : TlbEntry), s.walk d p va = .leaf e →
    e.proc = p ∧ e.va ≤ va ∧ va < e.va + 2 ^ e.log2 ∧ e.log2 ∈ [16, 21, 31] ∧ e.pa % 2 ^ e.log2 = 0 ∧ e.va % 2 ^ e.log2 = 0 ∧
    s.target (e.pa + va % 2 ^ e.log2) ≠ .none ∧ p < ((s.die d).reg 0x211).toNat) ∧
  (∀ (s : State) (d p : Nat), s.tidy = true → s.bootState = 3 →
    let recs := fun (all : Bool) => (s.die d).faults.filter (fun f => decide (f.ty = 0) && f.written && (all || decide (f.proc = p)))
    let rest := fun (all : Bool) => s.setDie d { s.die d with
      faults := (s.die d).faults.filter (fun f => !(decide (f.ty = 0) && f.written && (all || decide (f.proc = p)))) }
    let pages := fun (all : Bool) (q : Nat) => ((recs all).filter (fun f => decide (f.proc = q))).map (fun f => f.vpage)
    let woken := fun (all : Bool) (t : State) => t.dies = (rest all).dies ∧
      t.me = (if s.me.die = d then s.me.wake (pages all s.me.proc) else s.me) ∧
      t.teams = s.teams.map (fun u => if u.die = d then u.wake (pages all u.proc) else u) ∧
      t = { s with me := t.me, teams := t.teams, dies := t.dies, jobs := t.jobs, devWaits := t.devWaits, devRefused := t.devRefused } ∧
      t.devWaits = s.devWaits.filter (fun w => !(decide (w.1 = d) && (pages all w.2.1).contains w.2.2)) ∧
      t.devRefused = s.devRefused.filter (fun w => !(decide (w.1 = d) && (pages all w.2.1).contains w.2.2))
    let known := ((s.die d).faults.filter (fun f => decide (f.ty = 0 ∧ f.proc = p))).map (fun f => f.vpage)
    (∃ t, exec (.faultResolveRetry d p) s = .next t ∧ woken false t) ∧ (∃ t, exec (.faultResolveRetryAll d) s = .next t ∧ woken true t) ∧
    (∀ (u : Team) (e : Entry) (v : Nat), s.me = u → s.teams = [] → u.id ≠ 0 → u.die = d → u.proc = p → u.entries = [e] → e.waits = [v] → e.refused = 0 → u.stall = [] →
      v ∈ known → e.lanesIn known ≠ 0 → ((s.die d).reg 0x21A) = 0 →
      ∃ t, exec (.faultResolveRefuse d p) s = .next t ∧ t.dies = (rest false).dies ∧
        t.me.entries = [{ e with waits := [], refused := e.lanesIn known, refAddr := e.addr.getD (lowLane (e.lanesIn known)) 0, refCause := 10 }])) ∧
  (∀ (s : State) (d : Nat) (base : DWord) (ctl v : Word),
    (∃ t, exec (.faultRingConfig d base ctl) s = .next t ∧ t =
      (s.setDie d (((s.die d).setReg 0x212 base).setReg 0x213 (ctl.setWidth 64 &&& 0x0FFF001F))).drainFaults d (s.die d).faults) ∧
    (∃ t, exec (.faultRiWrite d v) s = .next t ∧ t = (s.setDie d ((s.die d).setReg 0x215 (v.setWidth 64))).drainFaults d (s.die d).faults) ∧
    (∀ (u : State) (fs : List FaultRec), (fs = [] ∨ u.faultRoom d = false ∨ fs.all (fun f => f.written) = true) → u.drainFaults d fs = u)) ∧
  (∀ (s : State) (d p n : Nat), (s.die d).tlbq.length < 16 →
    let sz := if n = 31 then 56 else max 16 n
    let asks := fun (op q b z : Nat) => ∃ t, t.cores = s.cores ∧ t = (s.setDie d { s.die d with tlbq := (s.die d).tlbq ++ [(op, q, b, z, 1)] }).tlbCount d 1 0 ∧
      exec (if op = 0 then .tlbInvProc d p else if op = 1 then .tlbInvRange d p n else .tlbInvAll d) s = .next t
    asks 0 p (((s.die d).reg 0x218).toNat / 2 ^ 16 * 2 ^ 16) 16 ∧ asks 1 p (((s.die d).reg 0x218).toNat / 2 ^ sz * 2 ^ sz) sz ∧
    asks 2 0 (((s.die d).reg 0x218).toNat / 2 ^ 16 * 2 ^ 16) 16) ∧
  (∀ (s : State) (d op q b z m : Nat) (rs : List (Nat × Nat × Nat × Nat × Nat)), (s.die d).tlbq = (op, q, b, z, m) :: rs →
    let used := fun (h : HeldWrite) => if op = 0 then decide (h.proc = q) else if op = 1 then decide (h.proc = q ∧ b ≤ h.va ∧ h.va < b + 2 ^ z) else true
    let waiting := s.dies.any (fun x => x.2.ctls.any (fun c => c.held.any used))
    ∃ t, exec (.tlbInvComplete d) s = .next t ∧ (waiting = true → t = { s with cores := t.cores }) ∧
      (waiting = false → t = (({ s with cores := t.cores } : State).setDie d { s.die d with tlbq := rs }).tlbCount d 0 m) ∧
      t.cores = s.cores.map (fun k => (k.1, { k.2 with tlb := k.2.tlb.filter (fun e =>
        !(if op = 0 then decide (e.proc = q) else if op = 1 then decide (e.proc = q ∧ e.va < b + 2 ^ z ∧ b < e.va + 2 ^ e.log2) else true)) })))

/-- Compressed blocks, chunks and the spill area (R104, R305 to R307, R406, R407). -/
def Obligations.CompressionAndSpillEvents : Prop :=
  (∀ (s : State) (d k : Nat), (s.ctl d k).held = [] → exec (.compressedWriteMerge d k) s = .next s) ∧
  (∀ (s u : State) (d k : Nat) (h : HeldWrite) (hs : List HeldWrite), (s.ctl d k).held = h :: hs →
    let mine := (h :: hs).filter (fun x => decide (x.pa / 512 = h.pa / 512))
    (s.mergeBlock mine (h.pa / 512) = some u → exec (.compressedWriteMerge d k) s =
      .next (mine.foldl (fun s x => s.heldDone x)
        (u.setCtl d k { u.ctl d k with held := (u.ctl d k).held.filter (fun x => decide (x.pa / 512 ≠ h.pa / 512)), stall := false }))) ∧
    (s.mergeBlock mine (h.pa / 512) = none → (s.ctl d k).stall = true → exec (.compressedWriteMerge d k) s = .next s) ∧
    (s.mergeBlock mine (h.pa / 512) = none → (s.ctl d k).stall = false → exec (.compressedWriteMerge d k) s =
      .next (s.setCtl d k { s.ctl d k with stall := true, since := (s.die d).rclk.toNat }))) ∧
  (∀ (s u : State) (h : HeldWrite), s.tidy = true → (s.ctl (s.ctlOf (h.pa / 512 * 512)).1 (s.ctlOf (h.pa / 512 * 512)).2).low = true →
    s.mergeBlock [h] (h.pa / 512) = some u → ∀ a, u.homeByte a = wrote h.pa h.data a (s.homeByte a)) ∧
  (∀ (c c' : Ctl) (blk need : Nat), c.store blk need = some c' →
    let had := defGet 0 c.chunks blk
    (had ≤ need → need - had ≤ c.free → c'.free = c.free - (need - had) ∧ c'.reserve = c.reserve) ∧
    (had ≤ need → c.free < need - had → c'.free = 0 ∧ c'.reserve = c.reserve - (need - had - c.free) ∧ need - had ≤ c.free + c.reserve) ∧
    (need ≤ had → c'.reserve = c.reserve + min (had - need) (2048 - c.reserve) ∧ c'.free + c'.reserve = c.free + c.reserve + (had - need)) ∧
    defGet 0 c'.chunks blk = need) ∧
  (∀ (s : State) (d k page : Nat),
    let mine := s.target (page * 65536) = .hbm d ∧ k < 2 ∨ s.target (page * 65536) = .capacity d ∧ 2 ≤ k ∧ k < 4
    let c := s.ctl d k
    (mine → exec (.chunkGrant d k page) s = .next (s.setCtl d k
      { c with reserve := c.reserve + min 1024 (2048 - c.reserve), free := c.free + (1024 - min 1024 (2048 - c.reserve)), stall := false })) ∧
    (¬ mine → exec (.chunkGrant d k page) s = .next s)) ∧
  (∀ (s : State) (d k : Nat),
    let c := s.ctl d k
    let due := c.stall = true ∧ c.since + ((s.die d).reg 0x21B).toNat ≤ (s.die d).rclk.toNat
    (¬ due → exec (.chunkTimeout d k) s = .next s) ∧
    (∀ h hs, due → c.held = h :: hs → (∀ x ∈ hs, x.proc = h.proc) →
      let u := s.contain h.proc 8 ((h :: hs).filterMap s.heldAtPacket).head?
      exec (.chunkTimeout d k) s = .next (u.setCtl d k { u.ctl d k with held := [], stall := false }))) ∧
  (∀ (s : State) (d n : Nat), n < 2 ^ 64 →
    (n < ((s.die d).reg 0x21D).toNat → exec (.rspillExtend d n) s = .next s) ∧
    (((s.die d).reg 0x21D).toNat ≤ n → exec (.rspillExtend d n) s =
      .next (s.setDie d ((s.die d).setReg 0x21D (BitVec.ofNat 64 n))))) ∧
  (∀ (s : State) (team entry ty since : Nat) (t : Team) (e : Entry), s.team team = some t → t.activeEntry entry = some e → e.work = .redDet ty since →
    let x := s.die t.die
    let due := since ≠ 0 ∧ since + (x.reg 0x21B).toNat ≤ x.rclk.toNat
    exec (.spillTimeout team entry) s = .next (if due then s.containTeam t 9 else s))

/-- Work of the copy engine, of TWAIT and of the matrix engine (R77, R235 to R270); an uncorrectable tile has no address, log entry 31. -/
def Obligations.EngineWorkCompletes : Prop :=
  let ended := fun (s : State) (j : Job) (n : Nat) => ({ s with jobs := s.jobs.filter (fun x => decide (x.id ≠ j.id)) } : State).setTag j.block j.tag
    (fun _ => { done := true, status := n, busy := false })
  let due := fun (s : State) (j : Job) => s.jobs.find? (fun x => decide (x.id = j.id)) = some j ∧ j.waits = [] ∧ s.engHeld 0 j.id = false ∧ j.block ≠ 0 ∧
    s.pfsHolds j.die j.core 0xF = false
  (∀ (s : State) (team entry sub tag x : Nat) (t : Team) (e : Entry), s.ready team entry = some (t, e) → e.work = .copy sub tag x →
    ∃ u j, exec (.copyAccepted team entry) s = .next u ∧ u.jobs = s.jobs ++ [j] ∧ u.nextId = s.nextId + 1 ∧ u.team t.id = some (t.finish e) ∧
      u.mem = (s.releaseBy 5 t e.emask).mem ∧ u.blocks = s.blocks ∧ j.id = s.nextId ∧ j.form = sub ∧ j.tag = tag ∧ j.block = t.block ∧
      j.src = BitVec.ofNat 64 (fieldAt e.cap 0 8) ∧ j.dst = BitVec.ofNat 64 (fieldAt e.cap 8 8) ∧ (sub = 0 → j.len = fieldAt e.cap 16 4) ∧
      j.desc = e.cap.drop 24 ∧ j.waits = []) ∧
  (∀ (s : State) (j : Job) (b : Block), due s j → s.block j.block = some b → b.run ≠ .away →
    (j.form = 0 → j.len = 0 → exec (.copyDone j.id) s = .next (ended s j 1)) ∧
    (j.form = 1 ∨ j.form = 2 → (tdescOf j.desc).ok j.form = false ∨ j.misdesc = true → exec (.copyDone j.id) s = .next (ended s j 5)) ∧
    (j.form = 3 → j.misdesc = true ∨ fieldAt j.desc 0x1C 4 ≠ 0 ∨ 65536 < fieldAt j.desc 0x18 4 → exec (.cpyjDone j.id) s = .next (ended s j 5)) ∧
    (j.form = 3 → j.misdesc = false → fieldAt j.desc 0x1C 4 = 0 → fieldAt j.desc 0x18 4 ≤ 65536 → ((j.desc.drop 0x28).take 0x18).all (fun x => decide (x = 0)) = true →
      fieldAt j.desc 0x10 4 = 0 → exec (.cpyjDone j.id) s = .next (ended (s.cardResult j 0 0) j 1)) ∧
    (j.form = 0 → j.ssp = 1 → j.dsp = 1 → tabWf b.scratch.bytes = true → j.src.toNat + j.len ≤ b.scratch.size → j.dst.toNat + j.len ≤ b.scratch.size →
      b.scratch.size ≤ 2 ^ 32 → (j.src.toNat + j.len ≤ j.dst.toNat ∨ j.dst.toNat + j.len ≤ j.src.toNat) →
      b.scratch.poisoned j.src.toNat j.len = false → j.tag < b.tags.length → ∃ u c, exec (.copyDone j.id) s = .next u ∧ u.block j.block = some c ∧
        c.tags[j.tag]? = some { done := true, status := 1, busy := false } ∧ u.mem = s.mem ∧
        ∀ a, defGet emptyByte c.scratch.bytes a = if j.dst.toNat ≤ a ∧ a < j.dst.toNat + j.len
          then defGet emptyByte b.scratch.bytes (j.src.toNat + (a - j.dst.toNat)) else defGet emptyByte b.scratch.bytes a)) ∧
  (∀ (s : State) (team entry sub sd : Nat) (m : Mask) (t : Team) (e : Entry) (b : Block), s.team team = some t → t.activeEntry entry = some e →
    s.block t.block = some b → e.work = .twait sub sd m →
    (twaitAnswer b sub m = none → exec (.twaitComplete team entry) s = .next s) ∧
    (∀ v, twaitAnswer b sub m = some v → ∃ u w, exec (.twaitComplete team entry) s = .next u ∧ u.team t.id = some w ∧ Completed t w e ∧ w.vregs = t.vregs ∧
      ∀ n, n < 24 → w.sreg n = if sd = 31 then t.sreg n else if sub = 2 then (if n = sd then Elem.ofWord (bits v 0 32) else t.sreg n)
        else (pairOf sd v n).getD (t.sreg n))) ∧
  (∀ (b : Block) (m : Mask), m &&& ~~~ fullMask b.tags.length = 0 → b.tags.length ≤ 64 →
    let is_ := fun (n : Nat) => (b.tags.getD n CopyTag.reset).done
    ((∀ n, m.getLsbD n = true → is_ n = true) → ∃ v, twaitAnswer b 0 m = some v ∧
      ∀ n, n < 64 → v.getLsbD n = (m.getLsbD n && decide ((b.tags.getD n CopyTag.reset).status ≠ 1))) ∧
    ((∃ n, m.getLsbD n = true ∧ is_ n = false) → twaitAnswer b 0 m = none) ∧
    (m ≠ 0 → (∀ n, m.getLsbD n = true → is_ n = false) → twaitAnswer b 1 m = none ∧ twaitAnswer b 2 m = none) ∧
    twaitAnswer b 1 0 = some 0 ∧ twaitAnswer b 2 0 = some 0x80000000) ∧
  (∀ (s : State) (team entry op x ty c tile : Nat) (t : Team) (e : Entry) (b : Block) (a : AccTile), s.team team = some t → t.activeEntry entry = some e →
    e.work = .matrix op x ty c tile → t.entries.find? (fun y => decide (y.order = entry)) = some e → e.waits = [] → e.refused = 0 → e.progress = 0 →
    s.pfsHolds t.die t.core (BitVec.ofNat 4 (2 ^ t.part)) = false → s.block t.block = some b → b.acc[tile]? = some a → a.slot = true →
    tabWf a.elems = true → t.width ≤ 64 → a.bad = false →
    let at_ := fun (k : AccTile) (i j : Nat) => defGet 0 k.elems (64 * i + j)
    let done := fun (u : State) (k : AccTile) (w : Team) => exec (.matrixComplete team entry) s = .next u ∧ u.team t.id = some w ∧ Completed t w e ∧
      w.sregs = t.sregs ∧ k.busy = false ∧ k.slot = true ∧ u.blocks = s.blocks.map (fun y => if y.id = b.id then { b with acc := setAt b.acc tile k } else y) ∧ u.mem = s.mem
    (op = 0x71 → ∃ u k w, done u k w ∧ w.vregs = t.vregs ∧ ∀ i j, i < 128 → j < 64 → at_ k i j = 0) ∧
    (op = 0x75 → c + x % 64 + 1 ≤ 64 → (e.addr.getD 0 0).toNat + t.width ≤ 128 → ∃ u k w, done u k w ∧ w.vregs = t.vregs ∧ ∀ i j, j < 64 →
      let r0 := (e.addr.getD 0 0).toNat
      at_ k i j = if r0 ≤ i ∧ i < r0 + t.width ∧ c ≤ j ∧ j < c + x % 64 + 1 then (e.data.getD (i - r0) []).getD (j - c) 0 else at_ a i j) ∧
    (op = 0x74 → ∃ u k w, done u k w ∧ k.elems = a.elems ∧ ∀ l n, l < t.width → w.velem n l =
      if tgAt e.tgt l 0 ≤ n ∧ n < tgAt e.tgt l 0 + (x % 64 + 1)
      then Elem.ofWord (at_ a (((e.data.headD []).headD 0).toNat + l) (c + (n - tgAt e.tgt l 0))) else t.velem n l)) ∧
  (∀ (s : State) (team entry op x ty c tile : Nat) (t : Team) (e : Entry) (b : Block) (a : AccTile), s.team team = some t → t.activeEntry entry = some e →
    e.work = .matrix op x ty c tile → t.entries.find? (fun y => decide (y.order = entry)) = some e → e.waits = [] → e.progress = 0 →
    s.pfsHolds t.die t.core (BitVec.ofNat 4 (2 ^ t.part)) = false → s.block t.block = some b → b.acc[tile]? = some a → a.slot = true →
    (e.refused ≠ 0 → exec (.matrixComplete team entry) s = .next (s.mxFault t.id entry e.refAddr.toNat 4)) ∧
    (e.refused = 0 → a.bad = true → op = 0x70 ∨ op = 0x73 ∨ op = 0x74 ∨ op = 0x77 →
      exec (.matrixComplete team entry) s = .next ((s.setBlock { b with acc := setAt b.acc tile { a with bad := false } }).mxFault t.id entry 0 5)) ∧
    (e.refused = 0 → a.bad = false → s.mxOld = [] → e.kept = [] → tabWf a.elems = true → x % 4 ≠ 3 → x / 4 % 4 ≠ 3 →
      let m := 32 * 2 ^ (x % 4)
      let n := 16 * 2 ^ (x / 4 % 4)
      let at_ := fun (k : AccTile) (i j : Nat) => defGet 0 k.elems (64 * i + j)
      let bank := fun (v : View) => s.bankOf b v.m.sel
      let fmt := fun (k : EKind) => match k with | .f16 => fmtF16 | .bf16 => fmtBF16 | .e4m3 => fmtE4M3 | .e5m2 => fmtE5M2 | _ => fmtF32
      let blk := fun (k : EKind) => match k with | .mx e5 => Blk.mx8 e5 | .c4 => .c4 | _ => .i4x
      let places := fun (v : View) (i k : Nat) => if v.k.eb = 0 then [(v.m.plainAt v.k.es i k, v.k.es)]
        else [((v.m.blockAt v.k.eb i (k / 32)).1, v.k.eb), ((v.m.blockAt v.k.eb i (k / 32)).2, 1)]
      let reads := fun (v : View) (i k : Nat) => ∀ p ∈ places v i k, (bank v).inside p.1 p.2 = true ∧ (bank v).poisoned p.1 p.2 = false
      let stored := fun (v : View) (i k j : Nat) => let p := (places v i k).getD j (0, 0); (bank v).read p.1 p.2
      let elem := fun (v : View) (i k : Nat) => if v.k.eb = 0 then ((fmt v.k).decode (ofLeBytes (stored v i k 0))).deep
        else (blk v.k).decode (stored v i k 0) (ofLeBytes (stored v i k 1)) (codebook v.cb) (k % 32)
      let ends := fun (u : State) (k : AccTile) (w : Team) => exec (.matrixComplete team entry) s = .next u ∧ u.team t.id = some w ∧
        w.entries = t.entries.filter (fun y => decide (y.order ≠ entry)) ∧ w.flags = decCounts t.flags e.fla e.flb ∧ w.vregs = t.vregs ∧
        k.busy = false ∧ k.slot = true
      let alone := fun (u : State) (k : AccTile) => u.blocks = s.blocks.map (fun y => if y.id = b.id then { b with acc := setAt b.acc tile k } else y) ∧ u.mem = s.mem
      (op = 0x70 →
        let va := e.view false true .f16
        let vb := e.view true true .f16
        let held := bit (e.cap.getD 0x64 0) 0
        let word := fun (o : Nat) => (e.data.headD []).getD o 0
        let aVal := fun (i k : Nat) =>
          if e.regA then ((if bit e.w0 6 then fmtBF16 else fmtF16).decode (bitsN (word ((i / t.width * (8 * (c + 1)) + k / 2) * t.width + i % t.width)) (16 * (k % 2)) 16)).deep
          else if held then elemVal (word ((k / 16 * m + i) * 16 + k % 16)) else elem va i k
        (held = false → e.regA = false → va.m.space ≠ 2 ∧ va.k ≠ .auto ∧ ∀ i k, i < m → k < 16 * (c + 1) → reads va i k) →
        vb.m.space ≠ 2 → vb.k ≠ .auto → (∀ j k, j < n → k < 16 * (c + 1) → reads vb j k) →
        ∃ u k w, ends u k w ∧ alone u k ∧
          (∀ i j, j < 64 → at_ k i j = if i < m ∧ j < n then (List.range (c + 1)).foldl (fun y q => sliceStep y ((List.range 16).map (fun h =>
              (if x / 16 % 2 = 1 then (aVal i (16 * q + h)).negate else aVal i (16 * q + h), elem vb j (16 * q + h))))) (at_ a i j) else at_ a i j) ∧
          (held = false → e.regA = false → t.latch.pending = true → x / 32 % 2 = 1 → w.latch.valid = true ∧ ∀ i k, i < m → k < 16 * (c + 1) →
            (elem va i k).isNan = false → elemVal (w.latch.vals.getD ((k / 16 * m + i) * 16 + k % 16) 0) = elem va i k)) ∧
      (op = 0x72 → ty = 2 ∨ ty = 3 ∨ ty = 4 →
        let v := e.view false false (kindOfType ty false)
        v.m.space ≠ 2 → (∀ i j, i < m → j < n → reads v i j) → ∃ u k w, ends u k w ∧ alone u k ∧ ∀ i j, j < 64 →
          let old := (fmt v.k).decode (ofLeBytes (stored v i j 0))
          (¬ (i < m ∧ j < n) → at_ k i j = at_ a i j) ∧ (i < m → j < n →
            if ty = 2 then at_ k i j = BitVec.ofNat 32 (ofLeBytes (stored v i j 0))
            else if old.isNan then at_ k i j = 0x7FC00000 else fmtF32.decode (at_ k i j).toNat = old)) ∧
      (op = 0x73 → ty ∈ [2, 3, 4, 5, 6, 0xD, 0xF] → s.engHeld t.id entry = false →
        let v := e.view false false (kindOfType ty (decide (x / 16 % 2 = 1)))
        let o := e.rnd (fmtOf ty)
        let val := fun (i j : Nat) => fmtF32.decode (at_ a i j).toNat
        let ws := (List.range m).flatMap (fun i =>
          if v.k.eb = 0 then (List.range n).map (fun j => (v.m.plainAt v.k.es i j, leBytes (if v.m.space = 1 ∧ v.k.es = 1 then 2 else v.k.es)
            (if ty = 2 then (at_ a i j).toNat else (o.convert (val i j)).bits)))
          else (List.range (n / 32)).flatMap (fun q =>
            let bs := (blk v.k).quantise [] ((List.range 32).map (fun h => val i (32 * q + h)))
            [((v.m.blockAt v.k.eb i q).1, bs.take v.k.eb), ((v.m.blockAt v.k.eb i q).2, bs.drop v.k.eb)]))
        (v.m.space ≠ 2 → tabWf (bank v).bytes = true → (∀ y ∈ ws, (bank v).inside y.1 y.2.length = true) →
          ∃ u b' k w, ends u k w ∧ k.elems = a.elems ∧ u.block t.block = some b' ∧ b'.acc = setAt b.acc tile k ∧ u.mem = s.mem ∧
            ∀ z, defGet emptyByte (u.bankOf b' v.m.sel).bytes z = ws.foldl (fun old y => wrote y.1 y.2 z old) (defGet emptyByte (bank v).bytes z)) ∧
        (∀ (pa : Nat → Nat) (p : Point), v.m.space = 2 → s.tidy = true → s.reds = [] → (∀ y ∈ ws, y.2 ≠ [] →
            s.translate t.die t.core t.proc e.priv kindWrite (BitVec.ofNat 64 y.1) = .ok (pa y.1) false ∧ y.1 % 65536 + y.2.length ≤ 65536 ∧
            s.target (pa y.1 + y.2.length - 1) ≠ .none ∧ s.isWindow (pa y.1) = false ∧ s.pointAt 0 t.die t.core (pa y.1) = p) →
          ∃ u k w, ends u k w ∧ k.elems = a.elems ∧ alone { u with mem := s.mem } k ∧
            ∀ z, u.byteAt p z = ws.foldl (fun old y => wrote (pa y.1) y.2 z old) (s.byteAt p z))) ∧
      (op = 0x77 →
        let o := e.rnd fmtF32
        let p := fieldAt e.cap 0x60 4
        let f32 := fun (y : Nat) => fmtF32.decode (ofLeBytes (b.scratch.read y 4))
        let word := fun (y : FRes) => BitVec.ofNat 32 y.bits
        let epi := fun (j : Nat) (y : Word) =>
          let q := fmtF32.decode y.toNat
          let y1 := if x % 4 = 3 then word (o.fma q (f32 (p + 4 * j)) (f32 (p + 256 + 4 * j))) else if x % 4 = 1 then word (o.mul q (f32 (p + 4 * j)))
            else if x % 4 = 2 then word (o.add q (f32 (p + 256 + 4 * j))) else y
          let q1 := fmtF32.decode y1.toNat
          let y2 := if x / 4 % 8 = 1 then (if q1.isNan then y1 else if q1 = .inf false ∨ 0 < q1.int then y1 else 0)
            else if x / 4 % 8 = 2 then word (o.gelu q1) else if x / 4 % 8 = 3 then word (o.tanh q1) else y1
          if c = 0 then y2
          else word (({ f := fmtF32, mode := 1, sat := false, fo := false } : Rnd).exact
            ((fmtOf (c + 2)).decode (({ o with f := fmtOf (c + 2) } : Rnd).convert (fmtF32.decode y2.toNat)).bits))
        (x % 2 = 1 → b.scratch.inside p 256 = true ∧ b.scratch.poisoned p 256 = false) →
        (x / 2 % 2 = 1 → b.scratch.inside (p + 256) 256 = true ∧ b.scratch.poisoned (p + 256) 256 = false) →
        ∃ u k w, ends u k w ∧ alone u k ∧ ∀ i j, j < 64 → at_ k i j = if i < 128 then epi j (at_ a i j) else at_ a i j))) ∧
  (∀ (y : Word) (ps : List (FV × FV)),
    let prods := ps.map (fun p => mulExact p.1 p.2)
    let sum := (ps.map (fun p => p.1.int * p.2.int)).foldl (· + ·) 0
    let old := fmtF32.decode y.toNat
    (none ∈ prods ∨ (some (.inf false) ∈ prods ∧ some (.inf true) ∈ prods) → sliceStep y ps = 0x7FC00000) ∧
    (∀ s, none ∉ prods → some (.inf s) ∈ prods → some (.inf (!s)) ∉ prods →
      sliceStep y ps = if old.isNan = true ∨ old = .inf (!s) then 0x7FC00000 else if s then 0xFF800000 else 0x7F800000) ∧
    ((∀ p ∈ ps, p.1.isFin = true ∧ p.2.isFin = true) →
      (sum = 0 → sliceStep y ps = y) ∧ (sum ≠ 0 → old.isNan = true → sliceStep y ps = 0x7FC00000) ∧
      (sum ≠ 0 → old.isFin = true → sliceStep y ps = BitVec.ofNat 32
        (({ f := fmtF32, mode := 1, sat := false, fo := false } : Rnd).ofInt (old.int * 2 ^ 171 + sum) (-320) false).bits) ∧
      (∀ g, sum ≠ 0 → old = .inf g → sliceStep y ps = y))) ∧
  (∀ (s : State) (team entry l op x ty c tile : Nat) (t : Team) (e : Entry) (b : Block) (a : AccTile), s.team team = some t →
    s.slotWaits t.die t.core = [(l, team, entry)] → s.block t.block = some b → t.entries.find? (fun y => decide (y.order = entry)) = some e →
    e.work = .matrix op x ty c tile → b.acc[tile]? = some a →
    ((s.resident t.die t.core).length < 128 → a.out = false →
      exec (.accumSlotGrant team entry) s = .next (s.setBlock { b with acc := setAt b.acc tile { a with slot := true } })) ∧
    (∀ row : Nat → List Byte, (s.resident t.die t.core).length < 128 → a.out = true →
      (∀ i, i < 128 → s.readVirt t.die t.core t.proc true (b.accBase.toNat + 32768 * tile + 256 * i) 256 = .ok (row i)) →
      exec (.accumSlotGrant team entry) s =
        .next (s.setBlock { b with acc := setAt b.acc tile { a with slot := true, out := false, elems := imageElems 0 ((List.range 128).flatMap row) } })) ∧
    (∀ v k u, 128 ≤ (s.resident t.die t.core).length → s.victim t.die t.core (s.launchOf b) = some (v, k) → s.evict v k = u →
      exec (.accumSlotGrant team entry) s = .next u))

/-- BIN and TILEQ from issue to their results (R274 to R276, R314, R316). That no LCE accepts while any pass of the device flushes,
and that an arena write waiting on a page fault holds its die's LCE, is the model's reading (log entry 43). -/
def Obligations.BinningAndTileQueries : Prop :=
  Both .bin .binLong 0 (fun i r => ∀ s : State,
    let F := formBin true r
    s.myGrid.binning.isSome = true →
    (s.runs F r = true → s.queueRoom r.fsel = true → (∀ l, (s.lanes r).getLsbD l = true → s.runPois F r 1 14 l = false) →
      ∃ t e, exec i s = .next t ∧ t = { s with me := t.me } ∧ t.me.entries = s.me.entries ++ [e] ∧ t.me.vregs = s.me.vregs ∧ t.me.sregs = s.me.sregs ∧
        e.work = .bin ∧ e.lmask = s.lanes r ∧
        (∀ l, l < s.me.width → e.addr.getD l 0 = (BitVec.ofNat 32 (s.me.thread l).bins ++ (s.opndAt F r 1 0 l).val : BitVec (32 + 32))) ∧
        (∀ l, l < s.me.width → (s.lanes r).getLsbD l = true → e.data.getD l [] = (List.range 13).map (fun j => (s.opndAt F r 1 (1 + j) l).val)) ∧
        ∀ l, l < s.me.width → t.me.thread l =
          (let th := s.onward r l
           if s.grp.getLsbD l then { th with bins := th.bins + 1 } else th)) ∧
    (s.refusal 2 (F.ok r) false false = none → r.guardPois s.me s.grp = 0 → s.lanes r = 0 → exec i s = .next s.countBin.advance)) ∧
  Both .tileq .tileqLong 0 (fun i r => ∀ s : State,
    let F := formTileq true r
    s.tileqLegal (r.xf 0 4) = true → s.runs F r = true → s.queueRoom r.fsel = true →
    ∃ t e, exec i s = .next t ∧ Queued s t r e (s.unsetBit F r) ∧ e.work = .tileq (r.xf 0 4) ∧ e.lmask = s.lanes r ∧
      e.busy = s.me.dstBusy r (s.lanes r) 1 (s.me.targets F r)) ∧
  (∀ (s : State) (team entry gi : Nat) (t : Team) (e : Entry) (b : Block) (p : Pass), s.ready team entry = some (t, e) → e.work = .bin →
    s.binOf t = some (b, p, gi) →
    (e.lmask = 0 → exec (.binAccepted team entry) s = .next (s.setTeam ((t.deliver e
      ((lanesOf e.emask).map (fun l => (l, [Elem.ofWord ((e.data.getD l []).headD 0)])))).finish e))) ∧
    (e.lmask ≠ 0 → (s.lceAccepts t.die = false ∨ s.binFull p t.die e (lowLane e.lmask) = true) → exec (.binAccepted team entry) s = .next s) ∧
    ((∃ q ∈ s.passes, q.flushing = true) → s.lceAccepts t.die = false) ∧
    (∀ l, onlyLane e.lmask l → e.emask = e.lmask → l < t.width → l < 64 → e.data.length = t.width → s.lceAccepts t.die = true →
      shapeOf (bits (e.addr.getD l 0) 0 32 :: e.data.getD l []) = none → ∃ u w, exec (.binAccepted team entry) s = .next u ∧ u.passes = s.passes ∧
        u.team t.id = some w ∧ w.entries = t.entries.filter (fun x => decide (x.order ≠ e.order)) ∧
        w.velem (tgAt e.tgt l 0) l = Elem.ofWord 0xFFFFFFFF)) ∧
  (∀ (s u : State) (t : Team) (e f : Entry) (b : Block) (p : Pass) (gi l : Nat) (h : Shape),
    let run := bits (e.addr.getD l 0) 0 32 :: e.data.getD l []
    let ts := p.reached h
    shapeOf run = some h → s.binAccept t e b p gi l = .ok (u, f) →
    f = { e with lmask := maskPut e.lmask l false, data := setAt e.data l [BitVec.ofNat 32 ts.length] } ∧
    (ts = [] → u = s.releaseBy 5 t (maskPut 0 l true)) ∧
    (ts ≠ [] → u.passes = s.passes.map (fun q => if q.lseq = p.lseq then
      { p with used := defSet 0 p.used t.die (defGet 0 p.used t.die + (64 + 8 * ts.length))
               prims := putPrim p.prims { key := [gi, b.lin, t.index, bitsN (e.addr.getD l 0) 32 32, l], run := run, blend := bit p.blend gi, die := t.die, tiles := ts } }
      else q))) ∧
  (∀ (ps : List Prim) (x : Prim), (∀ y, y ∈ putPrim ps x ↔ y = x ∨ y ∈ ps) ∧
    (ps.Pairwise (fun y z => keyBefore z.key y.key = false) → (putPrim ps x).Pairwise (fun y z => keyBefore z.key y.key = false))) ∧
  (∀ (s : State) (team entry sel : Nat) (t : Team) (e : Entry) (b : Block) (p : Pass) (y : TileSt), s.ready team entry = some (t, e) →
    e.work = .tileq sel → sel ≤ 8 → s.block t.block = some b → s.tileOf b = some (p, y) →
    ∃ w, exec (.tileqComplete team entry) s = .next (s.setTeam w) ∧ Completed t w e ∧
      ∀ l, l < t.width → e.lmask.getLsbD l = true → w.velem (tgAt e.tgt l 0) l = Elem.ofWord
        (([BitVec.ofNat 32 (y.tile % p.tw + y.tile / p.tw * 65536), BitVec.ofNat 32 p.lseq, BitVec.ofNat 32 y.segs, if y.segs = 0 then 0 else 1,
          BitVec.ofNat 32 (p.prims.filter (fun x => x.tiles.contains y.tile)).length, if p.samples4 then 4 else 1,
          BitVec.ofNat 32 (t.frag.getD l (0, 0)).1, BitVec.ofNat 32 t.prim, BitVec.ofNat 32 (t.frag.getD l (0, 0)).2] : List Word).getD sel 0))

/-- A pass from its segments to its end (R313, R317, R318, R322 to R327, R330, R331). That no team is admitted while a mass start
reserves (log entry 51), that a stopped partition halts its core's raster unit whole (log entry 37) and how banks are dealt to tiles
and blocks (log entry 44) are the model's readings. -/
def Obligations.TilesRenderedInSegments : Prop :=
  (∀ (s : State) (n : Nat) (p : Pass), s.pass n = some p → p.started = true → p.final = false →
    (p.flushing = false → s.shareFull p = false → exec (.partialFlush n) s = .next s) ∧
    (p.flushing = false → s.shareFull p = true → ∃ q, exec (.partialFlush n) s = .next (s.setPass q) ∧
      q = { p with tiles := q.tiles, flushing := true } ∧ ∀ k, (q.tileAt k).isSome = ((p.tileAt k).isSome || !(p.list k).isEmpty)) ∧
    (p.flushing = true → (∀ y ∈ p.tiles, p.list y.tile = [] ∨ y.stage = 5) → exec (.partialFlush n) s = .next (s.setPass
      { p with flushing := false, prims := [], used := [], segment := p.segment + 1, tiles := p.tiles.map (fun y => { y with stage := 0, frags := [] }) })) ∧
    (p.flushing = true → (∃ y ∈ p.tiles, p.list y.tile ≠ [] ∧ y.stage ≠ 5) → exec (.partialFlush n) s = .next s)) ∧
  (∀ (s : State) (n d : Nat) (p : Pass), s.pass n = some p → p.flushing = false → p.final = false →
    ((p.started = false ∨ ∃ g ∈ p.grids, (s.grid g).isSome = true) → exec (.marshalDeal n d) s = .next s) ∧
    (p.started = true → (∀ g ∈ p.grids, s.grid g = none) → ∃ t q, exec (.marshalDeal n d) s = .next t ∧ t.pass n = some q ∧ q.final = true ∧
      ∀ k, k < p.tw * p.th → (q.tileAt k).isSome = true)) ∧
  (∀ (s : State) (n d c : Nat) (p : Pass) (y : TileSt), s.pass n = some p → s.setPass p = s → (p.flushing = true ∨ p.final = true) → p.toDeal d = [y] →
    ((s.logical d).find? (fun c => s.tileRoom d c p.units) = none → p.flushing = false → (∀ b ∈ s.blocks, b.run ≠ .away) → exec (.marshalDeal n d) s = .next s) ∧
    ((s.logical d).find? (fun c => s.tileRoom d c p.units) = some c → s.banksHold d c 0 p.units 0 = true → exec (.marshalDeal n d) s = .next
      (((({ s with nextId := s.nextId + 1, tmems := tabSet s.tmems s.nextId (Bank.zero (8192 * p.units)) } : State).takeBanks d c s.nextId 0 p.units 0).setPass
        (p.putTile { y with die := d, core := c, tmem := s.nextId, stage := 1, frags := [], block := 0 })).count d 0xB0 1))) ∧
  (∀ (s : State) (n k : Nat) (p : Pass) (y : TileSt), s.pass n = some p → p.tileAt k = some y →
    ((y.stage ≠ 1 ∨ s.rasterHalts y.die y.core = true) → exec (.visibilityResolve n k) s = .next s) ∧
    (y.stage = 1 → s.rasterHalts y.die y.core = false → y.segs = 0 → p.list k = [] → ∃ b t, exec (.visibilityResolve n k) s = .next t ∧
        t = (({ s with tmems := tabSet s.tmems y.tmem b, mxOld := t.mxOld } : State).setPass (p.putTile { y with stage := 2, frags := [] })) ∧
      b.size = 8192 * p.units ∧ b.pois = [] ∧ ∀ o, o < 8192 * p.units → defGet emptyByte b.bytes o =
        (let m := if p.samples4 then 4 else 1
         if 8192 * p.visPlane ≤ o ∧ o < 8192 * (p.visPlane + 2 * m) then 0xFF
         else if 8192 * p.depthPlane ≤ o ∧ o < 8192 * (p.depthPlane + 2 * m) then (leBytes 4 (storedDepth p.d24 p.clear.toNat).toNat).getD (o % 4) 0
         else 0))) ∧
  (∀ (z d : Word) (g : Bool), depthPasses true g z d = (if g then decide (d.toNat < z.toNat) else decide (z.toNat < d.toNat)) ∧
    (z.toNat ≤ 0x3F800000 → d.toNat ≤ 0x3F800000 → depthPasses false g z d = (if g then decide (d.toNat < z.toNat) else decide (z.toNat < d.toNat)))) ∧
  (∀ (s u : State) (n k i : Nat) (p : Pass) (y : TileSt) (f : Frag), s.pass n = some p → p.tileAt k = some y → (y.stage = 2 ∨ y.stage = 3) →
    s.rasterHalts y.die y.core = false → s.reserving y.die = false → s.agentActs y.die y.core = true → s.awake y.die y.core = true → y.frags[i]? = some f → f.launched = false → (∀ j g, j < i → y.frags[j]? = some g → g.launched = true) → p.fragK.teams = 1 → p.fragK.width ≤ 64 →
    let g := p.blockGrid s.nextId p.fragK (f.prim.run.getD 3 0 ++ f.prim.run.getD 2 0) (.fragment p.lseq k)
    ({ s with grids := s.grids ++ [g] } : State).admitBlock g 0 y.die y.core y.tmem = .ok u →
    ∃ t, exec (.fragmentLaunch n k) s = .next t ∧ t.blocks = u.blocks ∧
      t.passes = (u.setPass (p.putTile { y with stage := 3, frags := setAt y.frags i { f with launched := true, block := s.nextId } })).passes ∧
      ∃ w ∈ t.teams, w.block = s.nextId ∧ w.width = p.fragK.width ∧ w.frag = f.px ∧ w.fragRank = i ∧ w.spair 0 = g.args ∧
        (w.sreg 2).val = f.prim.run.getD 1 0 ∧ (w.sreg 3).val = BitVec.ofNat 32 (k % p.tw + k / p.tw * 65536) ∧
        ∀ l, l < w.width → (w.thread l).exited = decide (f.px.length ≤ l) ∧ (l < f.px.length →
          let px := (f.px.getD l (0, 0)).1
          (w.velem 0 l).val = BitVec.ofNat 32 px ∧ (w.velem 1 l).val = BitVec.ofNat 32 (f.px.getD l (0, 0)).2 ∧
          (w.velem 2 l).val = BitVec.ofNat 32 (64 * (k % p.tw) + px % 64) ∧ (w.velem 3 l).val = BitVec.ofNat 32 (64 * (k / p.tw) + px / 64))) ∧
  (∀ (s u : State) (n k : Nat) (p : Pass) (y : TileSt) (kd : KDesc), s.pass n = some p → p.tileAt k = some y → p.tileK = some kd →
    let g := p.blockGrid s.nextId kd p.tileArgs (.tileKernel p.lseq k)
    let s' : State := { s with grids := s.grids ++ [g] }
    ((p.final = false ∨ y.fragsDone = false) → exec (.tileKernelLaunch n k) s = .next s) ∧
    (p.final = true → y.fragsDone = true → s.reserving y.die = false → s.agentActs y.die y.core = true → s.awake y.die y.core = true → s'.admitBlock g 0 y.die y.core y.tmem = .ok u → ∃ t, exec (.tileKernelLaunch n k) s = .next t ∧ t.blocks = u.blocks ∧
      t.passes = (u.setPass (p.putTile { y with stage := 4, block := s.nextId })).passes ∧
      t.teams = u.teams.map (fun w => if w.block = s.nextId ∧ w.agent = false then
        w.setSreg 2 (Elem.ofWord (BitVec.ofNat 32 (k % p.tw + k / p.tw * 65536))) else w))) ∧
  (∀ (s u : State) (n k : Nat) (p : Pass) (y : TileSt) (b : Bank), s.pass n = some p → p.tileAt k = some y → tabGet s.tmems y.tmem = some b →
    ((p.flushing = false ∨ y.fragsDone = false ∨ s.rasterHalts y.die y.core = true) → exec (.tileSpill n k) s = .next s) ∧
    (p.flushing = true → y.fragsDone = true → s.rasterHalts y.die y.core = false → s.writeVirt y.die 0xFF p.proc false (p.spill.toNat + k * p.stride) (spillBytes b) = .ok u →
      exec (.tileSpill n k) s = .next ((({ u with tmems := tabDel u.tmems y.tmem } : State).freeBanks y.die y.core [y.tmem]).setPass
        (p.putTile { y with stage := 5, segs := y.segs + 1, tmem := 0, frags := [] })))) ∧
  (∀ (b : Bank) (units : Nat), b.size = 8192 * units → (spillBytes b).length = 8448 * units ∧
    ∀ o, o < b.size → defGet emptyByte (unspill units (spillBytes b)).bytes o = defGet emptyByte b.bytes o ∧
      defGet false (unspill units (spillBytes b)).pois (o / 4) = defGet false b.pois (o / 4)) ∧
  (∀ (s : State) (n k : Nat) (p : Pass) (y : TileSt), s.pass n = some p → p.tileAt k = some y →
    let q := p.putTile { y with stage := 6, tmem := 0 }
    let s' : State := (({ s with tmems := tabDel s.tmems y.tmem } : State).freeBanks y.die y.core [y.tmem]).count y.die (0x140 + 0x100 * y.core + 0xF8) 1
    let past := p.final = true ∧ (if p.tileK.isSome then y.stage = 4 ∧ s.block y.block = none else y.fragsDone = true)
    (¬ past → exec (.tileRetire n k) s = .next s) ∧
    (past → (∃ z ∈ q.tiles, z.stage ≠ 6) → exec (.tileRetire n k) s = .next (s'.setPass q)) ∧
    (past → (∀ z ∈ q.tiles, z.stage = 6) → exec (.tileRetire n k) s = .next { s' with passes := s.passes.filter (fun x => decide (x.lseq ≠ n)) }))

/-- Pre-emption, stops, single step, the handler limit and replay (R415 to R432). That a request waits on its core until no team of the block's
unit holds it back, and how a resume that faults goes on, are log entry 36; a stop's freeze and thaw log entry 37; what replay and rerun do
at faults, and the fourth word of a record, log entries 45 and 70: the model's readings. -/
def Obligations.PreemptionStopsAndSteps : Prop :=
  (∀ (s : State) (d c slot : Nat),
    let k := s.core d c
    let refused := s.setCore d c (k.setReg 0x114 (k.reg 0x114 ||| 0x100))
    (∀ b, s.blockIn d c slot = some b → b.run = .resident → s.asked b = false → s.unitOf b = [b] → exec (.preemptGo d c slot) s = .next
      ((s.setBlock { b with away := 0 }).setCore d c { k.setReg 0x114 (BitVec.ofNat 64 (2 ^ 31 + slot % 128)) with moving := k.moving ++ [b.id] })) ∧
    ((∀ b, s.blockIn d c slot = some b → b.run ≠ .resident ∨ s.asked b = true) → exec (.preemptGo d c slot) s = .next refused) ∧
    ((∀ b, s.blockIn d c slot = some b → b.run ≠ .away) → exec (.resumeGo d c slot) s = .next refused)) ∧
  (∀ (s : State) (d c : Nat), (∀ b ∈ s.blocksOn d c, b.run ≠ .saving ∧ (s.asked b = false ∨ ∃ t ∈ s.teamsOf b.id,
      t.run = .frozen ∨ t.pend.isSome = true ∨ ∃ f, t.frame = some f ∧ f.inHandler = true ∧ t.run = .running)) →
    exec (.preemptDone d c) s = .next s) ∧
  (∀ (s u v : State) (d c : Nat) (b : Block), (s.blocksOn d c).find? (fun x => s.asked x && s.leaving x) = some b → s.unitOf b = [b] → s.massOf b.grid = none →
    (∀ x ∈ s.blocksOn d c, x.run ≠ .saving) → (∀ x ∈ s.blocks, x.id = b.id → x = b) →
    let b' : Block := { b with run := .saving }
    let ids := (s.teamsOf b.id).map (fun t => t.id)
    (s.setBlock b').forTeams kindWrite (fun s t => s.saveTeam t) ids = .ok u →
    u.forTeams kindWrite (fun u t => u.writePieces t b.bsave.toNat (bsavePieces u b')) (ids.take 1) = .ok v →
    ∃ t, exec (.preemptDone d c) s = .next t ∧ t.mem = v.mem ∧ t.blocks = v.blocks.map (fun x => if x.id = b.id then
        { b with run := .away, hold := if v.banksBusy b.id then .held else .saved } else x) ∧
      (∀ w ∈ t.allTeams, w.block = b.id → w.agent = false → w.run ≠ .running) ∧ t.cores = (v.setCore d c ((v.core d c).leave [b.id])).cores) ∧
  (∀ (k : Core) (i : Nat), k.moving = [i] → k.leave [i] = { k.setReg 0x114 (k.reg 0x114 &&& 0x7FFFFFFF) with
    moving := [], waking := k.waking.filter (fun j => decide (j ≠ i)) }) ∧
  (∀ (s u : State) (t : Team), s.team t.id = some t → t.frame = none → s.saveTeam t = .ok u → ∃ f,
    u.team t.id = some (t.intoFrame f) ∧ f.cause = 0 ∧ f.flags = t.flags ∧ f.nrq = t.entries.length ∧ f.inHandler = false ∧ f.latch = t.latch ∧
    f.pcs = t.threads.map (fun th => th.pc)) ∧
  (∀ (s u : State) (b : Block) (g : Grid) (bs : List Byte), s.block b.id = some b → s.grid b.grid = some g →
    s.readOwn ((s.teamsOf b.id).headD Team.reset) b.bsave.toNat (bsaveSize g.kd) = .ok bs → s.unsave b = .ok u →
    ∃ c, u.block b.id = some c ∧ c.hold = .held ∧ (b.hold = .held → c.scratch = b.scratch) ∧
      (b.hold ≠ .held → ∀ o, o < b.scratch.size → defGet emptyByte c.scratch.bytes o = bs.getD (0x1400 + o) 0) ∧
      (∀ (k : Nat) (x : Barrier), b.bars[k]? = some x → ∃ y, c.bars[k]? = some y ∧ y.phase = BitVec.ofNat 32 (fieldAt bs (0x100 + 16 * k) 4) ∧
        y.arrivals = fieldAt bs (0x104 + 16 * k) 4 ∧ y.cps = fieldAt bs (0x10C + 16 * k) 4) ∧
      ∀ (k : Nat) (x : CopyTag), b.tags[k]? = some x → c.tags[k]? = some { x with done := (bs.getD (0x200 + 4 * k) 0).getLsbD 0, status := (bs.getD (0x200 + 4 * k) 0).toNat / 16 }) ∧
  (∀ (s r u v : State) (d c slot tb q : Nat) (b : Block) (t o : Team) (f : Frame), s.blockIn d c slot = some b → b.run = .away → s.teamsOf b.id = [t] →
    s.freeTags d c b.tags.length = some tb → s.banksBack b = true → placeTeams 1 t.width ((List.range 4).map (s.partLoad d c)) = some [q] →
    s.unsave b = .ok r → r.team t.id = some o → o.agent = false → o.run = .away → o.frame = some f →
    (r.setTeam { o with part := q }).resumeTeam { o with part := q } = .ok u →
    let y := u.setBlock { (u.block b.id).getD b with run := .resident, tb := tb, hold := .held, away := 0 }
    let z := if b.hold = .released then y.takeBanks b.die b.core b.id (y.banksOwn b).1 (y.banksOwn b).2.1 (y.banksOwn b).2.2 else y
    z.writePieces t b.bsave.toNat [(0x10, leBytes 4 (tb + b.tags.length * 2 ^ 8 + b.slot * 2 ^ 16))] = .ok v →
    let k := v.core d c
    ∃ x w, exec (.resumeGo d c slot) s = .next x ∧ x.team t.id = some w ∧ w.run = .running ∧ w.frame = none ∧ w.cls = 1 ∧ w.priv = o.priv ∧ w.part = q ∧
      x.teams = u.teams ∧ x.me = u.me ∧ x.mem = v.mem ∧ (∀ y ∈ x.blocks, y.id = b.id → y.run = .resident ∧ y.tb = tb) ∧
      x.cores = (v.setCore d c { k.setReg 0x114 (BitVec.ofNat 64 ((if k.moving = [] then 0 else 2 ^ 31) + slot % 128)) with
        waking := k.waking.filter (fun i => decide (i ≠ b.id)) }).cores) ∧
  (∀ (s : State) (d c slot tb va lv : Nat) (qs : List Nat) (b : Block), s.blockIn d c slot = some b → b.run = .away → s.freeTags d c b.tags.length = some tb →
    let ts := s.teamsOf b.id
    let t := ts.headD Team.reset
    let u := s.devFault d c t.proc va kindRead lv 0
    s.banksBack b = true → placeTeams ts.length t.width ((List.range 4).map (s.partLoad d c)) = some qs → s.bringBack b tb qs = .fault va lv →
    exec (.resumeGo d c slot) s = .next (u.setCore d c { u.core d c with
      waking := if b.id ∈ (u.core d c).waking then (u.core d c).waking else (u.core d c).waking ++ [b.id] })) ∧
  (∀ (s : State) (team : Nat) (t : Team) (f : Frame), s.team team = some t → t.frame = some f →
    let due := f.inHandler = true ∧ t.run = .running ∧ t.pend = none ∧ f.since.toNat + 2 ^ bitsN ((s.core t.die t.core).reg 0x115) 0 5 ≤ (s.die t.die).rclk.toNat
    (¬ due → exec (.handlerLimitExpire team) s = .next s) ∧
    (due → ∀ v, (s.checkOut team).writeVirt t.die t.core t.proc true (t.frameVa.toNat + 0x31) [255] = .ok v →
      let k := v.core t.die t.core
      ∃ u w l, exec (.handlerLimitExpire team) s = .next u ∧ u.team team = some w ∧ w = { t with
        entries := t.entries.take f.nrq, flags := (t.entries.drop f.nrq).foldl (fun fs e => decCounts fs e.fla e.flb) t.flags, run := .parked, pend := none,
        latch := w.latch, frame := some { f with nested := 255, inHandler := false, latch := l, unlatched := (w.frame.getD f).unlatched } } ∧
        u.core t.die t.core = k.setReg 0x111 (BitVec.ofNat 64 (((k.reg 0x111).toNat + 1) % 2 ^ 32)) ∧
        (ringOk ((v.die t.die).reg 0x240) ((v.die t.die).reg 0x241) = false → u.mem = v.mem))) ∧
  (∀ (s : State) (team : Nat) (t : Team) (m : StepMark), s.team team = some t →
    let drain := bit ((s.core t.die t.core).reg 0x502) 1
    let go := s.stepped t = true ∧ t.run = .running ∧ t.frame = none ∧ t.pend = none ∧ t.live ≠ 0 ∧ (∀ b, s.block t.block = some b → b.run = .resident) ∧
      (∀ e ∈ t.entries, some e.order = m.entry → e.dropped = true ∨ (drain = false ∧
        e.work ≠ .bin ∧ (∀ k g x, e.work ≠ .copy k g x) ∧ (∀ k d m, e.work ≠ .twait k d m) ∧ ∀ k, e.work ≠ .tileq k)) ∧
      (drain = true → (∀ k ∈ t.kids, some k.lseq ≠ m.kid) ∧ ∀ n b, m.tag = some n → s.block t.block = some b → (b.tags.getD n CopyTag.reset).busy = false)
    (t.stepAt = none → exec (.singleStep team) s = .next s) ∧ (t.stepAt = some m → ¬ go → exec (.singleStep team) s = .next s) ∧
    (t.stepAt = some m → go → s.me.id = team → (∀ u ∈ s.teams, u.id ≠ team) →
      exec (.singleStep team) s = .next (({ s with me := { t with stepAt := none } } : State).takeTrap
        { cause := 0x10, sub := 0, tpc := m.pc, thdr := m.hdr, lanes := m.mask, info := 0, faddr := 0, next := false }))) ∧
  (∀ (s : State) (d c : Nat),
    let k := s.core d c
    let late := (k.reg 0x118).toNat < (s.die d).rclk.toNat + 4096
    let hit := k.reg 0x119 = 1 ∧ (k.reg 0x118).toNat ≤ (s.die d).rclk.toNat
    exec (.pfsArm d c) s = .next (s.setCore d c (k.setReg 0x119 (if late then 5 else 1))) ∧
    (¬ hit → exec (.pfsHit d c) s = .next s) ∧ (hit → exec (.pfsHit d c) s = .next ((s.setCore d c (k.setReg 0x119 3)).freeze d c 0xF))) ∧
  (∀ (s : State) (d c : Nat) (pm : BitVec 4),
    let k := s.core d c
    let new := pm &&& ~~~ k.stopped
    let froze := fun (t : Team) => if t.die = d ∧ t.core = c ∧ new.getLsbD t.part = true ∧ (t.run = .running ∨ t.run = .parked)
      then { t with run := .frozen } else t
    ∃ t, exec (.dbgStopGo d c pm) s = .next t ∧ t = { s with me := froze s.me, teams := s.teams.map froze, cores := t.cores } ∧
      t.cores = (s.setCore d c { k with stopping := k.stopping ||| new }).cores) ∧
  (∀ (s u : State) (d c : Nat),
    let ts := s.allTeams.filter (fun t => decide (t.die = d ∧ t.core = c ∧ t.run = .frozen) && !t.agent && (s.core d c).stopping.getLsbD t.part)
    ((s.core d c).stopping = 0 → exec (.dbgStopDone d c) s = .next s) ∧
    ((s.core d c).stopping ≠ 0 → (∃ t ∈ ts, t.pend.isSome = true) → exec (.dbgStopDone d c) s = .next s) ∧
    ((s.core d c).stopping ≠ 0 → (∀ t ∈ ts, t.pend = none) → s.forTeams kindWrite (fun s t => s.saveTeam t) (ts.map (fun t => t.id)) = .ok u →
      exec (.dbgStopDone d c) s = .next (u.setCore d c { u.core d c with stopped := (u.core d c).stopped ||| (u.core d c).stopping, stopping := 0 }))) ∧
  (∀ (s : State) (d c : Nat) (pm : BitVec 4),
    let k := s.core d c
    let which := (pm ||| k.resuming) &&& k.stopped
    let ts := s.allTeams.filter (fun t => decide (t.die = d ∧ t.core = c ∧ t.run = .frozen) && which.getLsbD t.part)
    let off := fun (u : State) => u.setCore d c { u.core d c with stopped := (u.core d c).stopped &&& ~~~ which, resuming := 0 }
    (ts = [] → exec (.dbgStopResume d c pm) s = .next (off s)) ∧
    (∀ t, ts = [t] → s.team t.id = some t → t.agent = true → exec (.dbgStopResume d c pm) s = .next (off (s.setTeam { t with run := .running }))) ∧
    (∀ t f u, ts = [t] → s.team t.id = some t → t.agent = false → t.frame = some f → f.inHandler = true → s.reload t .running = .ok u →
      exec (.dbgStopResume d c pm) s = .next (off u) ∧
      ∃ w, u.team t.id = some w ∧ w.run = .running ∧ w.frame = t.frame ∧ w.priv = t.priv ∧ w.cls = t.cls ∧ w.entries = t.entries) ∧
    (∀ t va lv, ts = [t] → s.team t.id = some t → s.thaw t = .fault va lv → exec (.dbgStopResume d c pm) s =
      (let u := s.devFault t.die t.core t.proc va kindRead lv 0
       .next (u.setCore d c { u.core d c with resuming := which })))) ∧
  (∀ (s : State) (d c : Nat) (us : Nat → State),
    let ctl := (s.core d c).reg 0x503
    let n := bitsN ctl 16 24
    let p := match s.allTeams.find? (fun t => decide (t.die = d ∧ t.core = c) && !t.agent) with | some t => t.proc | none => 0
    let past := fun (s : State) => s.setCore d c ((s.core d c).setReg 0x503 ((s.core d c).reg 0x503 &&& 0xFFFFFFFFFFFFFFFB))
    (bit ctl 2 = false → exec (.erGo d c) s = .next s) ∧
    (bit ctl 2 = true → us 0 = s → (∀ i, i < n → (us i).replayOne d c p (bitsN ctl 40 24 + i) = .ok (us (i + 1))) → exec (.erGo d c) s = .next (past (us n)))) ∧
  (∀ (s : State) (d c off : Nat) (v : DWord), s.barReg off = .dbgCsr d c 0x503 →
    let k := s.core d c
    let old := k.reg 0x503
    let keep := v &&& 0xFFFFFFFFFFFF0001
    (bit v 1 = true → bit old 2 = false → exec (.registerWrite off v) s = .next (s.setCore d c (k.setReg 0x503 (keep ||| (if k.stopped = 0xF then 4 else 8))))) ∧
    ((bit v 1 = false ∨ bit old 2 = true) → exec (.registerWrite off v) s = .next (s.setCore d c (k.setReg 0x503 (keep ||| (old &&& 0xC)))))) ∧
  (∀ (s u v : State) (rs : List (Nat × Nat)) (h held : List Byte),
    let ctl := defGet 0 s.csr 0x580
    let p := bitsN ctl 32 16
    let base := (defGet 0 s.csr 0x581).toNat
    ((bit ctl 0 = false ∨ s.rerun.mode ≠ 0 ∨ s.runningPacket p = true) → exec .rrCap s = .next s) ∧
    (bit ctl 0 = true → s.rerun.mode = 0 → s.runningPacket p = false → s.rerunRanges p = .ok rs → s.fwRead 0 p base 32 = .ok h →
      s.rangeBytes p rs = .ok held → s.writeVirt 0 0xFF p true (fieldAt h 8 8) held = .ok u → u.writeVirt 0 0xFF p true base (List.replicate 8 0) = .ok v →
      exec .rrCap s = .next { v with rerun := { mode := 1, count := 0 } }) ∧
    (bit ctl 1 = true → bit ctl 0 = false → s.rerun.mode = 2 → s.runningPacket p = false →
      (∀ q ∈ s.queues, q.proc = p → ∀ k ∈ q.staged, k.started = true ∨ q.doneIx ≤ k.index) → s.rerunRanges p = .ok rs → s.fwRead 0 p base 32 = .ok h →
      (s.rerun.count = fieldAt h 0 8 → exec .rrRun s = .next
        { s with rerun := { mode := 3, count := 0 }, csr := defSet 0 s.csr 0x582 (defGet 0 s.csr 0x582 &&& 0xFFFFFFFFFFFFFFFE) }) ∧
      (∀ b q gs ps, s.rerun.count ≠ fieldAt h 0 8 → s.fwRead 0 p (fieldAt h 16 8 + 128 * s.rerun.count) 80 = .ok b →
        s.queue (fieldAt b 64 8) = some q → s.checkPacket q (.fresh (fieldAt b 72 8) (b.take 64)) = .ok (gs, ps) →
        ∃ t k, exec .rrRun s = .next t ∧ t.rerun = { mode := 2, count := s.rerun.count + 1 } ∧ t.nextLseq = s.nextLseq + gs.length + (if ps.isSome then 1 else 0) ∧
          t.mem = s.mem ∧ t.passes.length = s.passes.length + (if ps.isSome then 1 else 0) ∧
          k.index = fieldAt b 72 8 ∧ k.bytes = b.take 64 ∧ k.started = false ∧ k.plan.map (fun g => g.1.lseq) = (List.range gs.length).map (fun i => s.nextLseq + i) ∧
          t.queues = s.queues.map (fun x => if x.qid = q.qid then { q with staged := k :: q.staged } else x))))

/-- Reset, boot, the service ring and power-down (R388, R391 to R394). The places of slots and claim areas are the model's (log entry 15); so
are what memory reads after power-on (log entry 2), the order of the reasons 7 and 6 (log entry 16), and the details that the cited standards of
the digest and the signatures leave to it (log entry 69). -/
def Obligations.BootServicesAndPowerDown : Prop :=
  let hostPa := fun (pa : Nat) => 0x8000000000000 ≤ pa ∧ pa < 0xC000000000000
  let blank := fun (s t : State) => t.me = Team.reset ∧ t.teams = [] ∧ t.blocks = [] ∧ t.grids = [] ∧ t.queues = [] ∧ t.passes = [] ∧ t.jobs = [] ∧
    t.cores = [] ∧ t.dies = [] ∧ t.fmts = [] ∧ t.parts = [] ∧ t.fwSel = 0 ∧ t.present = s.present ∧ t.harvest = s.harvest ∧ t.memCfg = s.memCfg ∧
    t.devRead 0x400 = 0xA ∧ t.devRead 0x408 = 0 ∧ ∀ pa, (hostPa pa → t.homeByte pa = s.homeByte pa) ∧ (¬ hostPa pa → t.homeByte pa = emptyByte)
  let ended := fun (s : State) (a n : Nat) => ({ s.homePut (a + 0x18) 4 n with svcDone := (s.svcDone + 1) % 2 ^ 32 } : State)
  let serves := fun (i : Instr) (op : Nat → Bool) (does : State → Nat → Nat → State → Nat → Prop) =>
    (∀ s : State, s.nextService = none → exec i s = .next s) ∧
    (∀ (s : State) (a : Nat) (e : List Byte), s.nextService = some (a, e) →
      (op (fieldAt e 0 1) = false → exec i s = .next s) ∧
      (op (fieldAt e 0 1) = true → ∀ u n, does s (fieldAt e 8 8) (fieldAt e 16 8) u n → exec i s = .next (ended u a n)))
  (∀ s : State, Memory.wf s.mem = true → ∃ t, exec .powerOnReset s = .next t ∧ blank s t ∧ t.fuses = s.fuses ∧ t.tripped = false ∧ t.memFails = s.memFails ∧
    t.bootState = if s.hasDie 0 then (if s.memFails then 5 else 1) else 0) ∧
  (∀ (s : State) (cut : Bool), Memory.wf s.mem = true → ∃ t, exec (.fullPowerDown cut) s = .next t ∧ blank s t ∧ t.tripped = true ∧ t.bootState = 0 ∧ (cut = false → t.fuses = s.fuses)) ∧
  (∀ s : State, ((s.bootState = 1 ∨ s.bootState = 4) → exec .bootGo s = .next { s with bootState := 2, bootReason := 0 }) ∧
    (s.bootState ≠ 1 → s.bootState ≠ 4 → exec .bootGo s = .next s)) ∧
  (∀ s : State,
    let n := s.bootLen.toNat
    let m := s.bytesAt .home (0x8000000000000 + s.bootSrc.toNat) n
    let held := s.homeWrite 0 m
    (s.bootState ≠ 2 → exec .bootImageLoaded s = .next s) ∧
    (s.bootState = 2 → s.bootSrc.toNat % 128 ≠ 0 → exec .bootImageLoaded s = .next { s with bootState := 4, bootReason := 7 }) ∧
    (s.bootState = 2 → s.bootSrc.toNat % 128 = 0 → 2 ^ 50 ≤ s.bootSrc.toNat + n → exec .bootImageLoaded s = .next { s with bootState := 4, bootReason := 6 }) ∧
    (s.bootState = 2 → s.bootSrc.toNat % 128 = 0 → s.bootSrc.toNat + n < 2 ^ 50 →
      (held.checkImage m ≠ 0 → exec .bootImageLoaded s = .next { held with bootState := 4, bootReason := held.checkImage m }) ∧
      (held.checkImage m = 0 → ∃ t, exec .bootImageLoaded s = .next t ∧ t.bootState = 3 ∧ t.bootReason = s.bootReason ∧
        t.fwSel = BitVec.ofNat 64 (fieldAt m 8 8 * 2) ∧ ∀ d c, s.enabled d c = true → ∃ w ∈ t.teams, w.agent = true ∧ w.die = d ∧ w.core = c ∧
          w.priv = true ∧ w.width = 8 ∧ w.cls = 0 ∧ w.image = BitVec.ofNat 64 (agentImage d c) ∧ ∀ l, l < 8 → (w.thread l).pc = BitVec.ofNat 57 (fieldAt m 0x10 4 + fieldAt m 0x18 4)))) ∧
  (∀ (s : State) (m : List Byte), s.checkImage m = 0 → fieldAt m 0 4 = 0x57465641 ∧ fieldAt m 4 4 = 1 ∧ s.floor.toNat ≤ fieldAt m 8 8 ∧
    m.length = fieldAt m 0x1C 4 + 5357 ∧ fieldAt m 0x18 4 < fieldAt m 0x14 4 ∧ fieldAt m 0x10 4 + fieldAt m 0x14 4 ≤ fieldAt m 0x1C 4 ∧
    (let t := trailerOf m (fieldAt m 0x1C 4)
     let signed := m.take (fieldAt m 0x1C 4)
     sha384 (t.1 ++ t.2.1) = Config.keyDigest ∧ edVerify t.1 signed t.2.2.1 = true ∧ mlVerify t.2.1 signed t.2.2.2 = true)) ∧
  (∀ (s : State) (m : List Byte) (n : Nat), n = fieldAt m 0x1C 4 → fieldAt m 0 4 = 0x57465641 → fieldAt m 4 4 = 1 → fieldAt m 0x10 4 % 128 = 0 →
    fieldAt m 0x18 4 % 8 = 0 → fieldAt m 0x18 4 < fieldAt m 0x14 4 → n % 128 = 0 → fieldAt m 0x10 4 + fieldAt m 0x14 4 ≤ n → 128 ≤ n → zeroFrom m 0x20 0x80 = true →
    m.length = n + 5357 →
    let t := trailerOf m n
    let bad := fun (k : Nat) => if k = 2 then sha384 (t.1 ++ t.2.1) ≠ Config.keyDigest else if k = 3 then edVerify t.1 (m.take n) t.2.2.1 = false
      else if k = 4 then mlVerify t.2.1 (m.take n) t.2.2.2 = false else fieldAt m 8 8 < s.floor.toNat
    (∀ k, 2 ≤ k → k ≤ 5 → bad k → (∀ j, 2 ≤ j → j < k → ¬ bad j) → s.checkImage m = k) ∧ ((∀ k, 2 ≤ k → k ≤ 5 → ¬ bad k) → s.checkImage m = 0)) ∧
  serves .svcBadOp (fun n => n = 0 || decide (5 < n)) (fun s _ _ u n => u = s ∧ n = 2) ∧
  serves .createQueue (fun n => decide (n = 1)) (fun s pa _ u n =>
    let q := fieldAt (s.bytesAt .home pa 64) 0x18 8
    ((pa % 256 ≠ 0 ∨ s.firmwareReach pa 256 = false ∨ (s.queue q).isSome = true ∨ 4095 < q) ∧ u = s ∧ n = 2) ∨
    (s.createQueue (BitVec.ofNat 64 pa) 0 = (u, 1) ∧ n = 1)) ∧
  (∀ (s u : State) (pa : DWord), s.createQueue pa 0 = (u, 1) → ∃ q, u.queues = s.queues ++ [q] ∧ s.queue q.qid = none ∧ q.qcb = pa.toNat ∧ q.state = 0 ∧
    q.wi = 0 ∧ q.claim = 0 ∧ q.read = 0 ∧ q.doneIx = 0 ∧ q.staged = [] ∧ q.qid ≤ 4095 ∧ 4 ≤ q.log2 ∧ q.log2 ≤ 20 ∧ s.hasDie q.home = true ∧
    q.ring.toNat = fieldAt (s.bytesAt .home pa.toNat 64) 8 8 ∧ q.ring.toNat % 4096 = 0) ∧
  serves .destroyQueue (fun n => decide (n = 2)) (fun s qid _ u n => (s.queue qid = none ∧ u = s ∧ n = 2) ∨
    (∃ q, s.queue qid = some q ∧ ((q.state ≠ 2 ∧ q.state ≠ 3 ∧ u = s ∧ n = 3) ∨
      ((q.state = 2 ∨ q.state = 3) ∧ u = { s with queues := s.queues.filter (fun x => decide (x.qid ≠ qid)) } ∧ n = 1)))) ∧
  serves .setFmt (fun n => decide (n = 3)) (fun s k pa u n =>
    let b := s.bytesAt .home pa 64
    ((32 ≤ k ∨ s.firmwareReach pa 64 = false ∨ parseFmt b = none) ∧ u = s ∧ n = 2) ∨ (∃ r, k < 32 ∧ s.firmwareReach pa 64 = true ∧ parseFmt b = some r ∧ u = { s with fmts := defSet FmtRange.off s.fmts k r } ∧ n = 1)) ∧
  (∀ (b : List Byte) (r : FmtRange), parseFmt b = some r → r.en = true → r.base % 65536 = 0 ∧ r.size % 65536 = 0 ∧ r.size ≠ 0 ∧ r.format ≤ 6 ∧
    (r.format ≤ 2 → r.sepsc = false) ∧ r.store % 32 = 0 ∧ (r.sepsc = false → r.scale = 0)) ∧
  serves .fwUpdate (fun n => decide (n = 4)) (fun s pa len u n =>
    let m := s.bytesAt .home pa len
    let slot := 1 - s.fwSel.toNat % 2
    let held := s.homeWrite (slot * 0x4000000) m
    let good := held.checkImage m = 0 ∧ s.fwSel.toNat / 2 < fieldAt m 8 8
    let reach := s.firmwareReach pa (max 1 len) = true
    (¬ reach ∧ u = s ∧ n = 4) ∨ (reach ∧ ¬ good ∧ u = held ∧ n = 4) ∨ (reach ∧ good ∧ n = 1 ∧ u = { held with fwSel := BitVec.ofNat 64 (fieldAt m 8 8 * 2 + slot), fwEntry := u.fwEntry } ∧
      u.fwEntry = BitVec.ofNat 64 (slot * 0x4000000 + fieldAt m 0x10 4 + fieldAt m 0x18 4))) ∧
  serves .advanceRollback (fun n => decide (n = 5)) (fun s _ _ u n =>
    let seq := s.fwSel.toNat / 2
    (seq ≤ s.floor.toNat ∧ u = s ∧ n = 2) ∨ (s.floor.toNat < seq ∧ 16 ≤ s.fuses.length ∧ u = s ∧ n = 4) ∨
    (s.floor.toNat < seq ∧ s.fuses.length < 16 ∧ u = { s with fuses := s.fuses ++ [(BitVec.ofNat 64 seq, BitVec.ofNat 64 seq)] } ∧ n = 1))

/-- Queues from the doorbell to completion (R361 to R384). That an agent which tries OWNER again is taken to hold the queue is log entry 63, what
a mass start holds and its 4096 counts log entry 51, the order of a packet's reads and the run of agents log entries 33 and 37: the model's. -/
def Obligations.QueuesServedInOrder : Prop :=
  let drops := fun (i : Instr) (qid : Nat) => ∀ s : State, (s.bootState ≠ 3 ∨ s.queue qid = none) → exec i s = .next s
  let starts := fun (i : Nat → Instr) (ok : Nat → Bool) =>
    (∀ (s : State) (qid : Nat) (q : Queue), s.queue qid = some q → (q.state = 2 ∨ q.resetting = true ∨ s.dieActs q.home = false ∨ q.head = none) → exec (i qid) s = .next s) ∧
    (∀ (s : State) (qid : Nat) (q : Queue) (p : Packet), s.queue qid = some q → q.state ≠ 2 → q.resetting = false → s.dieActs q.home = true → q.head = some p →
      (ok p.type = false → exec (i qid) s = .next s) ∧
      (s.rerunHolds q p = true → exec (i qid) s = .next s) ∧
      (ok p.type = true → s.rerunHolds q p = false →
        (s.canStart q p = .ok false → exec (i qid) s = .next s) ∧
        (∀ u p' v r, s.canStart q p = .ok true → s.beginWork q p = .ok u p' →
          let q' := { q.put { p' with started := true } with read := max q.read (p'.index + 1) }
          u.rerunLog q' p' = .ok v r → exec (i qid) s = .next (v.flipQcb q'))))
  (∀ q v, drops (.doorbellWrite q v) q) ∧ (∀ q, drops (.doorbellStop q) q ∧ drops (.doorbellGo q) q ∧ drops (.doorbellReset q) q) ∧
  (∀ (s : State) (qid : Nat) (q : Queue), s.bootState = 3 → s.queue qid = some q →
    (∀ v : DWord, v.toNat < 2 ^ 63 →
      (q.state = 2 → exec (.doorbellWrite qid v) s = .next s) ∧
      (q.state ≠ 2 → (v.toNat < q.wi ∨ q.read + 2 ^ q.log2 < v.toNat) → exec (.doorbellWrite qid v) s = .next (s.contain q.proc 5 (some (q.qid, q.wi)))) ∧
      (q.state ≠ 2 → q.state ≠ 3 → q.wi ≤ v.toNat → v.toNat ≤ q.read + 2 ^ q.log2 → exec (.doorbellWrite qid v) s = .next (s.ring { q with wi := v.toNat })) ∧
      (q.state = 3 → q.wi ≤ v.toNat → v.toNat ≤ q.read + 2 ^ q.log2 → ∃ u q', u = s.flipQcb { q with wi := v.toNat, state := 0, err := 0, errIx := 0 } ∧
        u.queue qid = some q' ∧ exec (.doorbellWrite qid v) s = .next (u.ring q'))) ∧
    (q.state ≠ 2 → exec (.doorbellStop qid) s = .next (s.flipQcb { q with state := 1 })) ∧ (q.state = 2 → exec (.doorbellStop qid) s = .next s) ∧
    (q.state = 1 → exec (.doorbellGo qid) s = .next (s.flipQcb { q with state := 0 })) ∧
    (q.state ≠ 1 → exec (.doorbellGo qid) s = .next s) ∧
    (∃ t, exec (.doorbellReset qid) s = .next t ∧ t.queues = s.queues.map (fun x => if x.qid = q.qid then { q with resetting := true, staged := [] } else x) ∧
      t.mem = s.mem ∧ ∀ j ∈ t.jobs, j.block ≠ 0 ∨ j.qid ≠ q.qid)) ∧
  (∀ (s : State) (qid : Nat) (q : Queue), s.queue qid = some q → ((q.resetting = false ∨ s.endedShare q.proc = true ∨ s.flushHeld q.proc = true) → exec (.resetDone qid) s = .next s) ∧
    (q.resetting = true → s.endedShare q.proc = false → s.flushHeld q.proc = false → exec (.resetDone qid) s = .next (s.publishAll.flipQcb { q with resetting := false, read := q.wi, doneIx := q.wi, claim := q.wi, state := 3 }))) ∧
  (∀ (s : State) (q : Queue), s.tidy = true →
    let base := ((s.die q.home).reg 0x200).toNat
    let n := base + 0x80 + 16 * ((s.die q.home).arrivals % 4096)
    let a := base + 0x10080 + 32 * q.qid
    let put := fun (u : State) (k : Nat) => ((((u.homePut a 8 q.wi).homePut (a + 8) 8 q.claim).homePut (a + 16) 4 (s.owner q)).homePut (a + 20) 4 k).mem
    (q.pend = false → (s.ring q).queues = s.queues.map (fun x => if x.qid = q.qid then { q with pend := true } else x) ∧
      (s.ring q).mem = put ((s.homePut (n + 8) 8 q.qid).homePut n 8 (((s.die q.home).arrivals + 1) % 2 ^ 64)) 1 ∧
      ((s.ring q).die q.home).arrivals = (s.die q.home).arrivals + 1) ∧
    (q.pend = true → (s.ring q).queues = s.queues.map (fun x => if x.qid = q.qid then q else x) ∧ (s.ring q).mem = put s 1)) ∧
  (∀ (s : State) (d c : Nat),
    let k := s.core d c
    let at_ := fun (n : Nat) => ((s.die d).reg 0x200).toNat + 0x80 + 16 * (n % 4096)
    let up := s.bootState = 3 ∧ s.enabled d c = true ∧ s.agentActs d c = true
    (¬ up → exec (.claimEntry d c) s = .next s) ∧
    (up → ∀ qid, k.serving = some qid → exec (.claimEntry d c) s = .next (s.serve d c qid)) ∧
    (up → k.serving = none → ∀ n, k.ticket = some n →
      let u := s.setCore d c { k with ticket := none }
      (s.homeNum (at_ n) 8 ≠ n + 1 → exec (.claimEntry d c) s = .next s) ∧
      (s.homeNum (at_ n) 8 = n + 1 → s.queue (s.homeNum (at_ n + 8) 8) = none → exec (.claimEntry d c) s = .next u) ∧
      (∀ q, s.homeNum (at_ n) 8 = n + 1 → s.queue (s.homeNum (at_ n + 8) 8) = some q →
        let v := (u.setQueue { q with pend := false }).putQst { q with pend := false }
        (v.owner q ≠ 0 → exec (.claimEntry d c) s = .next v) ∧
        (v.owner q = 0 → exec (.claimEntry d c) s =
          .next (((v.setCore d c { v.core d c with serving := some q.qid }).putQst { q with pend := false }).serve d c q.qid)))) ∧
    (up → k.serving = none → k.ticket = none → k.dead = true → exec (.claimEntry d c) s = .next s) ∧
    (up → k.serving = none → k.ticket = none → k.dead = false →
      let base := ((s.die d).reg 0x200).toNat
      let n := s.homeNum base 8
      let u := (s.homePut base 8 (n + 1)).setCore d c { (s.homePut base 8 (n + 1)).core d c with ticket := some n }
      s.tidy = true → exec (.claimEntry d c) u = exec (.claimEntry d c) s)) ∧
  (∀ (s : State) (d c qid : Nat) (q : Queue),
    let left := fun (u : State) (x : Queue) => ((u.setCore d c { u.core d c with serving := none }).putQst x).leaveLoop d c
    (s.queue qid = none → s.serve d c qid = (s.setCore d c { s.core d c with serving := none }).leaveLoop d c) ∧
    (s.queue qid = some q → q.wi ≤ q.claim → s.serve d c qid = left s q) ∧
    (s.queue qid = some q → q.claim < q.wi → (q.state ≠ 0 ∨ q.resetting = true) → s.serve d c qid = s) ∧
    (∀ u q', s.queue qid = some q → q.state = 0 → q.resetting = false → q.wi = q.claim + 1 → s.claimOne q = some u → u.queue qid = some q' →
      (q'.wi ≤ q'.claim → s.serve d c qid = left u q') ∧ (q'.claim < q'.wi → s.serve d c qid = u)) ∧
    (s.tidy = true → (s.leaveLoop d c).core d c = { s.core d c with image := s.fwSel }) ∧
    ((s.core d c).image ≠ s.fwSel → ∀ w ∈ (s.leaveLoop d c).teams, w.agent = true → w.die = d → w.core = c → ∀ th ∈ w.threads, th.pc = bits s.fwEntry 0 57)) ∧
  (∀ (s : State) (q : Queue) (bs : List Byte), s.fwRead q.home q.proc (q.ring.toNat + 64 * (q.claim % 2 ^ q.log2)) 64 = .ok bs →
    let p : Packet := .fresh q.claim bs
    (∀ n, s.checkPacket q p = .err n → s.claimOne q = some (s.contain q.proc n (some (q.qid, q.claim)))) ∧
    (9 ≤ fieldAt bs 0 1 → s.checkPacket q p = .err 1) ∧
    (∀ gs, s.checkPacket q p = .ok (gs, none) → ∃ u k q', s.claimOne q = some u ∧ u.nextLseq = s.nextLseq + gs.length ∧ k.index = q.claim ∧ k.bytes = bs ∧
      k.started = false ∧ k.plan.map (fun g => g.1.lseq) = (List.range gs.length).map (fun i => s.nextLseq + i) ∧
      u.queues = s.queues.map (fun x => if x.qid = q.qid then q' else x) ∧ q'.claim = q.claim + 1 ∧ q'.staged = q.staged ++ [k] ∧ q'.state = q.state ∧
      q'.read = q.read)) ∧
  (∀ (s : State) (q : Queue) (p : Packet),
    (p.type = 0 ∨ p.type = 6 ∨ p.type = 7 → s.beginWork q p = .ok s p) ∧ (s.rerun.mode ≠ 1 → s.rerunLog q p = .ok s p) ∧
    (p.type = 5 → ∀ (v : Int) (u : State), s.signal q (p.q 0x18) = .ok v →
      s.putSignal q (p.q 0x18) (if p.q 0x28 = 0 then (p.q 0x20).toInt else if p.q 0x28 = 1 then v + (p.q 0x20).toInt else v - (p.q 0x20).toInt) = .ok u →
      s.beginWork q p = .ok u p) ∧
    (p.type = 8 → ∀ u, s.writeVirt q.home 0xFF q.proc true (p.q 0x18).toNat (leBytes 8 (s.die q.home).rclk.toNat ++ leBytes 8 (p.q 0x20).toNat) = .ok u →
      s.beginWork q p = .ok u { p with clock := (s.die q.home).rclk }) ∧
    (p.type = 4 → bitsN (p.q 0x18) 0 2 = 0 → ∃ j, s.beginWork q p = .ok { s with nextId := s.nextId + 1, jobs := s.jobs ++ [j] } { p with job := s.nextId } ∧
      j.id = s.nextId ∧ j.proc = q.proc ∧ j.die = bitsN (p.q 0x18) 4 3 ∧ j.form = 0 ∧ j.src = p.q 0x20 ∧ j.dst = p.q 0x28 ∧ j.len = fieldAt p.bytes 0x30 4 ∧ j.block = 0) ∧
    (p.type = 2 → (∃ g ∈ p.plan, g.1.isEmpty = false) → s.beginWork q p = .ok s { p with stage := 1, mass := (p.q 0x38).toNat }) ∧
    (p.type = 2 → (∀ g ∈ p.plan, g.1.isEmpty = true) → s.beginWork q p = .ok s { p with stage := 3, mass := (p.q 0x38).toNat }) ∧
    (∀ g, p.type = 1 → p.plan = [g] → g.1.isEmpty = false → ∃ u, s.beginWork q p = .ok u p ∧ u.grids = s.grids ++ [{ g.1 with left := g.1.units * g.1.kd.cluster }]) ∧
    (p.flag 8 = true → q.doneBelow p.index = false → s.canStart q p = .ok false) ∧
    (p.type = 0 → p.flag 8 = false → p.q 8 = 0 → s.canStart q p = .ok true) ∧
    (∀ v, p.type = 0 → p.flag 8 = false → p.q 8 ≠ 0 → s.signal q (p.q 8) = .ok v → s.canStart q p = .ok (decide (v ≤ 0))) ∧
    (∀ v, p.type = 6 → p.flag 8 = false → p.q 8 = 0 → s.signal q (p.q 0x18) = .ok v → s.canStart q p = .ok
      (if p.q 0x28 = 0 then decide (v = (p.q 0x20).toInt) else if p.q 0x28 = 1 then decide (v ≠ (p.q 0x20).toInt)
       else if p.q 0x28 = 2 then decide (v < (p.q 0x20).toInt) else decide ((p.q 0x20).toInt ≤ v)))) ∧
  starts .depReevaluate (fun n => decide (n < 9)) ∧ starts .packetNop (fun n => decide (n = 0)) ∧ starts .packetKernel (fun n => decide (n = 1)) ∧
  starts .packetMass (fun n => decide (n = 2)) ∧ starts .packetRender (fun n => decide (n = 3)) ∧ starts .packetTransform (fun n => decide (n = 4)) ∧
  starts .packetSignal (fun n => decide (n = 5)) ∧ starts .packetWait (fun n => decide (n = 6)) ∧ starts .packetBarrierAnd (fun n => decide (n = 7)) ∧
  starts .packetMarker (fun n => decide (n = 8)) ∧
  (∀ (s u : State) (qid ix : Nat) (q : Queue) (p : Packet) (g : Grid) (pl : Place), s.massAt qid ix 1 = some (q, p) → p.plan = [(g, pl)] →
    let now := (s.die q.home).rclk.toNat
    let start := if p.mass = 0 then now + 4096 else p.mass
    let h := { g with left := g.units * g.kd.cluster, start := start }
    ((s.massBefore g.lseq = true ∨ start < now + 1024) → exec (.massReserved qid ix) s = .next s) ∧
    (s.massBefore g.lseq = false → now + 1024 ≤ start → ({ s with grids := s.grids ++ [h] } : State).admitGang h pl g.units 0 [] = .ok u →
      exec (.massReserved qid ix) s = .next (u.setQueue (q.put { p with stage := 2, mass := start }))) ∧
    (p.mass ≠ 0 → p.mass < now + 1024 → exec (.massCommitDeadline qid ix) s = .next (s.setQueue (q.put { p with mass := p.mass + 2 ^ 20 }))) ∧
    ((p.mass = 0 ∨ now + 1024 ≤ p.mass) → exec (.massCommitDeadline qid ix) s = .next s)) ∧
  (∀ (s : State) (qid ix : Nat) (q : Queue) (p : Packet), s.massAt qid ix 2 = some (q, p) →
    ((s.die q.home).rclk.toNat < p.mass → exec (.massStart qid ix) s = .next s) ∧
    (p.mass ≤ (s.die q.home).rclk.toNat → exec (.massStart qid ix) s = .next (s.setQueue (q.put { p with stage := 3 })))) ∧
  (∀ (s : State) (qid ix : Nat) (q : Queue) (p : Packet), s.massAt qid ix 1 = none → s.massAt qid ix 4 = some (q, p) →
    let mine := fun (b : Block) => p.plan.any (fun g => decide (g.1.lseq = b.grid))
    let at_ := (s.die q.home).rclk.toNat + 4096
    ((∃ b ∈ s.blocks, mine b = true ∧ b.run ≠ .resident) → exec (.massReserved qid ix) s = .next s) ∧
    ((∀ b ∈ s.blocks, mine b = true → b.run = .resident) → ∃ t, exec (.massReserved qid ix) s = .next t ∧ t.mem = s.mem ∧
      t.queues = (s.setQueue (q.put { p with stage := 2, mass := at_ })).queues ∧
      t.grids = s.grids.map (fun g => if p.plan.any (fun x => decide (x.1.lseq = g.lseq)) then { g with start := at_ } else g))) ∧
  (∀ (s : State) (qid ix : Nat) (q : Queue) (p : Packet), s.queue qid = some q → q.staged.find? (fun k => decide (k.index = ix)) = some p →
    (s.workEnded q p = false → exec (.packetComplete qid ix) s = .next s) ∧
    (s.workEnded q p = true → s.rerun.mode = 0 → p.q 16 = 0 → ∃ u q', exec (.packetComplete qid ix) s = .next u ∧
      u.queues = s.queues.map (fun x => if x.qid = q.qid then q' else x) ∧ q'.seq = q.seq + 1 ∧
      ((∀ k ∈ q.staged, q.doneIx ≤ k.index) → q'.doneIx + q'.staged.length = q.doneIx + q.staged.length) ∧ q.doneIx ≤ q'.doneIx ∧
      u.irqs = s.irqs ++ (if p.flag 11 then [q.vec] else []) ∧ u.mem = (s.publishAll.flipQcb { q' with seq := q.seq }).mem)) ∧
  (∀ (s : State) (proc err : Nat) (at_ : Option (Nat × Nat)),
    let u := s.contain proc err at_
    (∀ q ∈ u.queues, q.proc = proc → q.state = 2 ∧ q.staged = []) ∧ (∀ g ∈ u.grids, g.proc ≠ proc) ∧ (∀ j ∈ u.jobs, j.proc ≠ proc) ∧
    (∀ p ∈ u.passes, p.proc ≠ proc) ∧ (∀ r ∈ u.reds, r.proc ≠ proc) ∧
    ∀ x ∈ u.dies, ∀ c ∈ x.2.ctls, ∀ h ∈ c.held, h.proc ≠ proc)

/-- Watchdog, splits, error protection, power and thermal events (R386, R439, R447 to R456). The model's readings in it: SEV 2 of the events without one
of their own and a ring of base 0 (log entry 38), how a header error parks (log entry 47), the conditions of S1 and S2 (log entry 48), the record's
counters (log entry 49), what a restarted agent stands at (log entry 63). -/
def Obligations.ErrorsPowerAndWatchdog : Prop :=
  (∀ (s : State) (d c : Nat),
    let k := s.core d c
    let now := (s.die d).rclk.toNat
    let recent := k.restarts.filter (fun r => decide (now < r + 2 ^ 30))
    let due := s.bootState = 3 ∧ s.enabled d c = true ∧ (∃ t ∈ s.allTeams, t.agent = true ∧ t.die = d ∧ t.core = c) ∧ k.dead = false ∧ k.lastKick + 2 ^ bitsN (k.reg 0x10A) 0 5 < now
    let anew := fun (t u : Team) => if t.agent = true ∧ t.die = d ∧ t.core = c then u.id = t.id ∧ u.image = t.image ∧ u.agent = true ∧ u.die = d ∧ u.core = c ∧ u.priv = true ∧
      u.width = 8 ∧ u.run = t.run ∧ u.entries = [] ∧ u.frame = none ∧ (∀ l, l < 8 → (u.thread l).pc = bits s.fwEntry 0 57) else u = t
    (k.dead = false → s.agentActs d c = true → exec (.wdogKick d c) s = .next (s.setCore d c { k with lastKick := now })) ∧
    ((k.dead = true ∨ s.agentActs d c = false) → exec (.wdogKick d c) s = .next s) ∧ (¬ due → exec (.wdogExpire d c) s = .next s) ∧
    (due → ∃ t w, exec (.wdogExpire d c) s = .next t ∧ anew s.me t.me ∧ t.teams.length = s.teams.length ∧
      (∀ (i : Nat) (x y : Team), s.teams[i]? = some x → t.teams[i]? = some y → anew x y) ∧ bitsN w 16 8 = min (bitsN (k.reg 0x10A) 16 8 + 1) 255 ∧
      bitsN w 0 5 = bitsN (k.reg 0x10A) 0 5 ∧ (recent.length < 3 → t.mem = s.mem ∧
        t.cores = (s.setCore d c { k.setReg 0x10A w with restarts := recent ++ [now], dead := false, lastKick := now, image := s.fwSel, ticket := none }).cores))) ∧
  (∀ s : State, let now := (s.die 0).rclk.toNat
    (∃ w, exec .splCtlApply s = .next { s with csr := defSet 0 s.csr 0x400 (w.setWidth 64), splNext := s.splNext.filter (fun p => decide (now < p.2)) } ∧
      (∀ xs v n ys, s.splNext = xs ++ (v, n) :: ys → n ≤ now → (∀ y ∈ ys, now < y.2) → w = v) ∧
      ((∀ y ∈ s.splNext, now < y.2) → w = (defGet 0 s.csr 0x400).setWidth 32)) ∧
    ∀ (off : Nat) (v : DWord), s.barReg off = .dieCsr 0 0x400 → ∃ x : Word,
      exec (.registerWrite off v) s = .next { s with splNext := s.splNext ++ [(x, ceilDiv (now + 2 ^ 20) (2 ^ 24) * 2 ^ 24)] } ∧ bit x 31 = bit v 31 ∧ bitsN x 5 26 = 0 ∧
      bitsN x 0 5 = if 10 ≤ bitsN v 0 5 ∧ bitsN v 0 5 ≤ 24 then bitsN v 0 5 else bitsN s.splLast 0 5) ∧
  (∀ (s : State) (old new t : Nat), 10 ≤ bitsN (s.splAt t) 0 5 →
    (t ∈ s.ticksDue old new ↔ old ≤ t ∧ t < new ∧ bit (s.splAt t) 31 = true ∧ t % 2 ^ bitsN (s.splAt t) 0 5 = 0)) ∧
  (∀ (s : State) (d : Nat), (s.die d).latched = [] → exec (.splitsTick d) s = .next s) ∧
  (∀ (s : State) (d t k b : Nat) (cs : List (Nat × DWord)) (rest : List (Nat × Nat × Nat × List (Nat × DWord))), s.tidy = true → (s.die d).latched = (t, k, b, cs) :: rest →
    let y := { s.die d with latched := rest }
    let s1 := s.setDie d y
    let full := (y.reg 0x249).toNat ≤ ringFill (y.reg 0x24A) (y.reg 0x24B) ∨ y.reg 0x248 = 0
    let wi := ((y.reg 0x24A).toNat + 1) % 2 ^ 32
    (full → exec (.splitsTick d) s = .next (s1.setDie d (y.setReg 0x24C (BitVec.ofNat 64 (min ((y.reg 0x24C).toNat + 1) (2 ^ 32 - 1)))))) ∧
    (¬ full → ∃ u ws, exec (.splitsTick d) s = .next (u.setDie d ((u.die d).setReg 0x24A (BitVec.ofNat 64 wi))) ∧ ws.length = 0x500 ∧
      u = s1.homeWords ((y.reg 0x248).toNat + 0x2800 * ((y.reg 0x24A).toNat % (y.reg 0x249).toNat)) ws ∧
      ws[0]? = some t ∧ ws[1]? = some wi ∧ ws[2]? = some (d + k * 2 ^ 8) ∧ ws[0x14]? = some b ∧
      (∀ i, 3 ≤ i → i < 0x500 → i < 8 ∨ 0x17 ≤ i ∧ i < 0x28 ∨ 0x4A8 ≤ i → ws[i]? = some 0) ∧
      (∀ j, j < 4 → (s.neighbours d).length ≤ j → ws[0xE + j]? = some 0) ∧
      (∀ i, 8 ≤ i → i < 0x28 → countedOffset (8 * i) = true → ws[i]? = some (defGet 0 cs (8 * i)).toNat) ∧
      (∀ i, 0x28 ≤ i → i < 0x4A8 → (s.enabled d ((8 * i - 0x140) / 0x100) = false → ws[i]? = some 0) ∧
        (s.enabled d ((8 * i - 0x140) / 0x100) = true → countedOffset (8 * i) = true → ws[i]? = some (defGet 0 cs (8 * i)).toNat)) ∧
      ∀ c q, c < 36 → q < 4 → s.enabled d c = true → ∃ m n, ws[0x28 + 0x20 * c + 6 * q]? = some m ∧ ws[0x28 + 0x20 * c + 6 * q + 5]? = some n ∧
        m + n = (defGet 0 cs (0x140 + 0x100 * c + 48 * q)).toNat)) ∧
  (∀ (s : State) (d c n b : Nat),
    let noted := fun (site : EccSite) (kind addr core : Nat) => exec (.eccCorrected d site) s = .next (s.recordError d kind addr core 0)
    noted (.l1 c n) 1 (n * 128) c ∧ noted (.scratch c b n) 1 0 c ∧ noted (.tile c b n) 1 0 c ∧ noted (.vreg c b n 0) 2 0 c ∧ noted (.sreg c b n) 2 0 c ∧
    noted (.header c b) 2 0 c ∧ noted (.accum c b n 0) 3 0 c ∧ noted (.dieCache n) 4 (n * 128) 0xFF ∧ noted (.hbm n) 5 (n * 128) 0xFF ∧
    noted (.capacity n) 6 (n * 128) 0xFF ∧ exec (.patrolScrub d n) s = .next s) ∧
  (∀ (s : State) (d c n r l : Nat) (t : Team) (b : Block), s.team t.id = some t → s.block b.id = some b →
    let spoils := fun (site : EccSite) (u : State) (kind addr core : Nat) => exec (.eccUncorrectable d site) s = .next (u.recordError d kind addr core 1)
    spoils (.hbm n) { s with bad := defSet false s.bad n true } 5 (n * 128) 0xFF ∧
    spoils (.capacity n) { s with bad := defSet false s.bad n true } 6 (n * 128) 0xFF ∧
    spoils (.dieCache n) { s with bad := defSet false s.bad n true } 4 (n * 128) 0xFF ∧
    spoils (.l1 c n) (s.setCore d c { s.core d c with bad := defSet false (s.core d c).bad n true }) 1 (n * 128) c ∧
    spoils (.sreg c t.id r) (s.setTeam (t.setSreg r { val := (t.sreg r).val, pois := true })) 2 0 c ∧
    spoils (.vreg c t.id r l) (s.setTeam (t.vwrite r false [(l, { val := (t.velem r l).val, pois := true })])) 2 0 c ∧
    spoils (.pred c t.id r l) (s.setTeam (t.setPred r l (t.pred r l) true)) 2 0 c ∧
    spoils (.scratch c b.id n) (s.setBlock { b with scratch := b.scratch.mark (n / 8 * 8) 8 }) 1 0 c ∧
    spoils (.tile c b.id n) { s with tmems := tabSet s.tmems b.tmem (((tabGet s.tmems b.tmem).getD (Bank.zero 0)).mark (n / 8 * 8) 8) } 1 0 c ∧
    (∃ x, spoils (.fifo c b.id r n) (s.setBlock x) 1 0 c ∧ x = { b with fifos := x.fifos } ∧ (∀ i, i ≠ r → x.fifos[i]? = b.fifos[i]?) ∧
      ∀ f, b.fifos[r]? = some f → ∃ g, x.fifos[r]? = some g ∧ g.map (fun e => e.val) = f.map (fun e => e.val) ∧
        ∀ j e, g[j]? = some e → e.pois = ((f.getD j Elem.zero).pois || decide (j / 2 = n / 2))) ∧
    (t.agent = true → spoils (.header c t.id) (s.restartAgent t.die t.core) 2 0 c) ∧
    (t.agent = false → t.run = .away → spoils (.header c t.id) s 2 0 c) ∧
    (t.agent = false → t.run ≠ .away → t.pend = none → t.frame = none → s.me = t → ∀ v,
      s.writePieces t t.frameVa.toNat (framePieces t Trap.header 8) = .ok v →
      ∃ u w f, spoils (.header c t.id) u 2 0 c ∧ u.me = w ∧ w.run = (if t.run = .frozen then .frozen else .parked) ∧ w.frame = some f ∧ f.cause = 8 ∧ f.nested = 8 ∧ f.inHandler = false ∧
        f.flags = t.flags ∧ w.entries = t.entries ∧ w.vregs = t.vregs ∧ ∀ th ∈ w.threads, th.waiting = false) ∧
    (t.agent = false → t.run ≠ .away → t.pend = none → ∀ g, t.frame = some g → s.me = t → ∀ v,
      s.writeVirt t.die t.core t.proc true (t.frameVa.toNat + 0x31) [8] = .ok v →
      ∃ u w l b, spoils (.header c t.id) u 2 0 c ∧ u.me = w ∧ w = { t with
        entries := t.entries.take t.suspended, flags := (t.entries.drop t.suspended).foldl (fun fs e => decCounts fs e.fla e.flb) t.flags, latch := w.latch,
        run := if t.run = .frozen then .frozen else .parked, frame := some { g with nested := 8, inHandler := false, latch := l, unlatched := b } }) ∧
    (∀ a, b.acc[n]? = some a → tabWf a.elems = true → ∃ u x y, spoils (.accum c b.id n r) u 3 0 c ∧ u.block b.id = some x ∧ x.acc[n]? = some y ∧ y.bad = true ∧
      ∀ k, defGet 0 y.elems k = if 64 * r ≤ k ∧ k < 64 * r + 64 then 0x7FC00000 else defGet 0 a.elems k)) ∧
  (∀ (s : State) (d kind addr core sev : Nat), sev ≠ 0 →
    let x := s.die d
    let n := bitsN (x.reg 0x241) 0 5
    let wi := (x.reg 0x242).toNat
    let room := ringOk (x.reg 0x240) (x.reg 0x241) = true ∧ ringFill (x.reg 0x242) (x.reg 0x243) < 2 ^ n
    (¬ room → s.recordError d kind addr core sev = s.setDie d (x.setReg 0x244 (BitVec.ofNat 64 (min ((x.reg 0x244).toNat + 1) (2 ^ 32 - 1))))) ∧
    (room → (s.recordError d kind addr core sev).mem = (s.homeWords ((x.reg 0x240).toNat + 32 * (wi % 2 ^ n))
        [x.rclk.toNat, addr % 2 ^ 52, sev + core * 2 ^ 8 + kind * 2 ^ 24 + 2 ^ 32, (wi + 1) % 2 ^ 32]).mem ∧
      (s.recordError d kind addr core sev).irqs = s.irqs ++ (if wi % 2 ^ 32 = (x.reg 0x243).toNat % 2 ^ 32 then [bitsN (x.reg 0x241) 16 12] else []))) ∧
  (∀ (s : State) (a b : Nat),
    let u : State := { s with down := (min a b, max a b) :: s.down.filter (fun x => x != (min a b, max a b)) }
    (joined a b = false → exec (.linkDown a b) s = .next s) ∧
    (joined a b = true → u.connected = true → exec (.linkDown a b) s = .next (u.recordError (min a b) 7 0 0xFF 2)) ∧
    (joined a b = true → u.connected = false → ∃ t, exec (.linkDown a b) s = .next t ∧ t.tripped = true ∧ t.down = u.down ∧ (∀ i ∈ t.agenda, i = .powerOnReset) ∧
      t.mem = ((u.reach 8 ((diesIn u.present).take 1)).foldl (fun u d => u.recordError d 7 0 0xFF 1) u).mem ∧
      (s.tidy = true → ∀ d, d ∉ u.reach 8 ((diesIn u.present).take 1) → t.die d = s.die d))) ∧
  (∀ (s : State) (d c st : Nat) (u : PowerUnit),
    let allowed := exitLatency st ≤ (defGet 0 s.csr 0x408).toNat
    (¬ allowed → exec (.powerStateEnter u st) s = .next s) ∧
    (allowed → st = 1 → s.coreIdle d c = true → exec (.powerStateEnter (.core d c) st) s = .next ((s.setCore d c { s.core d c with power := 1 }).count d (0x3000 + c) 1)) ∧
    (s.coreIdle d c = false → exec (.powerStateEnter (.core d c) st) s = .next s) ∧
    (allowed → st = 2 → (∀ k ∈ s.logical d, 1 ≤ (s.core d k).power ∧ (s.core d k).queue = []) → (∀ q ∈ s.queues, q.home = d → q.staged = [] ∧ (q.state = 0 → q.wi ≤ q.claim)) → s.passes = [] →
      exec (.powerStateEnter (.die d) st) s = .next ((s.setDie d { s.die d with power := 2 }).count d (0x3000 + 36) 1)) ∧
    (allowed → st = 3 → bit (defGet 0 s.csr 0x400) 31 = false → (∀ k ∈ diesIn s.present, 2 ≤ (s.die k).power ∧ (s.die k).reg 0x214 = (s.die k).reg 0x215 ∧
        (s.die k).reg 0x242 = (s.die k).reg 0x243) → exec (.powerStateEnter .device st) s = .next { s.publishAll with power := 3 }) ∧
    (s.coreIdle d c = true ↔ (∀ t ∈ s.allTeams, t.die = d → t.core = c → t.agent = false → s.onCore t = false) ∧ (∀ j ∈ s.jobs, ¬ (j.die = d ∧ j.core = c)) ∧
      (s.core d c).moving = [] ∧ (s.core d c).waking = [] ∧ (s.core d c).stopping = 0 ∧ (s.core d c).reg 0x119 ≠ 1) ∧
    (let u := s.setCore d c { s.core d c with power := 0 }
     exec (.powerStateWake (.core d c)) s = .next { u.setDie d { u.die d with power := 0 } with power := 0 }) ∧
    exec (.powerStateWake (.die d)) s = .next { s.setDie d { s.die d with power := 0 } with power := 0 } ∧ exec (.powerStateWake .device) s = .next { s with power := 0 }) ∧
  (exitLatency 1 = 1 ∧ exitLatency 2 = 20 ∧ exitLatency 3 = 500) ∧
  (∀ (s : State) (bs : List Nat) (w : Nat), s.tidy = true →
    (((defGet 0 s.csr 0x409).toNat < bs.sum ∨ ∃ d b, bs[d]? = some b ∧ Config.dieLimit d < b) → exec (.arbiterUpdate bs w) s = .next s) ∧
    (bs.sum ≤ (defGet 0 s.csr 0x409).toNat → (∀ d b, bs[d]? = some b → b ≤ Config.dieLimit d) → ∃ t, exec (.arbiterUpdate bs w) s = .next t ∧ t.csr = defSet 0 s.csr 0x40A (BitVec.ofNat 64 (w % 2 ^ 16)) ∧
      ∀ d, t.die d = match (if d < 8 then bs[d]? else none) with
        | some b => { s.die d with budget := b, lastUpdate := (s.die d).rclk.toNat, throttling := false, clock := 16 }
        | none => s.die d)) ∧
  (∀ (s : State) (d : Nat),
    let x := s.die d
    let slow := s.setDie d { x with throttling := true, clock := max 4 (x.clock - 1) }
    exec (.limiterThrottle d) s = .next slow ∧ exec (.thermalThrottle d) s = .next (slow.recordError d 10 0 0xFF 2) ∧
    (x.lastUpdate + 100000 ≤ x.rclk.toNat → exec (.arbiterFallback d) s = .next ((s.setDie d { x with budget := (defGet 0 s.csr 0x409).toNat / (diesIn s.present).length, lastUpdate := x.rclk.toNat }).recordError d 12 0 0xFF 2)) ∧
    (x.rclk.toNat < x.lastUpdate + 100000 → exec (.arbiterFallback d) s = .next s) ∧
    ∃ t, exec (.thermalTrip d) s = .next t ∧ t.tripped = true ∧ (∀ i ∈ t.agenda, i = .powerOnReset) ∧
      (s.connected = true → t.mem = (s.recordError 0 11 0 0xFF 2).mem) ∧ (s.connected = false → t.mem = s.mem)) ∧
  (∀ (s : State) (v : Word),
    let lim := Config.formLimit s.form * (if s.form = 0 then (diesIn s.present).length else 1)
    exec (.pwrLimitWrite v) s = .next { s with csr := defSet 0 s.csr 0x409 (BitVec.ofNat 64 (max (ceilDiv lim 4) (min lim (bitsN (v.setWidth 64) 0 16)))) })

/-- The host's side (R106, R393, R441, R442, R444, R445, R457, R458), and where the machine stops. REGISTER_WRITE's port die and what other sizes
do are log entry 41. The fault noTarget is the model's own stop: R457 gives an access that no row decodes no effect outside translation. -/
def Obligations.HostAccessesAndNothingRefused : Prop :=
  (∀ (s : State) (pa n : Nat) (bs : List Byte), s.target pa ≠ .none →
    exec (.hostMemoryAccess false pa n bs) s = .next s ∧
    (s.isWindow pa = false → (∀ a, pa ≤ a → a < pa + bs.length → s.isCompressed a = false) → ∃ t, exec (.hostMemoryAccess true pa n bs) s = .next t ∧ t.mem = (s.homeWrite pa bs).mem ∧ t.teams = s.teams ∧
      (Memory.wf s.mem = true → ∀ a, t.homeByte a = if pa ≤ a ∧ a < pa + bs.length then bs.getD (a - pa) 0 else s.homeByte a)) ∧
    (s.isWindow pa = false → bs ≠ [] → pa / 512 = (pa + bs.length - 1) / 512 → s.isCompressed pa = true →
      exec (.hostMemoryAccess true pa n bs) s = .next (s.writeBlocks noProc 0 pa bs)) ∧
    (∀ off, s.target pa = .bar0 off → exec (.hostMemoryAccess true pa n bs) s =
      if bs.length = 8 ∧ off % 8 = 0 then exec (.registerWrite off (BitVec.ofNat 64 (ofLeBytes bs))) s else .next s) ∧
    (∀ off q, s.target pa = .doorbell off → bs.length = 8 → off % 8 = 0 → ofLeBytes bs < 2 ^ 63 → s.queue (off / 8) = some q →
      exec (.hostMemoryAccess true pa n bs) s = exec (.doorbellWrite (off / 8) (BitVec.ofNat 64 (ofLeBytes bs))) s)) ∧
  (∀ (s : State) (port pa : Nat) (wr up : Bool) (bs : List Byte),
    (s.relayUp.getLsbD port = false → exec (.relayAccess port wr pa bs) s = .next s) ∧
    (s.relayUp.getLsbD port = true → s.target pa ≠ .none → exec (.relayAccess port wr pa bs) s = exec (.hostMemoryAccess wr pa bs.length bs) s ∧
      ∃ t, exec (.relayAccess port wr pa bs) s = .next t) ∧
    (port < 16 → ∃ t, exec (.relayLinkTrain port up) s = .next t ∧ t = { s with relayUp := t.relayUp } ∧
      ∀ k, t.relayUp.getLsbD k = if k = port then up else s.relayUp.getLsbD k)) ∧
  (∀ (s : State) (off : Nat) (v : DWord),
    (off < 2 ^ 24 → s.barReg off = .none → exec (.registerWrite off v) s = .next s) ∧ (off % 8 ≠ 0 → exec (.registerWrite off v) s = .next s) ∧
    (∀ d n, s.barReg off = .dieCsr d n → n < 0x400 → exec (.registerWrite off v) s = .next (s.dieWrite d n (if narrowCsr n then v &&& 0xFFFFFFFF else v))) ∧
    (∀ d c n, s.barReg off = .coreCsr d c n → exec (.registerWrite off v) s =
      .next (s.coreWrite d c n (if narrowCsr n then v &&& 0xFFFFFFFF else v) (if narrowCsr n then v &&& 0xFFFFFFFF else v))) ∧
    (∀ k, k < 8 → off = 0x800000 + 8 * k → exec (.registerWrite off v) s = exec (.partWrite k v) s) ∧
    (off < 2 ^ 24 → s.host4 = true → s.hasDie 4 = true → (off < 0x800100 ∨ 0x800118 < off) →
      exec (.registerWrite (4 * 2 ^ 24 + off) v) s = exec (.registerWrite off v) s ∧ s.portRead (4 * 2 ^ 24 + off) = s.portRead off) ∧
    (0x800100 ≤ off → off ≤ 0x800118 → exec (.registerWrite (4 * 2 ^ 24 + off) v) s = .next s ∧ s.portRead (4 * 2 ^ 24 + off) = 0) ∧
    (∀ port, port ≠ 0 → ¬ (port = 4 ∧ s.host4 = true ∧ s.hasDie 4 = true) → off < 2 ^ 24 → exec (.registerWrite (port * 2 ^ 24 + off) v) s = .next s) ∧
    (∀ d n, s.hasDie d = true → 0x200 ≤ n → n < 0x400 → (wideCsr n = true ∨ narrowCsr n = true) → s.barReg (d * 0x100000 + 8 * n) = .dieCsr d n) ∧
    (∀ d c n, s.enabled d c = true → 0x100 ≤ n → n < 0x200 → (wideCsr n = true ∨ narrowCsr n = true) →
      s.barReg (d * 0x100000 + 0x80000 + c * 0x1000 + 8 * (n - 0x100)) = .coreCsr d c n)) ∧
  (∀ (s : State) (k : Nat) (v : DWord),
    let w := v &&& 0x8000FFFFFFFF00FF
    let mask := bits w 0 8
    let lo := bitsN w 16 16
    let hi := bitsN w 32 16
    let live := bit (s.part k) 63 = true ∧ ∃ q ∈ s.queues, bitsN (s.part k) 16 16 ≤ q.proc ∧ q.proc ≤ bitsN (s.part k) 32 16 ∧ (q.state = 0 ∨ q.state = 1)
    let clash := ∃ j, j < 8 ∧ j ≠ k ∧ bit (s.part j) 63 = true ∧
      (bits (s.part j) 0 8 &&& mask ≠ 0 ∨ (lo ≤ bitsN (s.part j) 32 16 ∧ bitsN (s.part j) 16 16 ≤ hi))
    let bad := lo = 0 ∨ hi < lo ∨ mask = 0 ∨ mask &&& ~~~ s.present ≠ 0
    (k < 8 → ¬ live → (bit w 63 = false ∨ (¬ clash ∧ ¬ bad)) → exec (.partWrite k v) s = .next { s with parts := defSet 0 s.parts k w }) ∧
    ((8 ≤ k ∨ live ∨ (bit w 63 = true ∧ (clash ∨ bad))) → exec (.partWrite k v) s = .next s)) ∧
  (∀ (i : Instr) (s : State) (r : Refusal), exec i s ≠ .refused r) ∧
  (∀ (i : Instr) (s : State) (f : Fault), exec i s = .fault f → ∃ pa, f = .noTarget pa ∧ s.target pa = .none ∧
    ((∃ wr n bs, i = .hostMemoryAccess wr pa n bs) ∨ ∃ port wr bs, i = .relayAccess port wr pa bs)) ∧
  (∀ (s : State) (pa n : Nat) (wr : Bool) (bs : List Byte), s.target pa = .none → exec (.hostMemoryAccess wr pa n bs) s = .fault (.noTarget pa))
end

