-- ==== Sys2Proof/Laws/Tables.lean ====
section
/-!
SUPPORT. Laws/Tables: what reading a sparse table, a register file or a mask gives after a write to it, and that writes keep the
canonical form of a table.
-/

namespace Sys2Proof

/-! ## Tables -/

theorem tabGet_tabSet {α : Type} (t : List (Nat × α)) (a b : Nat) (x : α) :
    tabGet (tabSet t a x) b = if b = a then some x else tabGet t b := by
  induction t with
  | nil => simp [tabSet, tabGet]
  | cons p t ih =>
    obtain ⟨k, v⟩ := p
    simp only [tabSet]
    split
    · simp only [tabGet]; split <;> simp_all
    · split
      · simp only [tabGet]
        by_cases h : b = a
        · simp [h]
        · simp only [h, if_false]
          split <;> rename_i h'
          · have h1 : ¬ b = k := by omega
            have h2 : b < k := by omega
            simp [h1, h2]
          · rfl
      · simp only [tabGet, ih]
        split
        · have : ¬ b = a := by omega
          simp [this]
        · split
          · have : ¬ b = a := by omega
            simp [this]
          · rfl

/-- Keys of a table from its first on. -/
theorem tabWf_tail {α : Type} {p : Nat × α} {t : List (Nat × α)} (h : tabWf (p :: t) = true) : tabWf t = true := by
  cases t with
  | nil => rfl
  | cons q t => simp only [tabWf, Bool.and_eq_true] at h; exact h.2

theorem tabWf_head_lt {α : Type} {p : Nat × α} {t : List (Nat × α)} (h : tabWf (p :: t) = true) : ∀ q ∈ t, p.1 < q.1 := by
  induction t generalizing p with
  | nil => simp
  | cons q t ih =>
    simp only [tabWf, Bool.and_eq_true, decide_eq_true_eq] at h
    intro r hr
    rcases List.mem_cons.1 hr with rfl | hr
    · exact h.1
    · exact Nat.lt_trans h.1 (ih h.2 r hr)

theorem tabGet_none {α : Type} {t : List (Nat × α)} {a : Nat} (h : ∀ q ∈ t, a < q.1) : tabGet t a = none := by
  cases t with
  | nil => rfl
  | cons p t =>
    have := h p List.mem_cons_self
    simp only [tabGet]
    rw [if_neg (by omega), if_pos this]

theorem tabGet_tabDel {α : Type} {t : List (Nat × α)} (h : tabWf t = true) (a b : Nat) :
    tabGet (tabDel t a) b = if b = a then none else tabGet t b := by
  induction t with
  | nil => simp [tabDel, tabGet]
  | cons p t ih =>
    obtain ⟨k, v⟩ := p
    have hlt := tabWf_head_lt h
    simp only [tabDel]
    split
    · rename_i hk
      by_cases hb : b = a
      · rw [if_pos hb, hb, hk]; exact tabGet_none hlt
      · simp only [if_neg hb, tabGet]
        rw [if_neg (by omega)]
        split
        · exact tabGet_none (fun q hq => by have := hlt q hq; simp only at this; omega)
        · rfl
    · split
      · simp only [tabGet]
        by_cases hb : b = a
        · rw [if_pos hb, if_neg (by omega), if_pos (by omega)]
        · rw [if_neg hb]
      · simp only [tabGet, ih (tabWf_tail h)]
        by_cases hb : b = a
        · simp only [if_pos hb]
          rw [if_neg (by omega), if_neg (by omega)]
        · simp only [if_neg hb]

theorem defGet_defSet {α : Type} [DecidableEq α] (d : α) {t : List (Nat × α)} (h : tabWf t = true) (a b : Nat) (x : α) :
    defGet d (defSet d t a x) b = if b = a then x else defGet d t b := by
  unfold defGet defSet
  split
  · rename_i hx
    rw [tabGet_tabDel h]
    split <;> simp_all
  · rw [tabGet_tabSet]
    split <;> simp

theorem tabSet_keys {α : Type} (t : List (Nat × α)) (a : Nat) (x : α) : ∀ q ∈ tabSet t a x, q.1 = a ∨ q ∈ t := by
  induction t with
  | nil => simp [tabSet]
  | cons p t ih =>
    intro q hq
    simp only [tabSet] at hq
    split at hq
    · rcases List.mem_cons.1 hq with rfl | hq
      · left; simp_all
      · right; exact List.mem_cons_of_mem _ hq
    · split at hq
      · rcases List.mem_cons.1 hq with rfl | hq
        · left; rfl
        · right; exact hq
      · rcases List.mem_cons.1 hq with rfl | hq
        · right; exact List.mem_cons_self
        · rcases ih q hq with h | h
          · left; exact h
          · right; exact List.mem_cons_of_mem _ h

theorem tabWf_cons {α : Type} {p : Nat × α} {t : List (Nat × α)} (h : tabWf t = true) (hp : ∀ q ∈ t, p.1 < q.1) :
    tabWf (p :: t) = true := by
  cases t with
  | nil => rfl
  | cons q t => simp only [tabWf, Bool.and_eq_true, decide_eq_true_eq]; exact ⟨hp q List.mem_cons_self, h⟩

theorem tabWf_tabSet {α : Type} {t : List (Nat × α)} (h : tabWf t = true) (a : Nat) (x : α) : tabWf (tabSet t a x) = true := by
  induction t with
  | nil => rfl
  | cons p t ih =>
    obtain ⟨k, v⟩ := p
    have hlt := tabWf_head_lt h
    simp only [tabSet]
    split
    · rename_i hk
      exact tabWf_cons (tabWf_tail h) hlt
    · split
      · rename_i h1 h2
        refine tabWf_cons h ?_
        intro q hq
        rcases List.mem_cons.1 hq with rfl | hq
        · exact h2
        · have := hlt q hq; simp only at this ⊢; omega
      · rename_i h1 h2
        refine tabWf_cons (ih (tabWf_tail h)) ?_
        intro q hq
        rcases tabSet_keys t a x q hq with h3 | h3
        · simp only; omega
        · exact hlt q h3

theorem mem_of_mem_tabDel {α : Type} (t : List (Nat × α)) (a : Nat) : ∀ q ∈ tabDel t a, q ∈ t := by
  induction t with
  | nil => simp [tabDel]
  | cons p t ih =>
    intro q hq
    simp only [tabDel] at hq
    split at hq
    · exact List.mem_cons_of_mem _ hq
    · split at hq
      · exact hq
      · rcases List.mem_cons.1 hq with rfl | hq
        · exact List.mem_cons_self
        · exact List.mem_cons_of_mem _ (ih q hq)

theorem tabWf_tabDel {α : Type} {t : List (Nat × α)} (h : tabWf t = true) (a : Nat) : tabWf (tabDel t a) = true := by
  induction t with
  | nil => rfl
  | cons p t ih =>
    have hlt := tabWf_head_lt h
    simp only [tabDel]
    split
    · exact tabWf_tail h
    · split
      · exact h
      · exact tabWf_cons (ih (tabWf_tail h)) (fun q hq => hlt q (mem_of_mem_tabDel t a q hq))

theorem mem_tabSet_val {α : Type} (t : List (Nat × α)) (a : Nat) (x : α) : ∀ q ∈ tabSet t a x, q.2 = x ∨ q ∈ t := by
  induction t with
  | nil => simp [tabSet]
  | cons p t ih =>
    intro q hq
    simp only [tabSet] at hq
    split at hq
    · rcases List.mem_cons.1 hq with rfl | hq
      · left; rfl
      · right; exact List.mem_cons_of_mem _ hq
    · split at hq
      · rcases List.mem_cons.1 hq with rfl | hq
        · left; rfl
        · right; exact hq
      · rcases List.mem_cons.1 hq with rfl | hq
        · right; exact List.mem_cons_self
        · rcases ih q hq with h | h
          · left; exact h
          · right; exact List.mem_cons_of_mem _ h

/-- A write keeps the canonical form. -/
theorem defWf_defSet {α : Type} [DecidableEq α] (d : α) {t : List (Nat × α)} (h : defWf d t = true) (a : Nat) (x : α) :
    defWf d (defSet d t a x) = true := by
  simp only [defWf, Bool.and_eq_true, List.all_eq_true, decide_eq_true_eq] at h ⊢
  unfold defSet
  split
  · exact ⟨tabWf_tabDel h.1 a, fun q hq => h.2 q (mem_of_mem_tabDel t a q hq)⟩
  · rename_i hx
    refine ⟨tabWf_tabSet h.1 a x, fun q hq => ?_⟩
    rcases mem_tabSet_val t a x q hq with h1 | h1
    · rw [h1]; exact hx
    · exact h.2 q h1

theorem tabWf_of_defWf {α : Type} [DecidableEq α] {d : α} {t : List (Nat × α)} (h : defWf d t = true) : tabWf t = true := by
  simp only [defWf, Bool.and_eq_true] at h; exact h.1

/-! ## Register files -/

theorem putAt_getD {α : Type} (k : Nat) (d : α) (l : List α) (n : Nat) (x : α) (i : Nat) :
    (putAt k d l n x).getD i d = if i < k then (if i = n then x else l.getD i d) else d := by
  unfold putAt
  by_cases h : i < k
  · simp [List.getD_eq_getElem?_getD, h]
  · simp [List.getD_eq_getElem?_getD, h]

theorem getD_map_range {α : Type} (k : Nat) (d : α) (f : Nat → α) (i : Nat) :
    ((List.range k).map f).getD i d = if i < k then f i else d := by
  by_cases h : i < k
  · simp [List.getD_eq_getElem?_getD, h]
  · simp [List.getD_eq_getElem?_getD, h]

/-! ## Masks -/

theorem mem_lanesOf (m : Mask) (l : Nat) : l ∈ lanesOf m ↔ m.getLsbD l = true := by
  simp only [lanesOf, List.mem_filter, List.mem_range]
  constructor
  · exact fun h => h.2
  · exact fun h => ⟨BitVec.lt_of_getLsbD h, h⟩

theorem lanesOf_nodup (m : Mask) : (lanesOf m).Nodup := List.Pairwise.filter _ List.nodup_range

theorem getLsbD_ofNat_two_pow (i l : Nat) : (BitVec.ofNat 64 (2 ^ i)).getLsbD l = (decide (l < 64) && decide (l = i)) := by
  rw [BitVec.getLsbD_ofNat, Nat.testBit_two_pow]
  by_cases h : i = l <;> simp [h, eq_comm]

theorem getLsbD_maskOf (n : Nat) (f : Nat → Bool) (l : Nat) :
    (maskOf n f).getLsbD l = (decide (l < 64) && decide (l < n) && f l) := by
  unfold maskOf
  induction n with
  | zero => simp
  | succ n ih =>
    rw [List.range_succ, List.foldl_append, List.foldl_cons, List.foldl_nil]
    by_cases hf : f n = true
    · rw [if_pos hf, BitVec.getLsbD_or, ih, getLsbD_ofNat_two_pow]
      by_cases h64 : l < 64
      · by_cases hl : l = n
        · subst hl; simp [h64, hf]
        · have : (l < n + 1) ↔ (l < n) := by omega
          simp [h64, hl, this]
      · simp [h64]
    · rw [if_neg hf, ih]
      by_cases hl : l = n
      · subst hl; simp [hf]
      · have : (l < n + 1) ↔ (l < n) := by omega
        simp [this]

end Sys2Proof
end

