-- ==== Sys2Proof/Laws/Team.lean ====
section
/-!
SUPPORT. Laws/Team: reading a team's threads and registers after each of the operations that write them, and the checks and
results of a register instruction.
-/

namespace Sys2Proof.Machine

/-! ## Threads -/

theorem thread_mapLanes (t : Team) (f : Nat → Thread → Thread) (l : Nat) (h : l < t.width) :
    (t.mapLanes f).thread l = f l (t.thread l) := by
  simp [Team.mapLanes, Team.thread, getD_map_range, h]

theorem thread_mapThreads (t : Team) (m : Mask) (f : Thread → Thread) (l : Nat) (h : l < t.width) :
    (t.mapThreads m f).thread l = if m.getLsbD l then f (t.thread l) else t.thread l := by
  rw [Team.mapThreads, thread_mapLanes _ _ _ h]

theorem thread_setThread (t : Team) (l : Nat) (th : Thread) (i : Nat) (h : i < t.width) :
    (t.setThread l th).thread i = if i = l then th else t.thread i := by
  simp only [Team.setThread, Team.thread, putAt_getD, if_pos h]

theorem mapThreads_eq (t : Team) (m : Mask) (f : Thread → Thread) :
    t.mapThreads m f = { t with threads := (t.mapThreads m f).threads } := rfl

/-! ## Vector registers -/

theorem velem_vwrite (t : Team) (n : Nat) (sp : Bool) (ws : List (Nat × Elem)) (m l : Nat) (h : l < t.width) :
    (t.vwrite n sp ws).velem m l =
      if m = n then ((ws.find? (fun p => decide (p.1 = l))).map (fun p => p.2)).getD (t.velem n l) else t.velem m l := by
  by_cases hm : m = n
  · simp [Team.vwrite, Team.velem, Team.vreg, tabGet_tabSet, hm, getD_map_range, h]
  · simp [Team.vwrite, Team.velem, Team.vreg, tabGet_tabSet, hm]

theorem vreg_vwrite_ne (t : Team) (n : Nat) (sp : Bool) (ws : List (Nat × Elem)) (m : Nat) (h : m ≠ n) :
    (t.vwrite n sp ws).vreg m = t.vreg m := by
  simp [Team.vwrite, Team.vreg, tabGet_tabSet, h]

theorem vwrite_eq (t : Team) (n : Nat) (sp : Bool) (ws : List (Nat × Elem)) :
    t.vwrite n sp ws = { t with vregs := (t.vwrite n sp ws).vregs } := rfl

/-- The writes of one register among triples. -/
def writesOf (ws : List (Nat × Nat × Elem)) (n : Nat) : List (Nat × Elem) :=
  (ws.filter (fun p => decide (p.1 = n))).map (fun p => p.2)

theorem vwriteFold (sp : Bool) (ws : List (Nat × Nat × Elem)) (regs : List Nat) (t : Team) :
    let t' := regs.foldl (fun t n => t.vwrite n sp (writesOf ws n)) t
    t' = { t with vregs := t'.vregs } ∧
    ∀ m l, l < t.width → t'.velem m l =
      if m ∈ regs then (((writesOf ws m).find? (fun p => decide (p.1 = l))).map (fun p => p.2)).getD (t.velem m l) else t.velem m l := by
  induction regs generalizing t with
  | nil => simp
  | cons r rs ih =>
    obtain ⟨h1, h2⟩ := ih (t.vwrite r sp (writesOf ws r))
    refine ⟨?_, ?_⟩
    · simp only [List.foldl_cons]
      rw [h1]; rfl
    · intro m l hl
      simp only [List.foldl_cons]
      rw [h2 m l hl, velem_vwrite _ _ _ _ _ _ hl]
      by_cases hm : m = r
      · subst hm
        by_cases hr : m ∈ rs
        · simp only [hr, if_true, List.mem_cons, true_or]
          cases (writesOf ws m).find? (fun p => decide (p.1 = l)) <;> rfl
        · simp [hr]
      · simp [hm]

theorem dst_eq (t : Team) (tg : List (List Nat)) (k j : Nat) (m : Mask) (f : Nat → Elem) :
    t.dst tg k j m f = { t with vregs := (t.dst tg k j m f).vregs } :=
  (vwriteFold _ _ _ t).1

theorem find_lane (ls : List Nat) (p : Nat → Bool) (f : Nat → Elem) (l : Nat) :
    (((ls.filter p).map (fun i => (i, f i))).find? (fun q => decide (q.1 = l))).map (fun q => q.2) =
      if l ∈ ls ∧ p l = true then some (f l) else none := by
  induction ls with
  | nil => simp
  | cons a ls ih =>
    by_cases hp : p a = true
    · rw [List.filter_cons_of_pos hp, List.map_cons, List.find?_cons]
      by_cases ha : a = l
      · subst ha; simp [hp]
      · simp only [ha, decide_false, ih]
        have : (l ∈ a :: ls) ↔ l ∈ ls := by simp [List.mem_cons, Ne.symm ha]
        simp [this]
    · rw [List.filter_cons_of_neg hp, ih]
      by_cases ha : l = a
      · subst ha; simp [hp]
      · simp [ha]

/-- Element n of lane l after one result per lane of a mask (R48, R54). -/
theorem velem_dst (t : Team) (tg : List (List Nat)) (k j : Nat) (m : Mask) (f : Nat → Elem) (n l : Nat) (h : l < t.width) :
    (t.dst tg k j m f).velem n l = if m.getLsbD l = true ∧ n = tgAt tg l k + j then f l else t.velem n l := by
  have hw := (vwriteFold (decide (1 < ((((lanesOf m).map (fun l => (tgAt tg l k + j, l, f l))).map (fun p => p.1)).eraseDups).length))
    ((lanesOf m).map (fun l => (tgAt tg l k + j, l, f l)))
    ((((lanesOf m).map (fun l => (tgAt tg l k + j, l, f l))).map (fun p => p.1)).eraseDups) t).2 n l h
  have hd : t.dst tg k j m f = ((((lanesOf m).map (fun l => (tgAt tg l k + j, l, f l))).map (fun p => p.1)).eraseDups).foldl
      (fun t n => t.vwrite n (decide (1 < ((((lanesOf m).map (fun l => (tgAt tg l k + j, l, f l))).map (fun p => p.1)).eraseDups).length))
        (writesOf ((lanesOf m).map (fun l => (tgAt tg l k + j, l, f l))) n)) t := rfl
  rw [hd, hw]
  have hf : writesOf ((lanesOf m).map (fun l => (tgAt tg l k + j, l, f l))) n =
      ((lanesOf m).filter (fun i => decide (tgAt tg i k + j = n))).map (fun i => (i, f i)) := by
    unfold writesOf
    rw [List.filter_map, List.map_map]; rfl
  rw [hf, find_lane]
  simp only [mem_lanesOf, decide_eq_true_eq]
  by_cases hc : m.getLsbD l = true ∧ tgAt tg l k + j = n
  · have hin : n ∈ (((lanesOf m).map (fun l => (tgAt tg l k + j, l, f l))).map (fun p => p.1)).eraseDups := by
      rw [List.mem_eraseDups, List.map_map, List.mem_map]
      exact ⟨l, (mem_lanesOf m l).2 hc.1, hc.2⟩
    rw [if_pos hin, if_pos hc, if_pos ⟨hc.1, hc.2.symm⟩]; rfl
  · have hc' : ¬ (m.getLsbD l = true ∧ n = tgAt tg l k + j) := fun x => hc ⟨x.1, x.2.symm⟩
    rw [if_neg hc, if_neg hc']
    split <;> rfl

/-- A register that no lane of the mask writes keeps its tag and its elements. -/
theorem vreg_dst (t : Team) (tg : List (List Nat)) (k j : Nat) (m : Mask) (f : Nat → Elem) (n : Nat)
    (h : ∀ l, m.getLsbD l = true → n ≠ tgAt tg l k + j) : (t.dst tg k j m f).vreg n = t.vreg n := by
  have key : ∀ (sp : Bool) (g : Nat → List (Nat × Elem)) (regs : List Nat) (t : Team), n ∉ regs →
      (regs.foldl (fun t r => t.vwrite r sp (g r)) t).vreg n = t.vreg n := by
    intro sp g regs
    induction regs with
    | nil => intro t _; rfl
    | cons a as ih =>
      intro t hn
      rw [List.mem_cons, not_or] at hn
      rw [List.foldl_cons, ih _ hn.2, vreg_vwrite_ne _ _ _ _ _ hn.1]
  refine key _ _ _ t ?_
  rw [List.mem_eraseDups, List.map_map, List.mem_map]
  rintro ⟨l, hl, rfl⟩
  exact h l ((mem_lanesOf m l).1 hl) rfl

/-- A run of results. -/
theorem dstRun_spec (t : Team) (tg : List (List Nat)) (k n : Nat) (m : Mask) (f : Nat → Nat → Elem) :
    t.dstRun tg k n m f = { t with vregs := (t.dstRun tg k n m f).vregs } ∧
    ∀ r l, l < t.width → (t.dstRun tg k n m f).velem r l =
      if m.getLsbD l = true ∧ tgAt tg l k ≤ r ∧ r < tgAt tg l k + n then f (r - tgAt tg l k) l else t.velem r l := by
  unfold Team.dstRun
  induction n with
  | zero => refine ⟨rfl, fun r l _ => ?_⟩; rw [if_neg (by omega)]; rfl
  | succ n ih =>
    rw [List.range_succ, List.foldl_append, List.foldl_cons, List.foldl_nil]
    refine ⟨?_, fun r l h => ?_⟩
    · rw [dst_eq]; rw [ih.1]
    · have hw : l < ((List.range n).foldl (fun t j => t.dst tg k j m (f j)) t).width := by rw [ih.1]; exact h
      rw [velem_dst _ _ _ _ _ _ _ _ hw, ih.2 r l h]
      by_cases hm : m.getLsbD l = true
      · by_cases hr : r = tgAt tg l k + n
        · subst hr
          simp [hm]
        · have : (tgAt tg l k ≤ r ∧ r < tgAt tg l k + n) ↔ (tgAt tg l k ≤ r ∧ r < tgAt tg l k + (n + 1)) := by omega
          simp [hm, hr, this]
      · simp [hm]

/-- A register that no lane of the mask writes in a run keeps its tag and its elements. -/
theorem vreg_dstRun (t : Team) (tg : List (List Nat)) (k n : Nat) (m : Mask) (f : Nat → Nat → Elem) (x : Nat)
    (h : ∀ l, m.getLsbD l = true → ¬ (tgAt tg l k ≤ x ∧ x < tgAt tg l k + n)) : (t.dstRun tg k n m f).vreg x = t.vreg x := by
  unfold Team.dstRun
  induction n with
  | zero => rfl
  | succ n ih =>
    rw [List.range_succ, List.foldl_append, List.foldl_cons, List.foldl_nil, vreg_dst, ih]
    · exact fun l hl hx => h l hl (by omega)
    · exact fun l hl hx => h l hl (by omega)

/-- A register that no lane of the mask writes in a pair keeps its tag and its elements. -/
theorem vreg_dstPair (t : Team) (tg : List (List Nat)) (k : Nat) (m : Mask) (v : Nat → DWord) (p : Nat → Bool) (x : Nat)
    (h : ∀ l, m.getLsbD l = true → ¬ (tgAt tg l k ≤ x ∧ x < tgAt tg l k + 2)) : (t.dstPair tg k m v p).vreg x = t.vreg x := by
  unfold Team.dstPair
  rw [vreg_dst, vreg_dst]
  · exact fun l hl hx => h l hl (by omega)
  · exact fun l hl hx => h l hl (by omega)

/-- A 64-bit result in each lane of a mask. -/
theorem dstPair_spec (t : Team) (tg : List (List Nat)) (k : Nat) (m : Mask) (v : Nat → DWord) (p : Nat → Bool) :
    t.dstPair tg k m v p = { t with vregs := (t.dstPair tg k m v p).vregs } ∧
    ∀ r l, l < t.width → (t.dstPair tg k m v p).velem r l =
      if m.getLsbD l = true ∧ tgAt tg l k ≤ r ∧ r < tgAt tg l k + 2
      then { val := bits (v l) (32 * (r - tgAt tg l k)) 32, pois := p l } else t.velem r l := by
  unfold Team.dstPair
  refine ⟨?_, fun r l h => ?_⟩
  · rw [dst_eq]; rw [dst_eq t]
  · have hw : l < (t.dst tg k 0 m (fun l => { val := bits (v l) 0 32, pois := p l })).width := by rw [dst_eq]; exact h
    rw [velem_dst _ _ _ _ _ _ _ _ hw, velem_dst _ _ _ _ _ _ _ _ h]
    by_cases hm : m.getLsbD l = true
    · by_cases h1 : r = tgAt tg l k + 1
      · subst h1; simp [hm]
      · by_cases h0 : r = tgAt tg l k
        · subst h0; simp [hm]
        · have : ¬ (tgAt tg l k ≤ r ∧ r < tgAt tg l k + 2) := by omega
          simp [h1, h0, this]
    · simp [hm]

/-! ## Shape tags -/

theorem mapIdxFrom_range' {α β : Type} (f : Nat → α → β) (e : Nat → α) (w k : Nat) :
    mapIdxFrom f k ((List.range' k w).map e) = (List.range' k w).map (fun i => f i (e i)) := by
  induction w generalizing k with
  | zero => rfl
  | succ w ih => rw [List.range'_succ, List.map_cons, List.map_cons, mapIdxFrom, ih]

theorem mapIx_range {α β : Type} (f : Nat → α → β) (e : Nat → α) (w : Nat) :
    mapIx f ((List.range w).map e) = (List.range w).map (fun i => f i (e i)) := by
  rw [List.range_eq_range', mapIx, mapIdxFrom_range']

/-- The tag of contents listed lane by lane, under rules 2 to 5 of R48. -/
theorem tagOf_range (w : Nat) (e : Nat → Elem) : tagOf ((List.range w).map e) =
    if (List.range w).any (fun l => (e l).pois) then .general
    else if (List.range w).all (fun l => decide ((e l).val = (e 0).val)) then .uniform
    else if (List.range w).all (fun l => decide ((e l).val = (e 0).val + BitVec.ofNat 32 l * ((e 1).val - (e 0).val))) then .affine
    else .general := by
  cases w with
  | zero => rfl
  | succ w =>
    have hr : (List.range (w + 1)).map e = e 0 :: (List.range w).map (fun l => e (l + 1)) := by
      rw [List.range_succ_eq_map, List.map_cons, List.map_map]; rfl
    have hu : (List.range (w + 1)).all (fun l => decide ((e l).val = (e 0).val)) =
        ((List.range w).map (fun l => e (l + 1))).all (fun x => decide (x.val = (e 0).val)) := by
      rw [List.range_succ_eq_map, List.all_cons, List.all_map, List.all_map]; simp [Function.comp_def]
    have hp : (List.range (w + 1)).any (fun l => (e l).pois) = (e 0 :: (List.range w).map (fun l => e (l + 1))).any (fun x => x.pois) := by
      rw [← hr, List.any_map]; rfl
    have ha : ∀ d : Word, (mapIx (fun i x => decide (x.val = (e 0).val + BitVec.ofNat 32 i * d)) (e 0 :: (List.range w).map (fun l => e (l + 1)))).all id =
        (List.range (w + 1)).all (fun l => decide ((e l).val = (e 0).val + BitVec.ofNat 32 l * d)) := by
      intro d; rw [← hr, mapIx_range, List.all_map]; rfl
    rw [hr, hu, hp]
    unfold tagOf
    simp only [ha]
    cases w with
    | zero => simp
    | succ w =>
      have : (((List.range (w + 1)).map (fun l => e (l + 1))).headD (e 0)) = e 1 := by
        rw [List.range_succ_eq_map]; rfl
      rw [this]

theorem one_lt_eraseDups {α : Type} [DecidableEq α] (l : List α) : 1 < l.eraseDups.length ↔ ∃ a ∈ l, ∃ b ∈ l, a ≠ b := by
  cases l with
  | nil => simp
  | cons a l =>
    rw [List.eraseDups_cons, List.length_cons]
    constructor
    · intro h
      have : 0 < (List.filter (fun b => !b == a) l).eraseDups.length := by omega
      obtain ⟨b, hb⟩ := List.exists_mem_of_length_pos this
      rw [List.mem_eraseDups, List.mem_filter] at hb
      have hne : b ≠ a := by simpa using hb.2
      exact ⟨a, List.mem_cons_self, b, List.mem_cons_of_mem _ hb.1, hne.symm⟩
    · rintro ⟨x, hx, y, hy, hxy⟩
      have : ∃ b ∈ l, b ≠ a := by
        rcases List.mem_cons.1 hx with rfl | hx
        · rcases List.mem_cons.1 hy with rfl | hy
          · exact absurd rfl hxy
          · exact ⟨y, hy, hxy.symm⟩
        · by_cases h : x = a
          · subst h
            rcases List.mem_cons.1 hy with rfl | hy
            · exact absurd rfl hxy
            · exact ⟨y, hy, hxy.symm⟩
          · exact ⟨x, hx, h⟩
      obtain ⟨b, hb, hba⟩ := this
      have : b ∈ (List.filter (fun b => !b == a) l).eraseDups := by
        rw [List.mem_eraseDups, List.mem_filter]; exact ⟨hb, by simpa using hba⟩
      have := List.length_pos_of_mem this
      omega

/-- A register written has the tag of R48. -/
theorem tag_vwrite (t : Team) (n : Nat) (sp : Bool) (ws : List (Nat × Elem)) :
    ((t.vwrite n sp ws).vreg n).tag = if sp then .general else (t.vwrite n sp ws).shape n := by
  have hv : ((t.vwrite n sp ws).vreg n).tag = if sp then .general else tagOf ((List.range t.width).map (fun l =>
      ((ws.find? (fun p => decide (p.1 = l))).map (fun p => p.2)).getD (t.velem n l))) := by
    simp [Team.vwrite, Team.vreg, tabGet_tabSet]
  rw [hv]
  cases sp with
  | true => rfl
  | false =>
    simp only [Bool.false_eq_true, if_false]
    have he : ∀ l, l < t.width → (t.vwrite n false ws).velem n l = ((ws.find? (fun p => decide (p.1 = l))).map (fun p => p.2)).getD (t.velem n l) := by
      intro l hl; rw [velem_vwrite _ _ _ _ _ _ hl, if_pos rfl]
    have hm : (List.range t.width).map (fun l => ((ws.find? (fun p => decide (p.1 = l))).map (fun p => p.2)).getD (t.velem n l)) =
        (List.range t.width).map ((t.vwrite n false ws).velem n) :=
      List.map_congr_left (fun l hl => (he l (List.mem_range.1 hl)).symm)
    rw [hm, tagOf_range]; rfl

/-- Registers that a list of others leaves alone. -/
theorem shape_congr {t u : Team} {n : Nat} (hw : u.width = t.width) (hv : u.vreg n = t.vreg n) : u.shape n = t.shape n := by
  unfold Team.shape Team.velem; rw [hw, hv]

theorem tag_vwriteFold (sp : Bool) (ws : List (Nat × Nat × Elem)) (regs : List Nat) (t : Team) (n : Nat) (h : n ∈ regs) :
    let t' := regs.foldl (fun t n => t.vwrite n sp (writesOf ws n)) t
    (t'.vreg n).tag = if sp then .general else t'.shape n := by
  induction regs generalizing t with
  | nil => simp at h
  | cons a as ih =>
    rw [List.foldl_cons]
    by_cases ha : n ∈ as
    · exact ih _ ha
    · have hn : n = a := by simpa [ha] using h
      subst hn
      have key : ∀ (regs : List Nat) (t : Team), n ∉ regs →
          let u := regs.foldl (fun t r => t.vwrite r sp (writesOf ws r)) t
          u.vreg n = t.vreg n ∧ u.width = t.width := by
        intro regs
        induction regs with
        | nil => intro t _; exact ⟨rfl, rfl⟩
        | cons b bs ih =>
          intro t hn
          rw [List.mem_cons, not_or] at hn
          have := ih (t.vwrite b sp (writesOf ws b)) hn.2
          rw [List.foldl_cons]
          exact ⟨by rw [this.1, vreg_vwrite_ne _ _ _ _ _ hn.1], this.2⟩
      obtain ⟨h1, h2⟩ := key as (t.vwrite n sp (writesOf ws n)) ha
      show (Team.vreg _ n).tag = _
      rw [h1, tag_vwrite, shape_congr h2 h1]

/-- Two lanes of a mask write different registers of operand k (rule 1 of R48). -/
def Spread (tg : List (List Nat)) (k : Nat) (m : Mask) : Prop := ∃ a b, m.getLsbD a = true ∧ m.getLsbD b = true ∧ tgAt tg a k ≠ tgAt tg b k

/-- A register that some lane of the mask writes has the tag of R48. -/
theorem tag_dst (t : Team) (tg : List (List Nat)) (k j : Nat) (m : Mask) (f : Nat → Elem) (l : Nat) (hl : m.getLsbD l = true) :
    (Spread tg k m → ((t.dst tg k j m f).vreg (tgAt tg l k + j)).tag = .general) ∧
    (¬ Spread tg k m → ((t.dst tg k j m f).vreg (tgAt tg l k + j)).tag = (t.dst tg k j m f).shape (tgAt tg l k + j)) := by
  have hin : tgAt tg l k + j ∈ (((lanesOf m).map (fun l => (tgAt tg l k + j, l, f l))).map (fun p => p.1)).eraseDups := by
    rw [List.mem_eraseDups, List.map_map, List.mem_map]
    exact ⟨l, (mem_lanesOf m l).2 hl, rfl⟩
  have hd : ((t.dst tg k j m f).vreg (tgAt tg l k + j)).tag =
      if decide (1 < ((((lanesOf m).map (fun l => (tgAt tg l k + j, l, f l))).map (fun p => p.1)).eraseDups).length) then .general
      else (t.dst tg k j m f).shape (tgAt tg l k + j) := tag_vwriteFold _ _ _ t _ hin
  have hs : 1 < ((((lanesOf m).map (fun l => (tgAt tg l k + j, l, f l))).map (fun p => p.1)).eraseDups).length ↔ Spread tg k m := by
    rw [one_lt_eraseDups, List.map_map]
    simp only [List.mem_map, Function.comp_def, mem_lanesOf]
    constructor
    · rintro ⟨_, ⟨a, ha, rfl⟩, _, ⟨b, hb, rfl⟩, hab⟩
      exact ⟨a, b, ha, hb, fun h => hab (by rw [h])⟩
    · rintro ⟨a, b, ha, hb, hab⟩
      exact ⟨_, ⟨a, ha, rfl⟩, _, ⟨b, hb, rfl⟩, fun h => hab (by omega)⟩
  constructor
  · intro h; rw [hd, if_pos (by simpa using hs.2 h)]
  · intro h; rw [hd, if_neg (by simpa using fun x => h (hs.1 x))]

/-- A register that some lane of the mask writes in a run has the tag of R48. -/
theorem tag_dstRun (t : Team) (tg : List (List Nat)) (k n : Nat) (m : Mask) (f : Nat → Nat → Elem) (x l : Nat) (hl : m.getLsbD l = true)
    (hx : tgAt tg l k ≤ x ∧ x < tgAt tg l k + n) :
    (Spread tg k m → ((t.dstRun tg k n m f).vreg x).tag = .general) ∧
    (¬ Spread tg k m → ((t.dstRun tg k n m f).vreg x).tag = (t.dstRun tg k n m f).shape x) := by
  induction n generalizing l with
  | zero => omega
  | succ n ih =>
    have hs : t.dstRun tg k (n + 1) m f = (t.dstRun tg k n m f).dst tg k n m (f n) := by
      unfold Team.dstRun
      rw [List.range_succ, List.foldl_append, List.foldl_cons, List.foldl_nil]
    rw [hs]
    by_cases h : ∃ a, m.getLsbD a = true ∧ x = tgAt tg a k + n
    · obtain ⟨a, ha, rfl⟩ := h
      exact tag_dst _ tg k n m (f n) a ha
    · have hv := vreg_dst (t.dstRun tg k n m f) tg k n m (f n) x (fun a ha hxa => h ⟨a, ha, hxa⟩)
      have hw : ((t.dstRun tg k n m f).dst tg k n m (f n)).width = (t.dstRun tg k n m f).width := by rw [dst_eq]
      rw [hv, shape_congr hw hv]
      exact ih l hl ⟨hx.1, Nat.lt_of_le_of_ne (by omega) (fun e => h ⟨l, hl, e⟩)⟩

/-- A pair is a run of two. -/
theorem dstPair_run (t : Team) (tg : List (List Nat)) (k : Nat) (m : Mask) (v : Nat → DWord) (p : Nat → Bool) :
    t.dstPair tg k m v p = t.dstRun tg k 2 m (fun j l => { val := bits (v l) (32 * j) 32, pois := p l }) := rfl

/-! ## Predicates -/

theorem thread_putPreds (t : Team) (n : Nat) (e : Mask) (v p : Nat → Bool) :
    t.putPreds n e v p = { t with threads := (t.putPreds n e v p).threads } ∧
    ∀ l, l < t.width → (t.putPreds n e v p).thread l =
      if e.getLsbD l then { t.thread l with pval := put24 (t.thread l).pval n (v l), ppois := put24 (t.thread l).ppois n (p l) } else t.thread l := by
  have key : ∀ (ls : List Nat) (t : Team), ls.Nodup →
      let t' := ls.foldl (fun t l => t.setPred n l (v l) (p l)) t
      t' = { t with threads := t'.threads } ∧ ∀ l, l < t.width → t'.thread l =
        if l ∈ ls then { t.thread l with pval := put24 (t.thread l).pval n (v l), ppois := put24 (t.thread l).ppois n (p l) } else t.thread l := by
    intro ls
    induction ls with
    | nil => intro t _; simp
    | cons a ls ih =>
      intro t hn
      rw [List.nodup_cons] at hn
      obtain ⟨h1, h2⟩ := ih (t.setPred n a (v a) (p a)) hn.2
      refine ⟨?_, ?_⟩
      · simp only [List.foldl_cons]; rw [h1]; rfl
      · intro l hl
        simp only [List.foldl_cons]
        rw [h2 l hl, Team.setPred, thread_setThread _ _ _ _ hl]
        by_cases ha : l = a
        · subst ha; simp [hn.1]
        · simp [ha]
  have := key (lanesOf e) t (lanesOf_nodup e)
  refine ⟨this.1, fun l hl => ?_⟩
  have h := this.2 l hl
  simp only [mem_lanesOf] at h
  exact h

end Sys2Proof.Machine
end

