-- ==== Sys2Proof/Laws/Issue.lean ====
section
/-!
SUPPORT. Laws/Issue: what State.issue answers when the instruction runs, what settling its index registers changes, and the
effect of an instruction whose part writes elements, threads or TEAM_STICKY.
-/

namespace Sys2Proof.Machine

/-- The state that an instruction's part receives. -/
def State.settled (s : State) (F : Form) (r : Reg) : State := s.settle r (s.lanes r) (s.unset F r).isSome

theorem runs_refusal {s : State} {F : Form} {r : Reg} (h : s.runs F r = true) : s.refusal F.cls (F.ok r) F.rnd F.sat = none := by
  simp only [State.runs, Bool.and_eq_true, decide_eq_true_eq] at h; exact h.1.1.1.1.1

/-- An instruction that issues closes with what its part answers. -/
theorem issueLanes_runs {s : State} {F : Form} {r : Reg} (body : State → Mask → List (List Nat) → Out) (h : s.runs F r = true) :
    s.issueLanes F r body = s.close (body (s.settled F r) (s.lanes r) (s.me.targets F r)) := by
  simp only [State.runs, Bool.and_eq_true, decide_eq_true_eq, Bool.not_eq_true', Bool.or_eq_true] at h
  obtain ⟨⟨⟨⟨⟨_, h2⟩, h3⟩, h4⟩, h5⟩, h6⟩ := h
  simp only [State.issueLanes, h2, ne_eq, not_true_eq_false, if_false]
  have hl : r.lanes s.me s.grp = s.lanes r := rfl
  simp only [hl, h3, if_false, h4, Bool.false_eq_true, h5, not_true_eq_false]
  have hu : s.me.unsetRead (F.reads r (s.lanes r) s.grp (s.me.targets F r)) = s.unset F r := rfl
  rw [hu]
  unfold State.settled
  cases hx : s.unset F r with
  | none => rfl
  | some n =>
    rw [hx] at h6
    have : bit s.me.trapEn 0 = false := by simpa using h6
    simp [this]

theorem issue_runs {s : State} {F : Form} {r : Reg} (body : State → Mask → List (List Nat) → Out) (h : s.runs F r = true) :
    s.issue F r body = s.close (body (s.settled F r) (s.lanes r) (s.me.targets F r)) := by
  simp only [State.issue, runs_refusal h]
  exact issueLanes_runs body h

/-! ## The settled state -/

theorem settled_me_eq (s : State) (F : Form) (r : Reg) : s.settled F r = { s with me := (s.settled F r).me } := rfl
@[simp] theorem settled_grp (s : State) (F : Form) (r : Reg) : (s.settled F r).grp = s.grp := rfl
@[simp] theorem settled_ctx (s : State) (F : Form) (r : Reg) : (s.settled F r).ctx = s.ctx := rfl

theorem settled_team (s : State) (F : Form) (r : Reg) :
    (s.settled F r).me = { s.me with threads := (s.settled F r).me.threads, sticky := s.me.sticky ||| s.unsetBit F r } := by
  simp only [State.settled, State.settle, State.unsetBit]
  split <;> split <;> simp_all [Team.mapThreads, Team.mapLanes]

@[simp] theorem settled_width (s : State) (F : Form) (r : Reg) : (s.settled F r).me.width = s.me.width := by rw [settled_team]
@[simp] theorem settled_vregs (s : State) (F : Form) (r : Reg) : (s.settled F r).me.vregs = s.me.vregs := by rw [settled_team]
@[simp] theorem settled_trapEn (s : State) (F : Form) (r : Reg) : (s.settled F r).me.trapEn = s.me.trapEn := by rw [settled_team]
@[simp] theorem settled_velem (s : State) (F : Form) (r : Reg) (n l : Nat) : (s.settled F r).me.velem n l = s.me.velem n l := by
  rw [settled_team]; rfl
@[simp] theorem settled_sreg (s : State) (F : Form) (r : Reg) (n : Nat) : (s.settled F r).me.sreg n = s.me.sreg n := by
  rw [settled_team]; rfl
@[simp] theorem settled_mreg (s : State) (F : Form) (r : Reg) (n : Nat) : (s.settled F r).me.mreg n = s.me.mreg n := by
  rw [settled_team]; rfl
@[simp] theorem settled_sticky (s : State) (F : Form) (r : Reg) : (s.settled F r).me.sticky = s.me.sticky ||| s.unsetBit F r := by
  rw [settled_team]
@[simp] theorem settled_src (s : State) (F : Form) (r : Reg) (tg : List (List Nat)) (k l : Nat) :
    (s.settled F r).me.src tg k l = s.me.src tg k l := settled_velem s F r _ _
@[simp] theorem settled_srcAt (s : State) (F : Form) (r : Reg) (tg : List (List Nat)) (k j l : Nat) :
    (s.settled F r).me.srcAt tg k j l = s.me.srcAt tg k j l := settled_velem s F r _ _

theorem settled_thread (s : State) (F : Form) (r : Reg) (l : Nat) (h : l < s.me.width) :
    (s.settled F r).me.thread l =
      if r.inds.any (fun p => decide (p.2 ≠ 0)) && (s.lanes r).getLsbD l then r.modified (s.me.thread l) else s.me.thread l := by
  have key : ∀ (t : Team) (u : Bool), (if u then { t with sticky := t.sticky ||| 1 } else t).thread l = t.thread l := by
    intro t u; cases u <;> rfl
  simp only [State.settled, State.settle]
  rw [key]
  by_cases hi : r.inds.any (fun p => decide (p.2 ≠ 0)) = true
  · rw [if_pos hi, thread_mapThreads _ _ _ _ h]
    simp only [hi, Bool.true_and]
  · rw [if_neg hi]
    simp only [hi, Bool.false_and, Bool.false_eq_true, if_false]

/-- Index registers apart, a lane's thread as before. -/
theorem settled_thread_preds (s : State) (F : Form) (r : Reg) (l : Nat) (h : l < s.me.width) :
    ((s.settled F r).me.thread l).pval = (s.me.thread l).pval ∧ ((s.settled F r).me.thread l).ppois = (s.me.thread l).ppois := by
  rw [settled_thread s F r l h]; split <;> exact ⟨rfl, rfl⟩

theorem settled_pred (s : State) (F : Form) (r : Reg) (n l : Nat) (h : l < s.me.width) :
    (s.settled F r).me.pred n l = s.me.pred n l := by
  simp [Team.pred, (settled_thread_preds s F r l h).1]

theorem settled_predPois (s : State) (F : Form) (r : Reg) (n l : Nat) (h : l < s.me.width) :
    (s.settled F r).me.predPois n l = s.me.predPois n l := by
  simp [Team.predPois, (settled_thread_preds s F r l h).2]

/-! ## The effect of an instruction -/

/-- An instruction whose part leaves the team with elements, threads and TEAM_STICKY written. -/
theorem effect_go {s : State} {F : Form} {r : Reg} {t' : Team} {w : Nat → Nat → Option Elem} {f : Nat → Thread → Thread} {more : Word}
    (ht : t' = { (s.settled F r).me with vregs := t'.vregs, threads := t'.threads, sticky := t'.sticky })
    (he : ∀ n l, l < s.me.width → t'.velem n l = (w n l).getD (s.me.velem n l))
    (hf : ∀ l, l < s.me.width → t'.thread l = f l ((s.settled F r).me.thread l))
    (hv : ∀ n, (∀ l, w n l = none) → t'.vreg n = s.me.vreg n)
    (hc : ∀ l th pc hdr, f l { th with pc := pc, hdr := hdr } = { f l th with pc := pc, hdr := hdr })
    (hs : t'.sticky = s.me.sticky ||| s.unsetBit F r ||| more)
    (hg : Scattered w → ∀ n l, w n l ≠ none → (t'.vreg n).tag = .general)
    (hh : ¬ Scattered w → ∀ n l, w n l ≠ none → (t'.vreg n).tag = t'.shape n) :
    Effect s ({ s.settled F r with me := t' } : State).advance r w f (s.unsetBit F r ||| more) := by
  have hw : t'.width = s.me.width := by rw [ht]; simp
  have ha : t' = { s.me with vregs := t'.vregs, threads := t'.threads, sticky := t'.sticky } := by
    rw [ht, settled_team]
  refine ⟨rfl, ?_, ?_, ?_, hv, hg, hh, ?_⟩
  · exact congrArg (fun u : Team => { u with threads := (t'.mapThreads s.grp (fun th => { th with pc := s.ctx.npc, hdr := s.ctx.nhdr })).threads }) ha
  · intro n l hl
    exact he n l hl
  · intro l hl
    show (Team.mapThreads t' s.grp _).thread l = _
    rw [thread_mapThreads _ _ _ _ (by rw [hw]; exact hl), hf l hl, settled_thread s F r l hl]
    unfold State.onward
    simp only
    by_cases hg : s.grp.getLsbD l = true
    · rw [if_pos hg, if_pos hg]; exact (hc l _ _ _).symm
    · rw [if_neg hg, if_neg hg]
  · show t'.sticky = _
    rw [hs, BitVec.or_assoc]

/-- The registers that the executing lanes write. -/
theorem into_ne_none {s : State} {F : Form} {r : Reg} {n : Nat} {f : Nat → Nat → Elem} {x l : Nat} :
    s.into F r n f x l ≠ none ↔ (s.lanes r).getLsbD l = true ∧ s.tgt F r 0 l ≤ x ∧ x < s.tgt F r 0 l + n := by
  unfold State.into
  split <;> simp_all

/-- Two lanes write different registers when their operand D names different ones. -/
theorem scattered_into {s : State} {F : Form} {r : Reg} {n : Nat} {f : Nat → Nat → Elem} (hn : 0 < n) :
    Scattered (s.into F r n f) ↔ Spread (s.me.targets F r) 0 (s.lanes r) := by
  have hnone : ∀ x l, s.into F r n f x l = none ↔ ¬ ((s.lanes r).getLsbD l = true ∧ s.tgt F r 0 l ≤ x ∧ x < s.tgt F r 0 l + n) :=
    fun x l => by rw [← into_ne_none (f := f), ne_eq, Decidable.not_not]
  constructor
  · rintro ⟨x, a, b, y, h1, h2, h3⟩
    rw [into_ne_none] at h1 h3
    rw [hnone] at h2
    refine ⟨a, b, h1.1, h3.1, fun h => h2 ⟨h3.1, ?_⟩⟩
    have : s.tgt F r 0 a = s.tgt F r 0 b := h
    rw [← this]; exact h1.2
  · rintro ⟨a, b, ha, hb, hab⟩
    have hne : s.tgt F r 0 a ≠ s.tgt F r 0 b := hab
    rcases Nat.lt_or_gt_of_ne hne with h | h
    · exact ⟨s.tgt F r 0 a, a, b, s.tgt F r 0 b, into_ne_none.2 ⟨ha, by omega⟩, (hnone _ _).2 (fun x => by omega), into_ne_none.2 ⟨hb, by omega⟩⟩
    · exact ⟨s.tgt F r 0 b, b, a, s.tgt F r 0 a, into_ne_none.2 ⟨hb, by omega⟩, (hnone _ _).2 (fun x => by omega), into_ne_none.2 ⟨ha, by omega⟩⟩

/-- A run of n results per executing lane: one for a word, two for a pair. -/
theorem effect_into {s : State} {F : Form} {r : Reg} (n : Nat) (f g : Nat → Nat → Elem) (hn : 0 < n) (hfg : ∀ j l, l < s.me.width → f j l = g j l) :
    Effect s ({ s.settled F r with me := (s.settled F r).me.dstRun (s.me.targets F r) 0 n (s.lanes r) f } : State).advance r
      (s.into F r n g) sameThread (s.unsetBit F r) := by
  have hd := dstRun_spec (s.settled F r).me (s.me.targets F r) 0 n (s.lanes r) f
  have h := @effect_go s F r ((s.settled F r).me.dstRun (s.me.targets F r) 0 n (s.lanes r) f) (s.into F r n g) sameThread 0
    ?_ ?_ ?_ ?_ (fun _ _ _ _ => rfl) ?_ ?_ ?_
  · simpa using h
  · rw [hd.1]
  · intro x l hl
    rw [hd.2 x l (by simpa using hl)]
    unfold State.into State.tgt
    by_cases hm : (s.lanes r).getLsbD l = true ∧ tgAt (s.me.targets F r) l 0 ≤ x ∧ x < tgAt (s.me.targets F r) l 0 + n
    · simp [hm, hfg _ l hl]
    · rw [if_neg hm, if_neg (by simpa [and_assoc] using hm)]
      simp
  · intro l _
    rw [hd.1]; rfl
  · intro x hx
    rw [vreg_dstRun]
    · unfold Team.vreg; simp
    · intro l hl hw
      exact absurd (hx l) (into_ne_none.2 ⟨hl, hw⟩)
  · rw [hd.1]; simp
  · intro hs x l hx
    rw [into_ne_none] at hx
    exact (tag_dstRun _ _ _ _ _ _ x l hx.1 hx.2).1 ((scattered_into hn).1 hs)
  · intro hs x l hx
    rw [into_ne_none] at hx
    exact (tag_dstRun _ _ _ _ _ _ x l hx.1 hx.2).2 (fun y => hs ((scattered_into hn).2 y))

/-- One result per executing lane. -/
theorem effect_putLanes {s : State} {F : Form} {r : Reg} (f g : Nat → Elem) (hfg : ∀ l, l < s.me.width → f l = g l) :
    Effect s ({ s.settled F r with me := (s.settled F r).me.dst (s.me.targets F r) 0 0 (s.lanes r) f } : State).advance r
      (s.one F r g) sameThread (s.unsetBit F r) :=
  effect_into 1 (fun _ => f) (fun _ => g) Nat.one_pos (fun _ => hfg)

/-- An instruction that is one issue of a part giving one result per lane. -/
theorem computes_of {i : Instr} {F : Form} {r : Reg} {body : State → Mask → List (List Nat) → Out} {v : State → Nat → Elem}
    (hx : ∀ s, s.runs F r = true → exec i s = s.issue F r body)
    (hb : ∀ s, s.runs F r = true → ∃ g, (∀ l, l < s.me.width → g l = v s l) ∧
      body (s.settled F r) (s.lanes r) (s.me.targets F r) = (s.settled F r).putLanes (s.lanes r) (s.me.targets F r) g) :
    Computes i F r v := by
  intro s hr _
  obtain ⟨g, hg, hgb⟩ := hb s hr
  refine ⟨({ s.settled F r with me := (s.settled F r).me.dst (s.me.targets F r) 0 0 (s.lanes r) g } : State).advance, ?_, ?_⟩
  · rw [hx s hr, issue_runs _ hr, hgb]; rfl
  · have := effect_putLanes (s := s) (F := F) (r := r) g (v s) hg
    simpa using this

end Sys2Proof.Machine
end

