-- ==== Sys2Proof/Laws/State.lean ====
section
/-!
SUPPORT. Laws/State: what each named update leaves of each field, one lemma per field, true by rfl, so that no later proof unfolds
a record update.
-/

namespace Sys2Proof.Machine

/-! ### State.setCore -/

@[simp] theorem State.setCore_me (s : State) (d c : Nat) (k : Core) : (s.setCore d c k).me = s.me := rfl
@[simp] theorem State.setCore_grp (s : State) (d c : Nat) (k : Core) : (s.setCore d c k).grp = s.grp := rfl
@[simp] theorem State.setCore_ctx (s : State) (d c : Nat) (k : Core) : (s.setCore d c k).ctx = s.ctx := rfl
@[simp] theorem State.setCore_teams (s : State) (d c : Nat) (k : Core) : (s.setCore d c k).teams = s.teams := rfl
@[simp] theorem State.setCore_blocks (s : State) (d c : Nat) (k : Core) : (s.setCore d c k).blocks = s.blocks := rfl
@[simp] theorem State.setCore_grids (s : State) (d c : Nat) (k : Core) : (s.setCore d c k).grids = s.grids := rfl
@[simp] theorem State.setCore_tmems (s : State) (d c : Nat) (k : Core) : (s.setCore d c k).tmems = s.tmems := rfl
@[simp] theorem State.setCore_dies (s : State) (d c : Nat) (k : Core) : (s.setCore d c k).dies = s.dies := rfl
@[simp] theorem State.setCore_queues (s : State) (d c : Nat) (k : Core) : (s.setCore d c k).queues = s.queues := rfl
@[simp] theorem State.setCore_passes (s : State) (d c : Nat) (k : Core) : (s.setCore d c k).passes = s.passes := rfl
@[simp] theorem State.setCore_jobs (s : State) (d c : Nat) (k : Core) : (s.setCore d c k).jobs = s.jobs := rfl
@[simp] theorem State.setCore_reds (s : State) (d c : Nat) (k : Core) : (s.setCore d c k).reds = s.reds := rfl
@[simp] theorem State.setCore_fmts (s : State) (d c : Nat) (k : Core) : (s.setCore d c k).fmts = s.fmts := rfl
@[simp] theorem State.setCore_mem (s : State) (d c : Nat) (k : Core) : (s.setCore d c k).mem = s.mem := rfl
@[simp] theorem State.setCore_bad (s : State) (d c : Nat) (k : Core) : (s.setCore d c k).bad = s.bad := rfl
@[simp] theorem State.setCore_mxOld (s : State) (d c : Nat) (k : Core) : (s.setCore d c k).mxOld = s.mxOld := rfl
@[simp] theorem State.setCore_csr (s : State) (d c : Nat) (k : Core) : (s.setCore d c k).csr = s.csr := rfl
@[simp] theorem State.setCore_parts (s : State) (d c : Nat) (k : Core) : (s.setCore d c k).parts = s.parts := rfl
@[simp] theorem State.setCore_present (s : State) (d c : Nat) (k : Core) : (s.setCore d c k).present = s.present := rfl
@[simp] theorem State.setCore_host4 (s : State) (d c : Nat) (k : Core) : (s.setCore d c k).host4 = s.host4 := rfl
@[simp] theorem State.setCore_form (s : State) (d c : Nat) (k : Core) : (s.setCore d c k).form = s.form := rfl
@[simp] theorem State.setCore_harvest (s : State) (d c : Nat) (k : Core) : (s.setCore d c k).harvest = s.harvest := rfl
@[simp] theorem State.setCore_memCfg (s : State) (d c : Nat) (k : Core) : (s.setCore d c k).memCfg = s.memCfg := rfl
@[simp] theorem State.setCore_memFails (s : State) (d c : Nat) (k : Core) : (s.setCore d c k).memFails = s.memFails := rfl
@[simp] theorem State.setCore_relayUp (s : State) (d c : Nat) (k : Core) : (s.setCore d c k).relayUp = s.relayUp := rfl
@[simp] theorem State.setCore_down (s : State) (d c : Nat) (k : Core) : (s.setCore d c k).down = s.down := rfl
@[simp] theorem State.setCore_bootSrc (s : State) (d c : Nat) (k : Core) : (s.setCore d c k).bootSrc = s.bootSrc := rfl
@[simp] theorem State.setCore_bootLen (s : State) (d c : Nat) (k : Core) : (s.setCore d c k).bootLen = s.bootLen := rfl
@[simp] theorem State.setCore_bootState (s : State) (d c : Nat) (k : Core) : (s.setCore d c k).bootState = s.bootState := rfl
@[simp] theorem State.setCore_bootReason (s : State) (d c : Nat) (k : Core) : (s.setCore d c k).bootReason = s.bootReason := rfl
@[simp] theorem State.setCore_fwSel (s : State) (d c : Nat) (k : Core) : (s.setCore d c k).fwSel = s.fwSel := rfl
@[simp] theorem State.setCore_fwEntry (s : State) (d c : Nat) (k : Core) : (s.setCore d c k).fwEntry = s.fwEntry := rfl
@[simp] theorem State.setCore_fuses (s : State) (d c : Nat) (k : Core) : (s.setCore d c k).fuses = s.fuses := rfl
@[simp] theorem State.setCore_svcDone (s : State) (d c : Nat) (k : Core) : (s.setCore d c k).svcDone = s.svcDone := rfl
@[simp] theorem State.setCore_splNext (s : State) (d c : Nat) (k : Core) : (s.setCore d c k).splNext = s.splNext := rfl
@[simp] theorem State.setCore_rerun (s : State) (d c : Nat) (k : Core) : (s.setCore d c k).rerun = s.rerun := rfl
@[simp] theorem State.setCore_tripped (s : State) (d c : Nat) (k : Core) : (s.setCore d c k).tripped = s.tripped := rfl
@[simp] theorem State.setCore_power (s : State) (d c : Nat) (k : Core) : (s.setCore d c k).power = s.power := rfl
@[simp] theorem State.setCore_irqs (s : State) (d c : Nat) (k : Core) : (s.setCore d c k).irqs = s.irqs := rfl
@[simp] theorem State.setCore_devWaits (s : State) (d c : Nat) (k : Core) : (s.setCore d c k).devWaits = s.devWaits := rfl
@[simp] theorem State.setCore_devRefused (s : State) (d c : Nat) (k : Core) : (s.setCore d c k).devRefused = s.devRefused := rfl
@[simp] theorem State.setCore_nextLseq (s : State) (d c : Nat) (k : Core) : (s.setCore d c k).nextLseq = s.nextLseq := rfl
@[simp] theorem State.setCore_nextId (s : State) (d c : Nat) (k : Core) : (s.setCore d c k).nextId = s.nextId := rfl
@[simp] theorem State.setCore_agenda (s : State) (d c : Nat) (k : Core) : (s.setCore d c k).agenda = s.agenda := rfl
@[simp] theorem State.setCore_fresh (s : State) (d c : Nat) (k : Core) : (s.setCore d c k).fresh = s.fresh := rfl
@[simp] theorem State.setCore_turn (s : State) (d c : Nat) (k : Core) : (s.setCore d c k).turn = s.turn := rfl

/-! ### State.setDie -/

@[simp] theorem State.setDie_me (s : State) (d : Nat) (x : Die) : (s.setDie d x).me = s.me := rfl
@[simp] theorem State.setDie_grp (s : State) (d : Nat) (x : Die) : (s.setDie d x).grp = s.grp := rfl
@[simp] theorem State.setDie_ctx (s : State) (d : Nat) (x : Die) : (s.setDie d x).ctx = s.ctx := rfl
@[simp] theorem State.setDie_teams (s : State) (d : Nat) (x : Die) : (s.setDie d x).teams = s.teams := rfl
@[simp] theorem State.setDie_blocks (s : State) (d : Nat) (x : Die) : (s.setDie d x).blocks = s.blocks := rfl
@[simp] theorem State.setDie_grids (s : State) (d : Nat) (x : Die) : (s.setDie d x).grids = s.grids := rfl
@[simp] theorem State.setDie_tmems (s : State) (d : Nat) (x : Die) : (s.setDie d x).tmems = s.tmems := rfl
@[simp] theorem State.setDie_cores (s : State) (d : Nat) (x : Die) : (s.setDie d x).cores = s.cores := rfl
@[simp] theorem State.setDie_queues (s : State) (d : Nat) (x : Die) : (s.setDie d x).queues = s.queues := rfl
@[simp] theorem State.setDie_passes (s : State) (d : Nat) (x : Die) : (s.setDie d x).passes = s.passes := rfl
@[simp] theorem State.setDie_jobs (s : State) (d : Nat) (x : Die) : (s.setDie d x).jobs = s.jobs := rfl
@[simp] theorem State.setDie_reds (s : State) (d : Nat) (x : Die) : (s.setDie d x).reds = s.reds := rfl
@[simp] theorem State.setDie_fmts (s : State) (d : Nat) (x : Die) : (s.setDie d x).fmts = s.fmts := rfl
@[simp] theorem State.setDie_mem (s : State) (d : Nat) (x : Die) : (s.setDie d x).mem = s.mem := rfl
@[simp] theorem State.setDie_bad (s : State) (d : Nat) (x : Die) : (s.setDie d x).bad = s.bad := rfl
@[simp] theorem State.setDie_mxOld (s : State) (d : Nat) (x : Die) : (s.setDie d x).mxOld = s.mxOld := rfl
@[simp] theorem State.setDie_csr (s : State) (d : Nat) (x : Die) : (s.setDie d x).csr = s.csr := rfl
@[simp] theorem State.setDie_parts (s : State) (d : Nat) (x : Die) : (s.setDie d x).parts = s.parts := rfl
@[simp] theorem State.setDie_present (s : State) (d : Nat) (x : Die) : (s.setDie d x).present = s.present := rfl
@[simp] theorem State.setDie_host4 (s : State) (d : Nat) (x : Die) : (s.setDie d x).host4 = s.host4 := rfl
@[simp] theorem State.setDie_form (s : State) (d : Nat) (x : Die) : (s.setDie d x).form = s.form := rfl
@[simp] theorem State.setDie_harvest (s : State) (d : Nat) (x : Die) : (s.setDie d x).harvest = s.harvest := rfl
@[simp] theorem State.setDie_memCfg (s : State) (d : Nat) (x : Die) : (s.setDie d x).memCfg = s.memCfg := rfl
@[simp] theorem State.setDie_memFails (s : State) (d : Nat) (x : Die) : (s.setDie d x).memFails = s.memFails := rfl
@[simp] theorem State.setDie_relayUp (s : State) (d : Nat) (x : Die) : (s.setDie d x).relayUp = s.relayUp := rfl
@[simp] theorem State.setDie_down (s : State) (d : Nat) (x : Die) : (s.setDie d x).down = s.down := rfl
@[simp] theorem State.setDie_bootSrc (s : State) (d : Nat) (x : Die) : (s.setDie d x).bootSrc = s.bootSrc := rfl
@[simp] theorem State.setDie_bootLen (s : State) (d : Nat) (x : Die) : (s.setDie d x).bootLen = s.bootLen := rfl
@[simp] theorem State.setDie_bootState (s : State) (d : Nat) (x : Die) : (s.setDie d x).bootState = s.bootState := rfl
@[simp] theorem State.setDie_bootReason (s : State) (d : Nat) (x : Die) : (s.setDie d x).bootReason = s.bootReason := rfl
@[simp] theorem State.setDie_fwSel (s : State) (d : Nat) (x : Die) : (s.setDie d x).fwSel = s.fwSel := rfl
@[simp] theorem State.setDie_fwEntry (s : State) (d : Nat) (x : Die) : (s.setDie d x).fwEntry = s.fwEntry := rfl
@[simp] theorem State.setDie_fuses (s : State) (d : Nat) (x : Die) : (s.setDie d x).fuses = s.fuses := rfl
@[simp] theorem State.setDie_svcDone (s : State) (d : Nat) (x : Die) : (s.setDie d x).svcDone = s.svcDone := rfl
@[simp] theorem State.setDie_splNext (s : State) (d : Nat) (x : Die) : (s.setDie d x).splNext = s.splNext := rfl
@[simp] theorem State.setDie_rerun (s : State) (d : Nat) (x : Die) : (s.setDie d x).rerun = s.rerun := rfl
@[simp] theorem State.setDie_tripped (s : State) (d : Nat) (x : Die) : (s.setDie d x).tripped = s.tripped := rfl
@[simp] theorem State.setDie_power (s : State) (d : Nat) (x : Die) : (s.setDie d x).power = s.power := rfl
@[simp] theorem State.setDie_irqs (s : State) (d : Nat) (x : Die) : (s.setDie d x).irqs = s.irqs := rfl
@[simp] theorem State.setDie_devWaits (s : State) (d : Nat) (x : Die) : (s.setDie d x).devWaits = s.devWaits := rfl
@[simp] theorem State.setDie_devRefused (s : State) (d : Nat) (x : Die) : (s.setDie d x).devRefused = s.devRefused := rfl
@[simp] theorem State.setDie_nextLseq (s : State) (d : Nat) (x : Die) : (s.setDie d x).nextLseq = s.nextLseq := rfl
@[simp] theorem State.setDie_nextId (s : State) (d : Nat) (x : Die) : (s.setDie d x).nextId = s.nextId := rfl
@[simp] theorem State.setDie_agenda (s : State) (d : Nat) (x : Die) : (s.setDie d x).agenda = s.agenda := rfl
@[simp] theorem State.setDie_fresh (s : State) (d : Nat) (x : Die) : (s.setDie d x).fresh = s.fresh := rfl
@[simp] theorem State.setDie_turn (s : State) (d : Nat) (x : Die) : (s.setDie d x).turn = s.turn := rfl

/-! ### State.setBlock -/

@[simp] theorem State.setBlock_me (s : State) (b : Block) : (s.setBlock b).me = s.me := rfl
@[simp] theorem State.setBlock_grp (s : State) (b : Block) : (s.setBlock b).grp = s.grp := rfl
@[simp] theorem State.setBlock_ctx (s : State) (b : Block) : (s.setBlock b).ctx = s.ctx := rfl
@[simp] theorem State.setBlock_teams (s : State) (b : Block) : (s.setBlock b).teams = s.teams := rfl
@[simp] theorem State.setBlock_grids (s : State) (b : Block) : (s.setBlock b).grids = s.grids := rfl
@[simp] theorem State.setBlock_tmems (s : State) (b : Block) : (s.setBlock b).tmems = s.tmems := rfl
@[simp] theorem State.setBlock_cores (s : State) (b : Block) : (s.setBlock b).cores = s.cores := rfl
@[simp] theorem State.setBlock_dies (s : State) (b : Block) : (s.setBlock b).dies = s.dies := rfl
@[simp] theorem State.setBlock_queues (s : State) (b : Block) : (s.setBlock b).queues = s.queues := rfl
@[simp] theorem State.setBlock_passes (s : State) (b : Block) : (s.setBlock b).passes = s.passes := rfl
@[simp] theorem State.setBlock_jobs (s : State) (b : Block) : (s.setBlock b).jobs = s.jobs := rfl
@[simp] theorem State.setBlock_reds (s : State) (b : Block) : (s.setBlock b).reds = s.reds := rfl
@[simp] theorem State.setBlock_fmts (s : State) (b : Block) : (s.setBlock b).fmts = s.fmts := rfl
@[simp] theorem State.setBlock_mem (s : State) (b : Block) : (s.setBlock b).mem = s.mem := rfl
@[simp] theorem State.setBlock_bad (s : State) (b : Block) : (s.setBlock b).bad = s.bad := rfl
@[simp] theorem State.setBlock_mxOld (s : State) (b : Block) : (s.setBlock b).mxOld = s.mxOld := rfl
@[simp] theorem State.setBlock_csr (s : State) (b : Block) : (s.setBlock b).csr = s.csr := rfl
@[simp] theorem State.setBlock_parts (s : State) (b : Block) : (s.setBlock b).parts = s.parts := rfl
@[simp] theorem State.setBlock_present (s : State) (b : Block) : (s.setBlock b).present = s.present := rfl
@[simp] theorem State.setBlock_host4 (s : State) (b : Block) : (s.setBlock b).host4 = s.host4 := rfl
@[simp] theorem State.setBlock_form (s : State) (b : Block) : (s.setBlock b).form = s.form := rfl
@[simp] theorem State.setBlock_harvest (s : State) (b : Block) : (s.setBlock b).harvest = s.harvest := rfl
@[simp] theorem State.setBlock_memCfg (s : State) (b : Block) : (s.setBlock b).memCfg = s.memCfg := rfl
@[simp] theorem State.setBlock_memFails (s : State) (b : Block) : (s.setBlock b).memFails = s.memFails := rfl
@[simp] theorem State.setBlock_relayUp (s : State) (b : Block) : (s.setBlock b).relayUp = s.relayUp := rfl
@[simp] theorem State.setBlock_down (s : State) (b : Block) : (s.setBlock b).down = s.down := rfl
@[simp] theorem State.setBlock_bootSrc (s : State) (b : Block) : (s.setBlock b).bootSrc = s.bootSrc := rfl
@[simp] theorem State.setBlock_bootLen (s : State) (b : Block) : (s.setBlock b).bootLen = s.bootLen := rfl
@[simp] theorem State.setBlock_bootState (s : State) (b : Block) : (s.setBlock b).bootState = s.bootState := rfl
@[simp] theorem State.setBlock_bootReason (s : State) (b : Block) : (s.setBlock b).bootReason = s.bootReason := rfl
@[simp] theorem State.setBlock_fwSel (s : State) (b : Block) : (s.setBlock b).fwSel = s.fwSel := rfl
@[simp] theorem State.setBlock_fwEntry (s : State) (b : Block) : (s.setBlock b).fwEntry = s.fwEntry := rfl
@[simp] theorem State.setBlock_fuses (s : State) (b : Block) : (s.setBlock b).fuses = s.fuses := rfl
@[simp] theorem State.setBlock_svcDone (s : State) (b : Block) : (s.setBlock b).svcDone = s.svcDone := rfl
@[simp] theorem State.setBlock_splNext (s : State) (b : Block) : (s.setBlock b).splNext = s.splNext := rfl
@[simp] theorem State.setBlock_rerun (s : State) (b : Block) : (s.setBlock b).rerun = s.rerun := rfl
@[simp] theorem State.setBlock_tripped (s : State) (b : Block) : (s.setBlock b).tripped = s.tripped := rfl
@[simp] theorem State.setBlock_power (s : State) (b : Block) : (s.setBlock b).power = s.power := rfl
@[simp] theorem State.setBlock_irqs (s : State) (b : Block) : (s.setBlock b).irqs = s.irqs := rfl
@[simp] theorem State.setBlock_devWaits (s : State) (b : Block) : (s.setBlock b).devWaits = s.devWaits := rfl
@[simp] theorem State.setBlock_devRefused (s : State) (b : Block) : (s.setBlock b).devRefused = s.devRefused := rfl
@[simp] theorem State.setBlock_nextLseq (s : State) (b : Block) : (s.setBlock b).nextLseq = s.nextLseq := rfl
@[simp] theorem State.setBlock_nextId (s : State) (b : Block) : (s.setBlock b).nextId = s.nextId := rfl
@[simp] theorem State.setBlock_agenda (s : State) (b : Block) : (s.setBlock b).agenda = s.agenda := rfl
@[simp] theorem State.setBlock_fresh (s : State) (b : Block) : (s.setBlock b).fresh = s.fresh := rfl
@[simp] theorem State.setBlock_turn (s : State) (b : Block) : (s.setBlock b).turn = s.turn := rfl

/-! ### State.setGrid -/

@[simp] theorem State.setGrid_me (s : State) (g : Grid) : (s.setGrid g).me = s.me := rfl
@[simp] theorem State.setGrid_grp (s : State) (g : Grid) : (s.setGrid g).grp = s.grp := rfl
@[simp] theorem State.setGrid_ctx (s : State) (g : Grid) : (s.setGrid g).ctx = s.ctx := rfl
@[simp] theorem State.setGrid_teams (s : State) (g : Grid) : (s.setGrid g).teams = s.teams := rfl
@[simp] theorem State.setGrid_blocks (s : State) (g : Grid) : (s.setGrid g).blocks = s.blocks := rfl
@[simp] theorem State.setGrid_tmems (s : State) (g : Grid) : (s.setGrid g).tmems = s.tmems := rfl
@[simp] theorem State.setGrid_cores (s : State) (g : Grid) : (s.setGrid g).cores = s.cores := rfl
@[simp] theorem State.setGrid_dies (s : State) (g : Grid) : (s.setGrid g).dies = s.dies := rfl
@[simp] theorem State.setGrid_queues (s : State) (g : Grid) : (s.setGrid g).queues = s.queues := rfl
@[simp] theorem State.setGrid_passes (s : State) (g : Grid) : (s.setGrid g).passes = s.passes := rfl
@[simp] theorem State.setGrid_jobs (s : State) (g : Grid) : (s.setGrid g).jobs = s.jobs := rfl
@[simp] theorem State.setGrid_reds (s : State) (g : Grid) : (s.setGrid g).reds = s.reds := rfl
@[simp] theorem State.setGrid_fmts (s : State) (g : Grid) : (s.setGrid g).fmts = s.fmts := rfl
@[simp] theorem State.setGrid_mem (s : State) (g : Grid) : (s.setGrid g).mem = s.mem := rfl
@[simp] theorem State.setGrid_bad (s : State) (g : Grid) : (s.setGrid g).bad = s.bad := rfl
@[simp] theorem State.setGrid_mxOld (s : State) (g : Grid) : (s.setGrid g).mxOld = s.mxOld := rfl
@[simp] theorem State.setGrid_csr (s : State) (g : Grid) : (s.setGrid g).csr = s.csr := rfl
@[simp] theorem State.setGrid_parts (s : State) (g : Grid) : (s.setGrid g).parts = s.parts := rfl
@[simp] theorem State.setGrid_present (s : State) (g : Grid) : (s.setGrid g).present = s.present := rfl
@[simp] theorem State.setGrid_host4 (s : State) (g : Grid) : (s.setGrid g).host4 = s.host4 := rfl
@[simp] theorem State.setGrid_form (s : State) (g : Grid) : (s.setGrid g).form = s.form := rfl
@[simp] theorem State.setGrid_harvest (s : State) (g : Grid) : (s.setGrid g).harvest = s.harvest := rfl
@[simp] theorem State.setGrid_memCfg (s : State) (g : Grid) : (s.setGrid g).memCfg = s.memCfg := rfl
@[simp] theorem State.setGrid_memFails (s : State) (g : Grid) : (s.setGrid g).memFails = s.memFails := rfl
@[simp] theorem State.setGrid_relayUp (s : State) (g : Grid) : (s.setGrid g).relayUp = s.relayUp := rfl
@[simp] theorem State.setGrid_down (s : State) (g : Grid) : (s.setGrid g).down = s.down := rfl
@[simp] theorem State.setGrid_bootSrc (s : State) (g : Grid) : (s.setGrid g).bootSrc = s.bootSrc := rfl
@[simp] theorem State.setGrid_bootLen (s : State) (g : Grid) : (s.setGrid g).bootLen = s.bootLen := rfl
@[simp] theorem State.setGrid_bootState (s : State) (g : Grid) : (s.setGrid g).bootState = s.bootState := rfl
@[simp] theorem State.setGrid_bootReason (s : State) (g : Grid) : (s.setGrid g).bootReason = s.bootReason := rfl
@[simp] theorem State.setGrid_fwSel (s : State) (g : Grid) : (s.setGrid g).fwSel = s.fwSel := rfl
@[simp] theorem State.setGrid_fwEntry (s : State) (g : Grid) : (s.setGrid g).fwEntry = s.fwEntry := rfl
@[simp] theorem State.setGrid_fuses (s : State) (g : Grid) : (s.setGrid g).fuses = s.fuses := rfl
@[simp] theorem State.setGrid_svcDone (s : State) (g : Grid) : (s.setGrid g).svcDone = s.svcDone := rfl
@[simp] theorem State.setGrid_splNext (s : State) (g : Grid) : (s.setGrid g).splNext = s.splNext := rfl
@[simp] theorem State.setGrid_rerun (s : State) (g : Grid) : (s.setGrid g).rerun = s.rerun := rfl
@[simp] theorem State.setGrid_tripped (s : State) (g : Grid) : (s.setGrid g).tripped = s.tripped := rfl
@[simp] theorem State.setGrid_power (s : State) (g : Grid) : (s.setGrid g).power = s.power := rfl
@[simp] theorem State.setGrid_irqs (s : State) (g : Grid) : (s.setGrid g).irqs = s.irqs := rfl
@[simp] theorem State.setGrid_devWaits (s : State) (g : Grid) : (s.setGrid g).devWaits = s.devWaits := rfl
@[simp] theorem State.setGrid_devRefused (s : State) (g : Grid) : (s.setGrid g).devRefused = s.devRefused := rfl
@[simp] theorem State.setGrid_nextLseq (s : State) (g : Grid) : (s.setGrid g).nextLseq = s.nextLseq := rfl
@[simp] theorem State.setGrid_nextId (s : State) (g : Grid) : (s.setGrid g).nextId = s.nextId := rfl
@[simp] theorem State.setGrid_agenda (s : State) (g : Grid) : (s.setGrid g).agenda = s.agenda := rfl
@[simp] theorem State.setGrid_fresh (s : State) (g : Grid) : (s.setGrid g).fresh = s.fresh := rfl
@[simp] theorem State.setGrid_turn (s : State) (g : Grid) : (s.setGrid g).turn = s.turn := rfl

/-! ### State.setQueue -/

@[simp] theorem State.setQueue_me (s : State) (q : Queue) : (s.setQueue q).me = s.me := rfl
@[simp] theorem State.setQueue_grp (s : State) (q : Queue) : (s.setQueue q).grp = s.grp := rfl
@[simp] theorem State.setQueue_ctx (s : State) (q : Queue) : (s.setQueue q).ctx = s.ctx := rfl
@[simp] theorem State.setQueue_teams (s : State) (q : Queue) : (s.setQueue q).teams = s.teams := rfl
@[simp] theorem State.setQueue_blocks (s : State) (q : Queue) : (s.setQueue q).blocks = s.blocks := rfl
@[simp] theorem State.setQueue_grids (s : State) (q : Queue) : (s.setQueue q).grids = s.grids := rfl
@[simp] theorem State.setQueue_tmems (s : State) (q : Queue) : (s.setQueue q).tmems = s.tmems := rfl
@[simp] theorem State.setQueue_cores (s : State) (q : Queue) : (s.setQueue q).cores = s.cores := rfl
@[simp] theorem State.setQueue_dies (s : State) (q : Queue) : (s.setQueue q).dies = s.dies := rfl
@[simp] theorem State.setQueue_passes (s : State) (q : Queue) : (s.setQueue q).passes = s.passes := rfl
@[simp] theorem State.setQueue_jobs (s : State) (q : Queue) : (s.setQueue q).jobs = s.jobs := rfl
@[simp] theorem State.setQueue_reds (s : State) (q : Queue) : (s.setQueue q).reds = s.reds := rfl
@[simp] theorem State.setQueue_fmts (s : State) (q : Queue) : (s.setQueue q).fmts = s.fmts := rfl
@[simp] theorem State.setQueue_mem (s : State) (q : Queue) : (s.setQueue q).mem = s.mem := rfl
@[simp] theorem State.setQueue_bad (s : State) (q : Queue) : (s.setQueue q).bad = s.bad := rfl
@[simp] theorem State.setQueue_mxOld (s : State) (q : Queue) : (s.setQueue q).mxOld = s.mxOld := rfl
@[simp] theorem State.setQueue_csr (s : State) (q : Queue) : (s.setQueue q).csr = s.csr := rfl
@[simp] theorem State.setQueue_parts (s : State) (q : Queue) : (s.setQueue q).parts = s.parts := rfl
@[simp] theorem State.setQueue_present (s : State) (q : Queue) : (s.setQueue q).present = s.present := rfl
@[simp] theorem State.setQueue_host4 (s : State) (q : Queue) : (s.setQueue q).host4 = s.host4 := rfl
@[simp] theorem State.setQueue_form (s : State) (q : Queue) : (s.setQueue q).form = s.form := rfl
@[simp] theorem State.setQueue_harvest (s : State) (q : Queue) : (s.setQueue q).harvest = s.harvest := rfl
@[simp] theorem State.setQueue_memCfg (s : State) (q : Queue) : (s.setQueue q).memCfg = s.memCfg := rfl
@[simp] theorem State.setQueue_memFails (s : State) (q : Queue) : (s.setQueue q).memFails = s.memFails := rfl
@[simp] theorem State.setQueue_relayUp (s : State) (q : Queue) : (s.setQueue q).relayUp = s.relayUp := rfl
@[simp] theorem State.setQueue_down (s : State) (q : Queue) : (s.setQueue q).down = s.down := rfl
@[simp] theorem State.setQueue_bootSrc (s : State) (q : Queue) : (s.setQueue q).bootSrc = s.bootSrc := rfl
@[simp] theorem State.setQueue_bootLen (s : State) (q : Queue) : (s.setQueue q).bootLen = s.bootLen := rfl
@[simp] theorem State.setQueue_bootState (s : State) (q : Queue) : (s.setQueue q).bootState = s.bootState := rfl
@[simp] theorem State.setQueue_bootReason (s : State) (q : Queue) : (s.setQueue q).bootReason = s.bootReason := rfl
@[simp] theorem State.setQueue_fwSel (s : State) (q : Queue) : (s.setQueue q).fwSel = s.fwSel := rfl
@[simp] theorem State.setQueue_fwEntry (s : State) (q : Queue) : (s.setQueue q).fwEntry = s.fwEntry := rfl
@[simp] theorem State.setQueue_fuses (s : State) (q : Queue) : (s.setQueue q).fuses = s.fuses := rfl
@[simp] theorem State.setQueue_svcDone (s : State) (q : Queue) : (s.setQueue q).svcDone = s.svcDone := rfl
@[simp] theorem State.setQueue_splNext (s : State) (q : Queue) : (s.setQueue q).splNext = s.splNext := rfl
@[simp] theorem State.setQueue_rerun (s : State) (q : Queue) : (s.setQueue q).rerun = s.rerun := rfl
@[simp] theorem State.setQueue_tripped (s : State) (q : Queue) : (s.setQueue q).tripped = s.tripped := rfl
@[simp] theorem State.setQueue_power (s : State) (q : Queue) : (s.setQueue q).power = s.power := rfl
@[simp] theorem State.setQueue_irqs (s : State) (q : Queue) : (s.setQueue q).irqs = s.irqs := rfl
@[simp] theorem State.setQueue_devWaits (s : State) (q : Queue) : (s.setQueue q).devWaits = s.devWaits := rfl
@[simp] theorem State.setQueue_devRefused (s : State) (q : Queue) : (s.setQueue q).devRefused = s.devRefused := rfl
@[simp] theorem State.setQueue_nextLseq (s : State) (q : Queue) : (s.setQueue q).nextLseq = s.nextLseq := rfl
@[simp] theorem State.setQueue_nextId (s : State) (q : Queue) : (s.setQueue q).nextId = s.nextId := rfl
@[simp] theorem State.setQueue_agenda (s : State) (q : Queue) : (s.setQueue q).agenda = s.agenda := rfl
@[simp] theorem State.setQueue_fresh (s : State) (q : Queue) : (s.setQueue q).fresh = s.fresh := rfl
@[simp] theorem State.setQueue_turn (s : State) (q : Queue) : (s.setQueue q).turn = s.turn := rfl

/-! ### State.setPass -/

@[simp] theorem State.setPass_me (s : State) (p : Pass) : (s.setPass p).me = s.me := rfl
@[simp] theorem State.setPass_grp (s : State) (p : Pass) : (s.setPass p).grp = s.grp := rfl
@[simp] theorem State.setPass_ctx (s : State) (p : Pass) : (s.setPass p).ctx = s.ctx := rfl
@[simp] theorem State.setPass_teams (s : State) (p : Pass) : (s.setPass p).teams = s.teams := rfl
@[simp] theorem State.setPass_blocks (s : State) (p : Pass) : (s.setPass p).blocks = s.blocks := rfl
@[simp] theorem State.setPass_grids (s : State) (p : Pass) : (s.setPass p).grids = s.grids := rfl
@[simp] theorem State.setPass_tmems (s : State) (p : Pass) : (s.setPass p).tmems = s.tmems := rfl
@[simp] theorem State.setPass_cores (s : State) (p : Pass) : (s.setPass p).cores = s.cores := rfl
@[simp] theorem State.setPass_dies (s : State) (p : Pass) : (s.setPass p).dies = s.dies := rfl
@[simp] theorem State.setPass_queues (s : State) (p : Pass) : (s.setPass p).queues = s.queues := rfl
@[simp] theorem State.setPass_jobs (s : State) (p : Pass) : (s.setPass p).jobs = s.jobs := rfl
@[simp] theorem State.setPass_reds (s : State) (p : Pass) : (s.setPass p).reds = s.reds := rfl
@[simp] theorem State.setPass_fmts (s : State) (p : Pass) : (s.setPass p).fmts = s.fmts := rfl
@[simp] theorem State.setPass_mem (s : State) (p : Pass) : (s.setPass p).mem = s.mem := rfl
@[simp] theorem State.setPass_bad (s : State) (p : Pass) : (s.setPass p).bad = s.bad := rfl
@[simp] theorem State.setPass_mxOld (s : State) (p : Pass) : (s.setPass p).mxOld = s.mxOld := rfl
@[simp] theorem State.setPass_csr (s : State) (p : Pass) : (s.setPass p).csr = s.csr := rfl
@[simp] theorem State.setPass_parts (s : State) (p : Pass) : (s.setPass p).parts = s.parts := rfl
@[simp] theorem State.setPass_present (s : State) (p : Pass) : (s.setPass p).present = s.present := rfl
@[simp] theorem State.setPass_host4 (s : State) (p : Pass) : (s.setPass p).host4 = s.host4 := rfl
@[simp] theorem State.setPass_form (s : State) (p : Pass) : (s.setPass p).form = s.form := rfl
@[simp] theorem State.setPass_harvest (s : State) (p : Pass) : (s.setPass p).harvest = s.harvest := rfl
@[simp] theorem State.setPass_memCfg (s : State) (p : Pass) : (s.setPass p).memCfg = s.memCfg := rfl
@[simp] theorem State.setPass_memFails (s : State) (p : Pass) : (s.setPass p).memFails = s.memFails := rfl
@[simp] theorem State.setPass_relayUp (s : State) (p : Pass) : (s.setPass p).relayUp = s.relayUp := rfl
@[simp] theorem State.setPass_down (s : State) (p : Pass) : (s.setPass p).down = s.down := rfl
@[simp] theorem State.setPass_bootSrc (s : State) (p : Pass) : (s.setPass p).bootSrc = s.bootSrc := rfl
@[simp] theorem State.setPass_bootLen (s : State) (p : Pass) : (s.setPass p).bootLen = s.bootLen := rfl
@[simp] theorem State.setPass_bootState (s : State) (p : Pass) : (s.setPass p).bootState = s.bootState := rfl
@[simp] theorem State.setPass_bootReason (s : State) (p : Pass) : (s.setPass p).bootReason = s.bootReason := rfl
@[simp] theorem State.setPass_fwSel (s : State) (p : Pass) : (s.setPass p).fwSel = s.fwSel := rfl
@[simp] theorem State.setPass_fwEntry (s : State) (p : Pass) : (s.setPass p).fwEntry = s.fwEntry := rfl
@[simp] theorem State.setPass_fuses (s : State) (p : Pass) : (s.setPass p).fuses = s.fuses := rfl
@[simp] theorem State.setPass_svcDone (s : State) (p : Pass) : (s.setPass p).svcDone = s.svcDone := rfl
@[simp] theorem State.setPass_splNext (s : State) (p : Pass) : (s.setPass p).splNext = s.splNext := rfl
@[simp] theorem State.setPass_rerun (s : State) (p : Pass) : (s.setPass p).rerun = s.rerun := rfl
@[simp] theorem State.setPass_tripped (s : State) (p : Pass) : (s.setPass p).tripped = s.tripped := rfl
@[simp] theorem State.setPass_power (s : State) (p : Pass) : (s.setPass p).power = s.power := rfl
@[simp] theorem State.setPass_irqs (s : State) (p : Pass) : (s.setPass p).irqs = s.irqs := rfl
@[simp] theorem State.setPass_devWaits (s : State) (p : Pass) : (s.setPass p).devWaits = s.devWaits := rfl
@[simp] theorem State.setPass_devRefused (s : State) (p : Pass) : (s.setPass p).devRefused = s.devRefused := rfl
@[simp] theorem State.setPass_nextLseq (s : State) (p : Pass) : (s.setPass p).nextLseq = s.nextLseq := rfl
@[simp] theorem State.setPass_nextId (s : State) (p : Pass) : (s.setPass p).nextId = s.nextId := rfl
@[simp] theorem State.setPass_agenda (s : State) (p : Pass) : (s.setPass p).agenda = s.agenda := rfl
@[simp] theorem State.setPass_fresh (s : State) (p : Pass) : (s.setPass p).fresh = s.fresh := rfl
@[simp] theorem State.setPass_turn (s : State) (p : Pass) : (s.setPass p).turn = s.turn := rfl

/-! ### State.tickFresh -/

@[simp] theorem State.tickFresh_me (s : State) : (s.tickFresh).me = s.me := rfl
@[simp] theorem State.tickFresh_grp (s : State) : (s.tickFresh).grp = s.grp := rfl
@[simp] theorem State.tickFresh_ctx (s : State) : (s.tickFresh).ctx = s.ctx := rfl
@[simp] theorem State.tickFresh_teams (s : State) : (s.tickFresh).teams = s.teams := rfl
@[simp] theorem State.tickFresh_blocks (s : State) : (s.tickFresh).blocks = s.blocks := rfl
@[simp] theorem State.tickFresh_grids (s : State) : (s.tickFresh).grids = s.grids := rfl
@[simp] theorem State.tickFresh_tmems (s : State) : (s.tickFresh).tmems = s.tmems := rfl
@[simp] theorem State.tickFresh_cores (s : State) : (s.tickFresh).cores = s.cores := rfl
@[simp] theorem State.tickFresh_dies (s : State) : (s.tickFresh).dies = s.dies := rfl
@[simp] theorem State.tickFresh_queues (s : State) : (s.tickFresh).queues = s.queues := rfl
@[simp] theorem State.tickFresh_passes (s : State) : (s.tickFresh).passes = s.passes := rfl
@[simp] theorem State.tickFresh_jobs (s : State) : (s.tickFresh).jobs = s.jobs := rfl
@[simp] theorem State.tickFresh_reds (s : State) : (s.tickFresh).reds = s.reds := rfl
@[simp] theorem State.tickFresh_fmts (s : State) : (s.tickFresh).fmts = s.fmts := rfl
@[simp] theorem State.tickFresh_mem (s : State) : (s.tickFresh).mem = s.mem := rfl
@[simp] theorem State.tickFresh_bad (s : State) : (s.tickFresh).bad = s.bad := rfl
@[simp] theorem State.tickFresh_mxOld (s : State) : (s.tickFresh).mxOld = s.mxOld := rfl
@[simp] theorem State.tickFresh_csr (s : State) : (s.tickFresh).csr = s.csr := rfl
@[simp] theorem State.tickFresh_parts (s : State) : (s.tickFresh).parts = s.parts := rfl
@[simp] theorem State.tickFresh_present (s : State) : (s.tickFresh).present = s.present := rfl
@[simp] theorem State.tickFresh_host4 (s : State) : (s.tickFresh).host4 = s.host4 := rfl
@[simp] theorem State.tickFresh_form (s : State) : (s.tickFresh).form = s.form := rfl
@[simp] theorem State.tickFresh_harvest (s : State) : (s.tickFresh).harvest = s.harvest := rfl
@[simp] theorem State.tickFresh_memCfg (s : State) : (s.tickFresh).memCfg = s.memCfg := rfl
@[simp] theorem State.tickFresh_memFails (s : State) : (s.tickFresh).memFails = s.memFails := rfl
@[simp] theorem State.tickFresh_relayUp (s : State) : (s.tickFresh).relayUp = s.relayUp := rfl
@[simp] theorem State.tickFresh_down (s : State) : (s.tickFresh).down = s.down := rfl
@[simp] theorem State.tickFresh_bootSrc (s : State) : (s.tickFresh).bootSrc = s.bootSrc := rfl
@[simp] theorem State.tickFresh_bootLen (s : State) : (s.tickFresh).bootLen = s.bootLen := rfl
@[simp] theorem State.tickFresh_bootState (s : State) : (s.tickFresh).bootState = s.bootState := rfl
@[simp] theorem State.tickFresh_bootReason (s : State) : (s.tickFresh).bootReason = s.bootReason := rfl
@[simp] theorem State.tickFresh_fwSel (s : State) : (s.tickFresh).fwSel = s.fwSel := rfl
@[simp] theorem State.tickFresh_fwEntry (s : State) : (s.tickFresh).fwEntry = s.fwEntry := rfl
@[simp] theorem State.tickFresh_fuses (s : State) : (s.tickFresh).fuses = s.fuses := rfl
@[simp] theorem State.tickFresh_svcDone (s : State) : (s.tickFresh).svcDone = s.svcDone := rfl
@[simp] theorem State.tickFresh_splNext (s : State) : (s.tickFresh).splNext = s.splNext := rfl
@[simp] theorem State.tickFresh_rerun (s : State) : (s.tickFresh).rerun = s.rerun := rfl
@[simp] theorem State.tickFresh_tripped (s : State) : (s.tickFresh).tripped = s.tripped := rfl
@[simp] theorem State.tickFresh_power (s : State) : (s.tickFresh).power = s.power := rfl
@[simp] theorem State.tickFresh_irqs (s : State) : (s.tickFresh).irqs = s.irqs := rfl
@[simp] theorem State.tickFresh_devWaits (s : State) : (s.tickFresh).devWaits = s.devWaits := rfl
@[simp] theorem State.tickFresh_devRefused (s : State) : (s.tickFresh).devRefused = s.devRefused := rfl
@[simp] theorem State.tickFresh_nextLseq (s : State) : (s.tickFresh).nextLseq = s.nextLseq := rfl
@[simp] theorem State.tickFresh_nextId (s : State) : (s.tickFresh).nextId = s.nextId := rfl
@[simp] theorem State.tickFresh_agenda (s : State) : (s.tickFresh).agenda = s.agenda := rfl
@[simp] theorem State.tickFresh_turn (s : State) : (s.tickFresh).turn = s.turn := rfl

/-! ### State.mapTeams -/

@[simp] theorem State.mapTeams_grp (s : State) (f : Team → Team) : (s.mapTeams f).grp = s.grp := rfl
@[simp] theorem State.mapTeams_ctx (s : State) (f : Team → Team) : (s.mapTeams f).ctx = s.ctx := rfl
@[simp] theorem State.mapTeams_blocks (s : State) (f : Team → Team) : (s.mapTeams f).blocks = s.blocks := rfl
@[simp] theorem State.mapTeams_grids (s : State) (f : Team → Team) : (s.mapTeams f).grids = s.grids := rfl
@[simp] theorem State.mapTeams_tmems (s : State) (f : Team → Team) : (s.mapTeams f).tmems = s.tmems := rfl
@[simp] theorem State.mapTeams_cores (s : State) (f : Team → Team) : (s.mapTeams f).cores = s.cores := rfl
@[simp] theorem State.mapTeams_dies (s : State) (f : Team → Team) : (s.mapTeams f).dies = s.dies := rfl
@[simp] theorem State.mapTeams_queues (s : State) (f : Team → Team) : (s.mapTeams f).queues = s.queues := rfl
@[simp] theorem State.mapTeams_passes (s : State) (f : Team → Team) : (s.mapTeams f).passes = s.passes := rfl
@[simp] theorem State.mapTeams_jobs (s : State) (f : Team → Team) : (s.mapTeams f).jobs = s.jobs := rfl
@[simp] theorem State.mapTeams_reds (s : State) (f : Team → Team) : (s.mapTeams f).reds = s.reds := rfl
@[simp] theorem State.mapTeams_fmts (s : State) (f : Team → Team) : (s.mapTeams f).fmts = s.fmts := rfl
@[simp] theorem State.mapTeams_mem (s : State) (f : Team → Team) : (s.mapTeams f).mem = s.mem := rfl
@[simp] theorem State.mapTeams_bad (s : State) (f : Team → Team) : (s.mapTeams f).bad = s.bad := rfl
@[simp] theorem State.mapTeams_mxOld (s : State) (f : Team → Team) : (s.mapTeams f).mxOld = s.mxOld := rfl
@[simp] theorem State.mapTeams_csr (s : State) (f : Team → Team) : (s.mapTeams f).csr = s.csr := rfl
@[simp] theorem State.mapTeams_parts (s : State) (f : Team → Team) : (s.mapTeams f).parts = s.parts := rfl
@[simp] theorem State.mapTeams_present (s : State) (f : Team → Team) : (s.mapTeams f).present = s.present := rfl
@[simp] theorem State.mapTeams_host4 (s : State) (f : Team → Team) : (s.mapTeams f).host4 = s.host4 := rfl
@[simp] theorem State.mapTeams_form (s : State) (f : Team → Team) : (s.mapTeams f).form = s.form := rfl
@[simp] theorem State.mapTeams_harvest (s : State) (f : Team → Team) : (s.mapTeams f).harvest = s.harvest := rfl
@[simp] theorem State.mapTeams_memCfg (s : State) (f : Team → Team) : (s.mapTeams f).memCfg = s.memCfg := rfl
@[simp] theorem State.mapTeams_memFails (s : State) (f : Team → Team) : (s.mapTeams f).memFails = s.memFails := rfl
@[simp] theorem State.mapTeams_relayUp (s : State) (f : Team → Team) : (s.mapTeams f).relayUp = s.relayUp := rfl
@[simp] theorem State.mapTeams_down (s : State) (f : Team → Team) : (s.mapTeams f).down = s.down := rfl
@[simp] theorem State.mapTeams_bootSrc (s : State) (f : Team → Team) : (s.mapTeams f).bootSrc = s.bootSrc := rfl
@[simp] theorem State.mapTeams_bootLen (s : State) (f : Team → Team) : (s.mapTeams f).bootLen = s.bootLen := rfl
@[simp] theorem State.mapTeams_bootState (s : State) (f : Team → Team) : (s.mapTeams f).bootState = s.bootState := rfl
@[simp] theorem State.mapTeams_bootReason (s : State) (f : Team → Team) : (s.mapTeams f).bootReason = s.bootReason := rfl
@[simp] theorem State.mapTeams_fwSel (s : State) (f : Team → Team) : (s.mapTeams f).fwSel = s.fwSel := rfl
@[simp] theorem State.mapTeams_fwEntry (s : State) (f : Team → Team) : (s.mapTeams f).fwEntry = s.fwEntry := rfl
@[simp] theorem State.mapTeams_fuses (s : State) (f : Team → Team) : (s.mapTeams f).fuses = s.fuses := rfl
@[simp] theorem State.mapTeams_svcDone (s : State) (f : Team → Team) : (s.mapTeams f).svcDone = s.svcDone := rfl
@[simp] theorem State.mapTeams_splNext (s : State) (f : Team → Team) : (s.mapTeams f).splNext = s.splNext := rfl
@[simp] theorem State.mapTeams_rerun (s : State) (f : Team → Team) : (s.mapTeams f).rerun = s.rerun := rfl
@[simp] theorem State.mapTeams_tripped (s : State) (f : Team → Team) : (s.mapTeams f).tripped = s.tripped := rfl
@[simp] theorem State.mapTeams_power (s : State) (f : Team → Team) : (s.mapTeams f).power = s.power := rfl
@[simp] theorem State.mapTeams_irqs (s : State) (f : Team → Team) : (s.mapTeams f).irqs = s.irqs := rfl
@[simp] theorem State.mapTeams_devWaits (s : State) (f : Team → Team) : (s.mapTeams f).devWaits = s.devWaits := rfl
@[simp] theorem State.mapTeams_devRefused (s : State) (f : Team → Team) : (s.mapTeams f).devRefused = s.devRefused := rfl
@[simp] theorem State.mapTeams_nextLseq (s : State) (f : Team → Team) : (s.mapTeams f).nextLseq = s.nextLseq := rfl
@[simp] theorem State.mapTeams_nextId (s : State) (f : Team → Team) : (s.mapTeams f).nextId = s.nextId := rfl
@[simp] theorem State.mapTeams_agenda (s : State) (f : Team → Team) : (s.mapTeams f).agenda = s.agenda := rfl
@[simp] theorem State.mapTeams_fresh (s : State) (f : Team → Team) : (s.mapTeams f).fresh = s.fresh := rfl
@[simp] theorem State.mapTeams_turn (s : State) (f : Team → Team) : (s.mapTeams f).turn = s.turn := rfl

/-! ### State.irq -/

@[simp] theorem State.irq_me (s : State) (v : Nat) : (s.irq v).me = s.me := rfl
@[simp] theorem State.irq_grp (s : State) (v : Nat) : (s.irq v).grp = s.grp := rfl
@[simp] theorem State.irq_ctx (s : State) (v : Nat) : (s.irq v).ctx = s.ctx := rfl
@[simp] theorem State.irq_teams (s : State) (v : Nat) : (s.irq v).teams = s.teams := rfl
@[simp] theorem State.irq_blocks (s : State) (v : Nat) : (s.irq v).blocks = s.blocks := rfl
@[simp] theorem State.irq_grids (s : State) (v : Nat) : (s.irq v).grids = s.grids := rfl
@[simp] theorem State.irq_tmems (s : State) (v : Nat) : (s.irq v).tmems = s.tmems := rfl
@[simp] theorem State.irq_cores (s : State) (v : Nat) : (s.irq v).cores = s.cores := rfl
@[simp] theorem State.irq_dies (s : State) (v : Nat) : (s.irq v).dies = s.dies := rfl
@[simp] theorem State.irq_queues (s : State) (v : Nat) : (s.irq v).queues = s.queues := rfl
@[simp] theorem State.irq_passes (s : State) (v : Nat) : (s.irq v).passes = s.passes := rfl
@[simp] theorem State.irq_jobs (s : State) (v : Nat) : (s.irq v).jobs = s.jobs := rfl
@[simp] theorem State.irq_reds (s : State) (v : Nat) : (s.irq v).reds = s.reds := rfl
@[simp] theorem State.irq_fmts (s : State) (v : Nat) : (s.irq v).fmts = s.fmts := rfl
@[simp] theorem State.irq_mem (s : State) (v : Nat) : (s.irq v).mem = s.mem := rfl
@[simp] theorem State.irq_bad (s : State) (v : Nat) : (s.irq v).bad = s.bad := rfl
@[simp] theorem State.irq_mxOld (s : State) (v : Nat) : (s.irq v).mxOld = s.mxOld := rfl
@[simp] theorem State.irq_csr (s : State) (v : Nat) : (s.irq v).csr = s.csr := rfl
@[simp] theorem State.irq_parts (s : State) (v : Nat) : (s.irq v).parts = s.parts := rfl
@[simp] theorem State.irq_present (s : State) (v : Nat) : (s.irq v).present = s.present := rfl
@[simp] theorem State.irq_host4 (s : State) (v : Nat) : (s.irq v).host4 = s.host4 := rfl
@[simp] theorem State.irq_form (s : State) (v : Nat) : (s.irq v).form = s.form := rfl
@[simp] theorem State.irq_harvest (s : State) (v : Nat) : (s.irq v).harvest = s.harvest := rfl
@[simp] theorem State.irq_memCfg (s : State) (v : Nat) : (s.irq v).memCfg = s.memCfg := rfl
@[simp] theorem State.irq_memFails (s : State) (v : Nat) : (s.irq v).memFails = s.memFails := rfl
@[simp] theorem State.irq_relayUp (s : State) (v : Nat) : (s.irq v).relayUp = s.relayUp := rfl
@[simp] theorem State.irq_down (s : State) (v : Nat) : (s.irq v).down = s.down := rfl
@[simp] theorem State.irq_bootSrc (s : State) (v : Nat) : (s.irq v).bootSrc = s.bootSrc := rfl
@[simp] theorem State.irq_bootLen (s : State) (v : Nat) : (s.irq v).bootLen = s.bootLen := rfl
@[simp] theorem State.irq_bootState (s : State) (v : Nat) : (s.irq v).bootState = s.bootState := rfl
@[simp] theorem State.irq_bootReason (s : State) (v : Nat) : (s.irq v).bootReason = s.bootReason := rfl
@[simp] theorem State.irq_fwSel (s : State) (v : Nat) : (s.irq v).fwSel = s.fwSel := rfl
@[simp] theorem State.irq_fwEntry (s : State) (v : Nat) : (s.irq v).fwEntry = s.fwEntry := rfl
@[simp] theorem State.irq_fuses (s : State) (v : Nat) : (s.irq v).fuses = s.fuses := rfl
@[simp] theorem State.irq_svcDone (s : State) (v : Nat) : (s.irq v).svcDone = s.svcDone := rfl
@[simp] theorem State.irq_splNext (s : State) (v : Nat) : (s.irq v).splNext = s.splNext := rfl
@[simp] theorem State.irq_rerun (s : State) (v : Nat) : (s.irq v).rerun = s.rerun := rfl
@[simp] theorem State.irq_tripped (s : State) (v : Nat) : (s.irq v).tripped = s.tripped := rfl
@[simp] theorem State.irq_power (s : State) (v : Nat) : (s.irq v).power = s.power := rfl
@[simp] theorem State.irq_devWaits (s : State) (v : Nat) : (s.irq v).devWaits = s.devWaits := rfl
@[simp] theorem State.irq_devRefused (s : State) (v : Nat) : (s.irq v).devRefused = s.devRefused := rfl
@[simp] theorem State.irq_nextLseq (s : State) (v : Nat) : (s.irq v).nextLseq = s.nextLseq := rfl
@[simp] theorem State.irq_nextId (s : State) (v : Nat) : (s.irq v).nextId = s.nextId := rfl
@[simp] theorem State.irq_agenda (s : State) (v : Nat) : (s.irq v).agenda = s.agenda := rfl
@[simp] theorem State.irq_fresh (s : State) (v : Nat) : (s.irq v).fresh = s.fresh := rfl
@[simp] theorem State.irq_turn (s : State) (v : Nat) : (s.irq v).turn = s.turn := rfl

/-! ### State.poisonLine -/

@[simp] theorem State.poisonLine_me (s : State) (ln : Nat) : (s.poisonLine ln).me = s.me := rfl
@[simp] theorem State.poisonLine_grp (s : State) (ln : Nat) : (s.poisonLine ln).grp = s.grp := rfl
@[simp] theorem State.poisonLine_ctx (s : State) (ln : Nat) : (s.poisonLine ln).ctx = s.ctx := rfl
@[simp] theorem State.poisonLine_teams (s : State) (ln : Nat) : (s.poisonLine ln).teams = s.teams := rfl
@[simp] theorem State.poisonLine_blocks (s : State) (ln : Nat) : (s.poisonLine ln).blocks = s.blocks := rfl
@[simp] theorem State.poisonLine_grids (s : State) (ln : Nat) : (s.poisonLine ln).grids = s.grids := rfl
@[simp] theorem State.poisonLine_tmems (s : State) (ln : Nat) : (s.poisonLine ln).tmems = s.tmems := rfl
@[simp] theorem State.poisonLine_cores (s : State) (ln : Nat) : (s.poisonLine ln).cores = s.cores := rfl
@[simp] theorem State.poisonLine_dies (s : State) (ln : Nat) : (s.poisonLine ln).dies = s.dies := rfl
@[simp] theorem State.poisonLine_queues (s : State) (ln : Nat) : (s.poisonLine ln).queues = s.queues := rfl
@[simp] theorem State.poisonLine_passes (s : State) (ln : Nat) : (s.poisonLine ln).passes = s.passes := rfl
@[simp] theorem State.poisonLine_jobs (s : State) (ln : Nat) : (s.poisonLine ln).jobs = s.jobs := rfl
@[simp] theorem State.poisonLine_reds (s : State) (ln : Nat) : (s.poisonLine ln).reds = s.reds := rfl
@[simp] theorem State.poisonLine_fmts (s : State) (ln : Nat) : (s.poisonLine ln).fmts = s.fmts := rfl
@[simp] theorem State.poisonLine_mem (s : State) (ln : Nat) : (s.poisonLine ln).mem = s.mem := rfl
@[simp] theorem State.poisonLine_mxOld (s : State) (ln : Nat) : (s.poisonLine ln).mxOld = s.mxOld := rfl
@[simp] theorem State.poisonLine_csr (s : State) (ln : Nat) : (s.poisonLine ln).csr = s.csr := rfl
@[simp] theorem State.poisonLine_parts (s : State) (ln : Nat) : (s.poisonLine ln).parts = s.parts := rfl
@[simp] theorem State.poisonLine_present (s : State) (ln : Nat) : (s.poisonLine ln).present = s.present := rfl
@[simp] theorem State.poisonLine_host4 (s : State) (ln : Nat) : (s.poisonLine ln).host4 = s.host4 := rfl
@[simp] theorem State.poisonLine_form (s : State) (ln : Nat) : (s.poisonLine ln).form = s.form := rfl
@[simp] theorem State.poisonLine_harvest (s : State) (ln : Nat) : (s.poisonLine ln).harvest = s.harvest := rfl
@[simp] theorem State.poisonLine_memCfg (s : State) (ln : Nat) : (s.poisonLine ln).memCfg = s.memCfg := rfl
@[simp] theorem State.poisonLine_memFails (s : State) (ln : Nat) : (s.poisonLine ln).memFails = s.memFails := rfl
@[simp] theorem State.poisonLine_relayUp (s : State) (ln : Nat) : (s.poisonLine ln).relayUp = s.relayUp := rfl
@[simp] theorem State.poisonLine_down (s : State) (ln : Nat) : (s.poisonLine ln).down = s.down := rfl
@[simp] theorem State.poisonLine_bootSrc (s : State) (ln : Nat) : (s.poisonLine ln).bootSrc = s.bootSrc := rfl
@[simp] theorem State.poisonLine_bootLen (s : State) (ln : Nat) : (s.poisonLine ln).bootLen = s.bootLen := rfl
@[simp] theorem State.poisonLine_bootState (s : State) (ln : Nat) : (s.poisonLine ln).bootState = s.bootState := rfl
@[simp] theorem State.poisonLine_bootReason (s : State) (ln : Nat) : (s.poisonLine ln).bootReason = s.bootReason := rfl
@[simp] theorem State.poisonLine_fwSel (s : State) (ln : Nat) : (s.poisonLine ln).fwSel = s.fwSel := rfl
@[simp] theorem State.poisonLine_fwEntry (s : State) (ln : Nat) : (s.poisonLine ln).fwEntry = s.fwEntry := rfl
@[simp] theorem State.poisonLine_fuses (s : State) (ln : Nat) : (s.poisonLine ln).fuses = s.fuses := rfl
@[simp] theorem State.poisonLine_svcDone (s : State) (ln : Nat) : (s.poisonLine ln).svcDone = s.svcDone := rfl
@[simp] theorem State.poisonLine_splNext (s : State) (ln : Nat) : (s.poisonLine ln).splNext = s.splNext := rfl
@[simp] theorem State.poisonLine_rerun (s : State) (ln : Nat) : (s.poisonLine ln).rerun = s.rerun := rfl
@[simp] theorem State.poisonLine_tripped (s : State) (ln : Nat) : (s.poisonLine ln).tripped = s.tripped := rfl
@[simp] theorem State.poisonLine_power (s : State) (ln : Nat) : (s.poisonLine ln).power = s.power := rfl
@[simp] theorem State.poisonLine_irqs (s : State) (ln : Nat) : (s.poisonLine ln).irqs = s.irqs := rfl
@[simp] theorem State.poisonLine_devWaits (s : State) (ln : Nat) : (s.poisonLine ln).devWaits = s.devWaits := rfl
@[simp] theorem State.poisonLine_devRefused (s : State) (ln : Nat) : (s.poisonLine ln).devRefused = s.devRefused := rfl
@[simp] theorem State.poisonLine_nextLseq (s : State) (ln : Nat) : (s.poisonLine ln).nextLseq = s.nextLseq := rfl
@[simp] theorem State.poisonLine_nextId (s : State) (ln : Nat) : (s.poisonLine ln).nextId = s.nextId := rfl
@[simp] theorem State.poisonLine_agenda (s : State) (ln : Nat) : (s.poisonLine ln).agenda = s.agenda := rfl
@[simp] theorem State.poisonLine_fresh (s : State) (ln : Nat) : (s.poisonLine ln).fresh = s.fresh := rfl
@[simp] theorem State.poisonLine_turn (s : State) (ln : Nat) : (s.poisonLine ln).turn = s.turn := rfl

/-! ### State.dropL1 -/

@[simp] theorem State.dropL1_me (s : State) (d : Nat → Bool) (pa : Nat) : (s.dropL1 d pa).me = s.me := rfl
@[simp] theorem State.dropL1_grp (s : State) (d : Nat → Bool) (pa : Nat) : (s.dropL1 d pa).grp = s.grp := rfl
@[simp] theorem State.dropL1_ctx (s : State) (d : Nat → Bool) (pa : Nat) : (s.dropL1 d pa).ctx = s.ctx := rfl
@[simp] theorem State.dropL1_teams (s : State) (d : Nat → Bool) (pa : Nat) : (s.dropL1 d pa).teams = s.teams := rfl
@[simp] theorem State.dropL1_blocks (s : State) (d : Nat → Bool) (pa : Nat) : (s.dropL1 d pa).blocks = s.blocks := rfl
@[simp] theorem State.dropL1_grids (s : State) (d : Nat → Bool) (pa : Nat) : (s.dropL1 d pa).grids = s.grids := rfl
@[simp] theorem State.dropL1_tmems (s : State) (d : Nat → Bool) (pa : Nat) : (s.dropL1 d pa).tmems = s.tmems := rfl
@[simp] theorem State.dropL1_dies (s : State) (d : Nat → Bool) (pa : Nat) : (s.dropL1 d pa).dies = s.dies := rfl
@[simp] theorem State.dropL1_queues (s : State) (d : Nat → Bool) (pa : Nat) : (s.dropL1 d pa).queues = s.queues := rfl
@[simp] theorem State.dropL1_passes (s : State) (d : Nat → Bool) (pa : Nat) : (s.dropL1 d pa).passes = s.passes := rfl
@[simp] theorem State.dropL1_jobs (s : State) (d : Nat → Bool) (pa : Nat) : (s.dropL1 d pa).jobs = s.jobs := rfl
@[simp] theorem State.dropL1_reds (s : State) (d : Nat → Bool) (pa : Nat) : (s.dropL1 d pa).reds = s.reds := rfl
@[simp] theorem State.dropL1_fmts (s : State) (d : Nat → Bool) (pa : Nat) : (s.dropL1 d pa).fmts = s.fmts := rfl
@[simp] theorem State.dropL1_mem (s : State) (d : Nat → Bool) (pa : Nat) : (s.dropL1 d pa).mem = s.mem := rfl
@[simp] theorem State.dropL1_bad (s : State) (d : Nat → Bool) (pa : Nat) : (s.dropL1 d pa).bad = s.bad := rfl
@[simp] theorem State.dropL1_mxOld (s : State) (d : Nat → Bool) (pa : Nat) : (s.dropL1 d pa).mxOld = s.mxOld := rfl
@[simp] theorem State.dropL1_csr (s : State) (d : Nat → Bool) (pa : Nat) : (s.dropL1 d pa).csr = s.csr := rfl
@[simp] theorem State.dropL1_parts (s : State) (d : Nat → Bool) (pa : Nat) : (s.dropL1 d pa).parts = s.parts := rfl
@[simp] theorem State.dropL1_present (s : State) (d : Nat → Bool) (pa : Nat) : (s.dropL1 d pa).present = s.present := rfl
@[simp] theorem State.dropL1_host4 (s : State) (d : Nat → Bool) (pa : Nat) : (s.dropL1 d pa).host4 = s.host4 := rfl
@[simp] theorem State.dropL1_form (s : State) (d : Nat → Bool) (pa : Nat) : (s.dropL1 d pa).form = s.form := rfl
@[simp] theorem State.dropL1_harvest (s : State) (d : Nat → Bool) (pa : Nat) : (s.dropL1 d pa).harvest = s.harvest := rfl
@[simp] theorem State.dropL1_memCfg (s : State) (d : Nat → Bool) (pa : Nat) : (s.dropL1 d pa).memCfg = s.memCfg := rfl
@[simp] theorem State.dropL1_memFails (s : State) (d : Nat → Bool) (pa : Nat) : (s.dropL1 d pa).memFails = s.memFails := rfl
@[simp] theorem State.dropL1_relayUp (s : State) (d : Nat → Bool) (pa : Nat) : (s.dropL1 d pa).relayUp = s.relayUp := rfl
@[simp] theorem State.dropL1_down (s : State) (d : Nat → Bool) (pa : Nat) : (s.dropL1 d pa).down = s.down := rfl
@[simp] theorem State.dropL1_bootSrc (s : State) (d : Nat → Bool) (pa : Nat) : (s.dropL1 d pa).bootSrc = s.bootSrc := rfl
@[simp] theorem State.dropL1_bootLen (s : State) (d : Nat → Bool) (pa : Nat) : (s.dropL1 d pa).bootLen = s.bootLen := rfl
@[simp] theorem State.dropL1_bootState (s : State) (d : Nat → Bool) (pa : Nat) : (s.dropL1 d pa).bootState = s.bootState := rfl
@[simp] theorem State.dropL1_bootReason (s : State) (d : Nat → Bool) (pa : Nat) : (s.dropL1 d pa).bootReason = s.bootReason := rfl
@[simp] theorem State.dropL1_fwSel (s : State) (d : Nat → Bool) (pa : Nat) : (s.dropL1 d pa).fwSel = s.fwSel := rfl
@[simp] theorem State.dropL1_fwEntry (s : State) (d : Nat → Bool) (pa : Nat) : (s.dropL1 d pa).fwEntry = s.fwEntry := rfl
@[simp] theorem State.dropL1_fuses (s : State) (d : Nat → Bool) (pa : Nat) : (s.dropL1 d pa).fuses = s.fuses := rfl
@[simp] theorem State.dropL1_svcDone (s : State) (d : Nat → Bool) (pa : Nat) : (s.dropL1 d pa).svcDone = s.svcDone := rfl
@[simp] theorem State.dropL1_splNext (s : State) (d : Nat → Bool) (pa : Nat) : (s.dropL1 d pa).splNext = s.splNext := rfl
@[simp] theorem State.dropL1_rerun (s : State) (d : Nat → Bool) (pa : Nat) : (s.dropL1 d pa).rerun = s.rerun := rfl
@[simp] theorem State.dropL1_tripped (s : State) (d : Nat → Bool) (pa : Nat) : (s.dropL1 d pa).tripped = s.tripped := rfl
@[simp] theorem State.dropL1_power (s : State) (d : Nat → Bool) (pa : Nat) : (s.dropL1 d pa).power = s.power := rfl
@[simp] theorem State.dropL1_irqs (s : State) (d : Nat → Bool) (pa : Nat) : (s.dropL1 d pa).irqs = s.irqs := rfl
@[simp] theorem State.dropL1_devWaits (s : State) (d : Nat → Bool) (pa : Nat) : (s.dropL1 d pa).devWaits = s.devWaits := rfl
@[simp] theorem State.dropL1_devRefused (s : State) (d : Nat → Bool) (pa : Nat) : (s.dropL1 d pa).devRefused = s.devRefused := rfl
@[simp] theorem State.dropL1_nextLseq (s : State) (d : Nat → Bool) (pa : Nat) : (s.dropL1 d pa).nextLseq = s.nextLseq := rfl
@[simp] theorem State.dropL1_nextId (s : State) (d : Nat → Bool) (pa : Nat) : (s.dropL1 d pa).nextId = s.nextId := rfl
@[simp] theorem State.dropL1_agenda (s : State) (d : Nat → Bool) (pa : Nat) : (s.dropL1 d pa).agenda = s.agenda := rfl
@[simp] theorem State.dropL1_fresh (s : State) (d : Nat → Bool) (pa : Nat) : (s.dropL1 d pa).fresh = s.fresh := rfl
@[simp] theorem State.dropL1_turn (s : State) (d : Nat → Bool) (pa : Nat) : (s.dropL1 d pa).turn = s.turn := rfl

/-! ### State.dropDie -/

@[simp] theorem State.dropDie_me (s : State) (pa : Nat) : (s.dropDie pa).me = s.me := rfl
@[simp] theorem State.dropDie_grp (s : State) (pa : Nat) : (s.dropDie pa).grp = s.grp := rfl
@[simp] theorem State.dropDie_ctx (s : State) (pa : Nat) : (s.dropDie pa).ctx = s.ctx := rfl
@[simp] theorem State.dropDie_teams (s : State) (pa : Nat) : (s.dropDie pa).teams = s.teams := rfl
@[simp] theorem State.dropDie_blocks (s : State) (pa : Nat) : (s.dropDie pa).blocks = s.blocks := rfl
@[simp] theorem State.dropDie_grids (s : State) (pa : Nat) : (s.dropDie pa).grids = s.grids := rfl
@[simp] theorem State.dropDie_tmems (s : State) (pa : Nat) : (s.dropDie pa).tmems = s.tmems := rfl
@[simp] theorem State.dropDie_cores (s : State) (pa : Nat) : (s.dropDie pa).cores = s.cores := rfl
@[simp] theorem State.dropDie_queues (s : State) (pa : Nat) : (s.dropDie pa).queues = s.queues := rfl
@[simp] theorem State.dropDie_passes (s : State) (pa : Nat) : (s.dropDie pa).passes = s.passes := rfl
@[simp] theorem State.dropDie_jobs (s : State) (pa : Nat) : (s.dropDie pa).jobs = s.jobs := rfl
@[simp] theorem State.dropDie_reds (s : State) (pa : Nat) : (s.dropDie pa).reds = s.reds := rfl
@[simp] theorem State.dropDie_fmts (s : State) (pa : Nat) : (s.dropDie pa).fmts = s.fmts := rfl
@[simp] theorem State.dropDie_mem (s : State) (pa : Nat) : (s.dropDie pa).mem = s.mem := rfl
@[simp] theorem State.dropDie_bad (s : State) (pa : Nat) : (s.dropDie pa).bad = s.bad := rfl
@[simp] theorem State.dropDie_mxOld (s : State) (pa : Nat) : (s.dropDie pa).mxOld = s.mxOld := rfl
@[simp] theorem State.dropDie_csr (s : State) (pa : Nat) : (s.dropDie pa).csr = s.csr := rfl
@[simp] theorem State.dropDie_parts (s : State) (pa : Nat) : (s.dropDie pa).parts = s.parts := rfl
@[simp] theorem State.dropDie_present (s : State) (pa : Nat) : (s.dropDie pa).present = s.present := rfl
@[simp] theorem State.dropDie_host4 (s : State) (pa : Nat) : (s.dropDie pa).host4 = s.host4 := rfl
@[simp] theorem State.dropDie_form (s : State) (pa : Nat) : (s.dropDie pa).form = s.form := rfl
@[simp] theorem State.dropDie_harvest (s : State) (pa : Nat) : (s.dropDie pa).harvest = s.harvest := rfl
@[simp] theorem State.dropDie_memCfg (s : State) (pa : Nat) : (s.dropDie pa).memCfg = s.memCfg := rfl
@[simp] theorem State.dropDie_memFails (s : State) (pa : Nat) : (s.dropDie pa).memFails = s.memFails := rfl
@[simp] theorem State.dropDie_relayUp (s : State) (pa : Nat) : (s.dropDie pa).relayUp = s.relayUp := rfl
@[simp] theorem State.dropDie_down (s : State) (pa : Nat) : (s.dropDie pa).down = s.down := rfl
@[simp] theorem State.dropDie_bootSrc (s : State) (pa : Nat) : (s.dropDie pa).bootSrc = s.bootSrc := rfl
@[simp] theorem State.dropDie_bootLen (s : State) (pa : Nat) : (s.dropDie pa).bootLen = s.bootLen := rfl
@[simp] theorem State.dropDie_bootState (s : State) (pa : Nat) : (s.dropDie pa).bootState = s.bootState := rfl
@[simp] theorem State.dropDie_bootReason (s : State) (pa : Nat) : (s.dropDie pa).bootReason = s.bootReason := rfl
@[simp] theorem State.dropDie_fwSel (s : State) (pa : Nat) : (s.dropDie pa).fwSel = s.fwSel := rfl
@[simp] theorem State.dropDie_fwEntry (s : State) (pa : Nat) : (s.dropDie pa).fwEntry = s.fwEntry := rfl
@[simp] theorem State.dropDie_fuses (s : State) (pa : Nat) : (s.dropDie pa).fuses = s.fuses := rfl
@[simp] theorem State.dropDie_svcDone (s : State) (pa : Nat) : (s.dropDie pa).svcDone = s.svcDone := rfl
@[simp] theorem State.dropDie_splNext (s : State) (pa : Nat) : (s.dropDie pa).splNext = s.splNext := rfl
@[simp] theorem State.dropDie_rerun (s : State) (pa : Nat) : (s.dropDie pa).rerun = s.rerun := rfl
@[simp] theorem State.dropDie_tripped (s : State) (pa : Nat) : (s.dropDie pa).tripped = s.tripped := rfl
@[simp] theorem State.dropDie_power (s : State) (pa : Nat) : (s.dropDie pa).power = s.power := rfl
@[simp] theorem State.dropDie_irqs (s : State) (pa : Nat) : (s.dropDie pa).irqs = s.irqs := rfl
@[simp] theorem State.dropDie_devWaits (s : State) (pa : Nat) : (s.dropDie pa).devWaits = s.devWaits := rfl
@[simp] theorem State.dropDie_devRefused (s : State) (pa : Nat) : (s.dropDie pa).devRefused = s.devRefused := rfl
@[simp] theorem State.dropDie_nextLseq (s : State) (pa : Nat) : (s.dropDie pa).nextLseq = s.nextLseq := rfl
@[simp] theorem State.dropDie_nextId (s : State) (pa : Nat) : (s.dropDie pa).nextId = s.nextId := rfl
@[simp] theorem State.dropDie_agenda (s : State) (pa : Nat) : (s.dropDie pa).agenda = s.agenda := rfl
@[simp] theorem State.dropDie_fresh (s : State) (pa : Nat) : (s.dropDie pa).fresh = s.fresh := rfl
@[simp] theorem State.dropDie_turn (s : State) (pa : Nat) : (s.dropDie pa).turn = s.turn := rfl

/-! ### State.putHome -/

@[simp] theorem State.putHome_me (s : State) (pa : Nat) (b : Byte) : (s.putHome pa b).me = s.me := rfl
@[simp] theorem State.putHome_grp (s : State) (pa : Nat) (b : Byte) : (s.putHome pa b).grp = s.grp := rfl
@[simp] theorem State.putHome_ctx (s : State) (pa : Nat) (b : Byte) : (s.putHome pa b).ctx = s.ctx := rfl
@[simp] theorem State.putHome_teams (s : State) (pa : Nat) (b : Byte) : (s.putHome pa b).teams = s.teams := rfl
@[simp] theorem State.putHome_blocks (s : State) (pa : Nat) (b : Byte) : (s.putHome pa b).blocks = s.blocks := rfl
@[simp] theorem State.putHome_grids (s : State) (pa : Nat) (b : Byte) : (s.putHome pa b).grids = s.grids := rfl
@[simp] theorem State.putHome_tmems (s : State) (pa : Nat) (b : Byte) : (s.putHome pa b).tmems = s.tmems := rfl
@[simp] theorem State.putHome_queues (s : State) (pa : Nat) (b : Byte) : (s.putHome pa b).queues = s.queues := rfl
@[simp] theorem State.putHome_passes (s : State) (pa : Nat) (b : Byte) : (s.putHome pa b).passes = s.passes := rfl
@[simp] theorem State.putHome_jobs (s : State) (pa : Nat) (b : Byte) : (s.putHome pa b).jobs = s.jobs := rfl
@[simp] theorem State.putHome_reds (s : State) (pa : Nat) (b : Byte) : (s.putHome pa b).reds = s.reds := rfl
@[simp] theorem State.putHome_fmts (s : State) (pa : Nat) (b : Byte) : (s.putHome pa b).fmts = s.fmts := rfl
@[simp] theorem State.putHome_bad (s : State) (pa : Nat) (b : Byte) : (s.putHome pa b).bad = s.bad := rfl
@[simp] theorem State.putHome_mxOld (s : State) (pa : Nat) (b : Byte) : (s.putHome pa b).mxOld = s.mxOld := rfl
@[simp] theorem State.putHome_csr (s : State) (pa : Nat) (b : Byte) : (s.putHome pa b).csr = s.csr := rfl
@[simp] theorem State.putHome_parts (s : State) (pa : Nat) (b : Byte) : (s.putHome pa b).parts = s.parts := rfl
@[simp] theorem State.putHome_present (s : State) (pa : Nat) (b : Byte) : (s.putHome pa b).present = s.present := rfl
@[simp] theorem State.putHome_host4 (s : State) (pa : Nat) (b : Byte) : (s.putHome pa b).host4 = s.host4 := rfl
@[simp] theorem State.putHome_form (s : State) (pa : Nat) (b : Byte) : (s.putHome pa b).form = s.form := rfl
@[simp] theorem State.putHome_harvest (s : State) (pa : Nat) (b : Byte) : (s.putHome pa b).harvest = s.harvest := rfl
@[simp] theorem State.putHome_memCfg (s : State) (pa : Nat) (b : Byte) : (s.putHome pa b).memCfg = s.memCfg := rfl
@[simp] theorem State.putHome_memFails (s : State) (pa : Nat) (b : Byte) : (s.putHome pa b).memFails = s.memFails := rfl
@[simp] theorem State.putHome_relayUp (s : State) (pa : Nat) (b : Byte) : (s.putHome pa b).relayUp = s.relayUp := rfl
@[simp] theorem State.putHome_down (s : State) (pa : Nat) (b : Byte) : (s.putHome pa b).down = s.down := rfl
@[simp] theorem State.putHome_bootSrc (s : State) (pa : Nat) (b : Byte) : (s.putHome pa b).bootSrc = s.bootSrc := rfl
@[simp] theorem State.putHome_bootLen (s : State) (pa : Nat) (b : Byte) : (s.putHome pa b).bootLen = s.bootLen := rfl
@[simp] theorem State.putHome_bootState (s : State) (pa : Nat) (b : Byte) : (s.putHome pa b).bootState = s.bootState := rfl
@[simp] theorem State.putHome_bootReason (s : State) (pa : Nat) (b : Byte) : (s.putHome pa b).bootReason = s.bootReason := rfl
@[simp] theorem State.putHome_fwSel (s : State) (pa : Nat) (b : Byte) : (s.putHome pa b).fwSel = s.fwSel := rfl
@[simp] theorem State.putHome_fwEntry (s : State) (pa : Nat) (b : Byte) : (s.putHome pa b).fwEntry = s.fwEntry := rfl
@[simp] theorem State.putHome_fuses (s : State) (pa : Nat) (b : Byte) : (s.putHome pa b).fuses = s.fuses := rfl
@[simp] theorem State.putHome_svcDone (s : State) (pa : Nat) (b : Byte) : (s.putHome pa b).svcDone = s.svcDone := rfl
@[simp] theorem State.putHome_splNext (s : State) (pa : Nat) (b : Byte) : (s.putHome pa b).splNext = s.splNext := rfl
@[simp] theorem State.putHome_rerun (s : State) (pa : Nat) (b : Byte) : (s.putHome pa b).rerun = s.rerun := rfl
@[simp] theorem State.putHome_tripped (s : State) (pa : Nat) (b : Byte) : (s.putHome pa b).tripped = s.tripped := rfl
@[simp] theorem State.putHome_power (s : State) (pa : Nat) (b : Byte) : (s.putHome pa b).power = s.power := rfl
@[simp] theorem State.putHome_irqs (s : State) (pa : Nat) (b : Byte) : (s.putHome pa b).irqs = s.irqs := rfl
@[simp] theorem State.putHome_devWaits (s : State) (pa : Nat) (b : Byte) : (s.putHome pa b).devWaits = s.devWaits := rfl
@[simp] theorem State.putHome_devRefused (s : State) (pa : Nat) (b : Byte) : (s.putHome pa b).devRefused = s.devRefused := rfl
@[simp] theorem State.putHome_nextLseq (s : State) (pa : Nat) (b : Byte) : (s.putHome pa b).nextLseq = s.nextLseq := rfl
@[simp] theorem State.putHome_nextId (s : State) (pa : Nat) (b : Byte) : (s.putHome pa b).nextId = s.nextId := rfl
@[simp] theorem State.putHome_agenda (s : State) (pa : Nat) (b : Byte) : (s.putHome pa b).agenda = s.agenda := rfl
@[simp] theorem State.putHome_fresh (s : State) (pa : Nat) (b : Byte) : (s.putHome pa b).fresh = s.fresh := rfl
@[simp] theorem State.putHome_turn (s : State) (pa : Nat) (b : Byte) : (s.putHome pa b).turn = s.turn := rfl

/-! ### State.putDie -/

@[simp] theorem State.putDie_me (s : State) (d pa : Nat) (b : Byte) : (s.putDie d pa b).me = s.me := rfl
@[simp] theorem State.putDie_grp (s : State) (d pa : Nat) (b : Byte) : (s.putDie d pa b).grp = s.grp := rfl
@[simp] theorem State.putDie_ctx (s : State) (d pa : Nat) (b : Byte) : (s.putDie d pa b).ctx = s.ctx := rfl
@[simp] theorem State.putDie_teams (s : State) (d pa : Nat) (b : Byte) : (s.putDie d pa b).teams = s.teams := rfl
@[simp] theorem State.putDie_blocks (s : State) (d pa : Nat) (b : Byte) : (s.putDie d pa b).blocks = s.blocks := rfl
@[simp] theorem State.putDie_grids (s : State) (d pa : Nat) (b : Byte) : (s.putDie d pa b).grids = s.grids := rfl
@[simp] theorem State.putDie_tmems (s : State) (d pa : Nat) (b : Byte) : (s.putDie d pa b).tmems = s.tmems := rfl
@[simp] theorem State.putDie_queues (s : State) (d pa : Nat) (b : Byte) : (s.putDie d pa b).queues = s.queues := rfl
@[simp] theorem State.putDie_passes (s : State) (d pa : Nat) (b : Byte) : (s.putDie d pa b).passes = s.passes := rfl
@[simp] theorem State.putDie_jobs (s : State) (d pa : Nat) (b : Byte) : (s.putDie d pa b).jobs = s.jobs := rfl
@[simp] theorem State.putDie_reds (s : State) (d pa : Nat) (b : Byte) : (s.putDie d pa b).reds = s.reds := rfl
@[simp] theorem State.putDie_fmts (s : State) (d pa : Nat) (b : Byte) : (s.putDie d pa b).fmts = s.fmts := rfl
@[simp] theorem State.putDie_mem (s : State) (d pa : Nat) (b : Byte) : (s.putDie d pa b).mem = s.mem := rfl
@[simp] theorem State.putDie_bad (s : State) (d pa : Nat) (b : Byte) : (s.putDie d pa b).bad = s.bad := rfl
@[simp] theorem State.putDie_mxOld (s : State) (d pa : Nat) (b : Byte) : (s.putDie d pa b).mxOld = s.mxOld := rfl
@[simp] theorem State.putDie_csr (s : State) (d pa : Nat) (b : Byte) : (s.putDie d pa b).csr = s.csr := rfl
@[simp] theorem State.putDie_parts (s : State) (d pa : Nat) (b : Byte) : (s.putDie d pa b).parts = s.parts := rfl
@[simp] theorem State.putDie_present (s : State) (d pa : Nat) (b : Byte) : (s.putDie d pa b).present = s.present := rfl
@[simp] theorem State.putDie_host4 (s : State) (d pa : Nat) (b : Byte) : (s.putDie d pa b).host4 = s.host4 := rfl
@[simp] theorem State.putDie_form (s : State) (d pa : Nat) (b : Byte) : (s.putDie d pa b).form = s.form := rfl
@[simp] theorem State.putDie_harvest (s : State) (d pa : Nat) (b : Byte) : (s.putDie d pa b).harvest = s.harvest := rfl
@[simp] theorem State.putDie_memCfg (s : State) (d pa : Nat) (b : Byte) : (s.putDie d pa b).memCfg = s.memCfg := rfl
@[simp] theorem State.putDie_memFails (s : State) (d pa : Nat) (b : Byte) : (s.putDie d pa b).memFails = s.memFails := rfl
@[simp] theorem State.putDie_relayUp (s : State) (d pa : Nat) (b : Byte) : (s.putDie d pa b).relayUp = s.relayUp := rfl
@[simp] theorem State.putDie_down (s : State) (d pa : Nat) (b : Byte) : (s.putDie d pa b).down = s.down := rfl
@[simp] theorem State.putDie_bootSrc (s : State) (d pa : Nat) (b : Byte) : (s.putDie d pa b).bootSrc = s.bootSrc := rfl
@[simp] theorem State.putDie_bootLen (s : State) (d pa : Nat) (b : Byte) : (s.putDie d pa b).bootLen = s.bootLen := rfl
@[simp] theorem State.putDie_bootState (s : State) (d pa : Nat) (b : Byte) : (s.putDie d pa b).bootState = s.bootState := rfl
@[simp] theorem State.putDie_bootReason (s : State) (d pa : Nat) (b : Byte) : (s.putDie d pa b).bootReason = s.bootReason := rfl
@[simp] theorem State.putDie_fwSel (s : State) (d pa : Nat) (b : Byte) : (s.putDie d pa b).fwSel = s.fwSel := rfl
@[simp] theorem State.putDie_fwEntry (s : State) (d pa : Nat) (b : Byte) : (s.putDie d pa b).fwEntry = s.fwEntry := rfl
@[simp] theorem State.putDie_fuses (s : State) (d pa : Nat) (b : Byte) : (s.putDie d pa b).fuses = s.fuses := rfl
@[simp] theorem State.putDie_svcDone (s : State) (d pa : Nat) (b : Byte) : (s.putDie d pa b).svcDone = s.svcDone := rfl
@[simp] theorem State.putDie_splNext (s : State) (d pa : Nat) (b : Byte) : (s.putDie d pa b).splNext = s.splNext := rfl
@[simp] theorem State.putDie_rerun (s : State) (d pa : Nat) (b : Byte) : (s.putDie d pa b).rerun = s.rerun := rfl
@[simp] theorem State.putDie_tripped (s : State) (d pa : Nat) (b : Byte) : (s.putDie d pa b).tripped = s.tripped := rfl
@[simp] theorem State.putDie_power (s : State) (d pa : Nat) (b : Byte) : (s.putDie d pa b).power = s.power := rfl
@[simp] theorem State.putDie_irqs (s : State) (d pa : Nat) (b : Byte) : (s.putDie d pa b).irqs = s.irqs := rfl
@[simp] theorem State.putDie_devWaits (s : State) (d pa : Nat) (b : Byte) : (s.putDie d pa b).devWaits = s.devWaits := rfl
@[simp] theorem State.putDie_devRefused (s : State) (d pa : Nat) (b : Byte) : (s.putDie d pa b).devRefused = s.devRefused := rfl
@[simp] theorem State.putDie_nextLseq (s : State) (d pa : Nat) (b : Byte) : (s.putDie d pa b).nextLseq = s.nextLseq := rfl
@[simp] theorem State.putDie_nextId (s : State) (d pa : Nat) (b : Byte) : (s.putDie d pa b).nextId = s.nextId := rfl
@[simp] theorem State.putDie_agenda (s : State) (d pa : Nat) (b : Byte) : (s.putDie d pa b).agenda = s.agenda := rfl
@[simp] theorem State.putDie_fresh (s : State) (d pa : Nat) (b : Byte) : (s.putDie d pa b).fresh = s.fresh := rfl
@[simp] theorem State.putDie_turn (s : State) (d pa : Nat) (b : Byte) : (s.putDie d pa b).turn = s.turn := rfl

/-! ### State.putL1 -/

@[simp] theorem State.putL1_me (s : State) (d c pa : Nat) (b : Byte) : (s.putL1 d c pa b).me = s.me := rfl
@[simp] theorem State.putL1_grp (s : State) (d c pa : Nat) (b : Byte) : (s.putL1 d c pa b).grp = s.grp := rfl
@[simp] theorem State.putL1_ctx (s : State) (d c pa : Nat) (b : Byte) : (s.putL1 d c pa b).ctx = s.ctx := rfl
@[simp] theorem State.putL1_teams (s : State) (d c pa : Nat) (b : Byte) : (s.putL1 d c pa b).teams = s.teams := rfl
@[simp] theorem State.putL1_blocks (s : State) (d c pa : Nat) (b : Byte) : (s.putL1 d c pa b).blocks = s.blocks := rfl
@[simp] theorem State.putL1_grids (s : State) (d c pa : Nat) (b : Byte) : (s.putL1 d c pa b).grids = s.grids := rfl
@[simp] theorem State.putL1_tmems (s : State) (d c pa : Nat) (b : Byte) : (s.putL1 d c pa b).tmems = s.tmems := rfl
@[simp] theorem State.putL1_dies (s : State) (d c pa : Nat) (b : Byte) : (s.putL1 d c pa b).dies = s.dies := rfl
@[simp] theorem State.putL1_queues (s : State) (d c pa : Nat) (b : Byte) : (s.putL1 d c pa b).queues = s.queues := rfl
@[simp] theorem State.putL1_passes (s : State) (d c pa : Nat) (b : Byte) : (s.putL1 d c pa b).passes = s.passes := rfl
@[simp] theorem State.putL1_jobs (s : State) (d c pa : Nat) (b : Byte) : (s.putL1 d c pa b).jobs = s.jobs := rfl
@[simp] theorem State.putL1_reds (s : State) (d c pa : Nat) (b : Byte) : (s.putL1 d c pa b).reds = s.reds := rfl
@[simp] theorem State.putL1_fmts (s : State) (d c pa : Nat) (b : Byte) : (s.putL1 d c pa b).fmts = s.fmts := rfl
@[simp] theorem State.putL1_mem (s : State) (d c pa : Nat) (b : Byte) : (s.putL1 d c pa b).mem = s.mem := rfl
@[simp] theorem State.putL1_bad (s : State) (d c pa : Nat) (b : Byte) : (s.putL1 d c pa b).bad = s.bad := rfl
@[simp] theorem State.putL1_mxOld (s : State) (d c pa : Nat) (b : Byte) : (s.putL1 d c pa b).mxOld = s.mxOld := rfl
@[simp] theorem State.putL1_csr (s : State) (d c pa : Nat) (b : Byte) : (s.putL1 d c pa b).csr = s.csr := rfl
@[simp] theorem State.putL1_parts (s : State) (d c pa : Nat) (b : Byte) : (s.putL1 d c pa b).parts = s.parts := rfl
@[simp] theorem State.putL1_present (s : State) (d c pa : Nat) (b : Byte) : (s.putL1 d c pa b).present = s.present := rfl
@[simp] theorem State.putL1_host4 (s : State) (d c pa : Nat) (b : Byte) : (s.putL1 d c pa b).host4 = s.host4 := rfl
@[simp] theorem State.putL1_form (s : State) (d c pa : Nat) (b : Byte) : (s.putL1 d c pa b).form = s.form := rfl
@[simp] theorem State.putL1_harvest (s : State) (d c pa : Nat) (b : Byte) : (s.putL1 d c pa b).harvest = s.harvest := rfl
@[simp] theorem State.putL1_memCfg (s : State) (d c pa : Nat) (b : Byte) : (s.putL1 d c pa b).memCfg = s.memCfg := rfl
@[simp] theorem State.putL1_memFails (s : State) (d c pa : Nat) (b : Byte) : (s.putL1 d c pa b).memFails = s.memFails := rfl
@[simp] theorem State.putL1_relayUp (s : State) (d c pa : Nat) (b : Byte) : (s.putL1 d c pa b).relayUp = s.relayUp := rfl
@[simp] theorem State.putL1_down (s : State) (d c pa : Nat) (b : Byte) : (s.putL1 d c pa b).down = s.down := rfl
@[simp] theorem State.putL1_bootSrc (s : State) (d c pa : Nat) (b : Byte) : (s.putL1 d c pa b).bootSrc = s.bootSrc := rfl
@[simp] theorem State.putL1_bootLen (s : State) (d c pa : Nat) (b : Byte) : (s.putL1 d c pa b).bootLen = s.bootLen := rfl
@[simp] theorem State.putL1_bootState (s : State) (d c pa : Nat) (b : Byte) : (s.putL1 d c pa b).bootState = s.bootState := rfl
@[simp] theorem State.putL1_bootReason (s : State) (d c pa : Nat) (b : Byte) : (s.putL1 d c pa b).bootReason = s.bootReason := rfl
@[simp] theorem State.putL1_fwSel (s : State) (d c pa : Nat) (b : Byte) : (s.putL1 d c pa b).fwSel = s.fwSel := rfl
@[simp] theorem State.putL1_fwEntry (s : State) (d c pa : Nat) (b : Byte) : (s.putL1 d c pa b).fwEntry = s.fwEntry := rfl
@[simp] theorem State.putL1_fuses (s : State) (d c pa : Nat) (b : Byte) : (s.putL1 d c pa b).fuses = s.fuses := rfl
@[simp] theorem State.putL1_svcDone (s : State) (d c pa : Nat) (b : Byte) : (s.putL1 d c pa b).svcDone = s.svcDone := rfl
@[simp] theorem State.putL1_splNext (s : State) (d c pa : Nat) (b : Byte) : (s.putL1 d c pa b).splNext = s.splNext := rfl
@[simp] theorem State.putL1_rerun (s : State) (d c pa : Nat) (b : Byte) : (s.putL1 d c pa b).rerun = s.rerun := rfl
@[simp] theorem State.putL1_tripped (s : State) (d c pa : Nat) (b : Byte) : (s.putL1 d c pa b).tripped = s.tripped := rfl
@[simp] theorem State.putL1_power (s : State) (d c pa : Nat) (b : Byte) : (s.putL1 d c pa b).power = s.power := rfl
@[simp] theorem State.putL1_irqs (s : State) (d c pa : Nat) (b : Byte) : (s.putL1 d c pa b).irqs = s.irqs := rfl
@[simp] theorem State.putL1_devWaits (s : State) (d c pa : Nat) (b : Byte) : (s.putL1 d c pa b).devWaits = s.devWaits := rfl
@[simp] theorem State.putL1_devRefused (s : State) (d c pa : Nat) (b : Byte) : (s.putL1 d c pa b).devRefused = s.devRefused := rfl
@[simp] theorem State.putL1_nextLseq (s : State) (d c pa : Nat) (b : Byte) : (s.putL1 d c pa b).nextLseq = s.nextLseq := rfl
@[simp] theorem State.putL1_nextId (s : State) (d c pa : Nat) (b : Byte) : (s.putL1 d c pa b).nextId = s.nextId := rfl
@[simp] theorem State.putL1_agenda (s : State) (d c pa : Nat) (b : Byte) : (s.putL1 d c pa b).agenda = s.agenda := rfl
@[simp] theorem State.putL1_fresh (s : State) (d c pa : Nat) (b : Byte) : (s.putL1 d c pa b).fresh = s.fresh := rfl
@[simp] theorem State.putL1_turn (s : State) (d c pa : Nat) (b : Byte) : (s.putL1 d c pa b).turn = s.turn := rfl

/-! ### State.moveHome -/

@[simp] theorem State.moveHome_me (s : State) (d pa : Nat) (b : Byte) : (s.moveHome d pa b).me = s.me := rfl
@[simp] theorem State.moveHome_grp (s : State) (d pa : Nat) (b : Byte) : (s.moveHome d pa b).grp = s.grp := rfl
@[simp] theorem State.moveHome_ctx (s : State) (d pa : Nat) (b : Byte) : (s.moveHome d pa b).ctx = s.ctx := rfl
@[simp] theorem State.moveHome_teams (s : State) (d pa : Nat) (b : Byte) : (s.moveHome d pa b).teams = s.teams := rfl
@[simp] theorem State.moveHome_blocks (s : State) (d pa : Nat) (b : Byte) : (s.moveHome d pa b).blocks = s.blocks := rfl
@[simp] theorem State.moveHome_grids (s : State) (d pa : Nat) (b : Byte) : (s.moveHome d pa b).grids = s.grids := rfl
@[simp] theorem State.moveHome_tmems (s : State) (d pa : Nat) (b : Byte) : (s.moveHome d pa b).tmems = s.tmems := rfl
@[simp] theorem State.moveHome_queues (s : State) (d pa : Nat) (b : Byte) : (s.moveHome d pa b).queues = s.queues := rfl
@[simp] theorem State.moveHome_passes (s : State) (d pa : Nat) (b : Byte) : (s.moveHome d pa b).passes = s.passes := rfl
@[simp] theorem State.moveHome_jobs (s : State) (d pa : Nat) (b : Byte) : (s.moveHome d pa b).jobs = s.jobs := rfl
@[simp] theorem State.moveHome_reds (s : State) (d pa : Nat) (b : Byte) : (s.moveHome d pa b).reds = s.reds := rfl
@[simp] theorem State.moveHome_fmts (s : State) (d pa : Nat) (b : Byte) : (s.moveHome d pa b).fmts = s.fmts := rfl
@[simp] theorem State.moveHome_bad (s : State) (d pa : Nat) (b : Byte) : (s.moveHome d pa b).bad = s.bad := rfl
@[simp] theorem State.moveHome_mxOld (s : State) (d pa : Nat) (b : Byte) : (s.moveHome d pa b).mxOld = s.mxOld := rfl
@[simp] theorem State.moveHome_csr (s : State) (d pa : Nat) (b : Byte) : (s.moveHome d pa b).csr = s.csr := rfl
@[simp] theorem State.moveHome_parts (s : State) (d pa : Nat) (b : Byte) : (s.moveHome d pa b).parts = s.parts := rfl
@[simp] theorem State.moveHome_present (s : State) (d pa : Nat) (b : Byte) : (s.moveHome d pa b).present = s.present := rfl
@[simp] theorem State.moveHome_host4 (s : State) (d pa : Nat) (b : Byte) : (s.moveHome d pa b).host4 = s.host4 := rfl
@[simp] theorem State.moveHome_form (s : State) (d pa : Nat) (b : Byte) : (s.moveHome d pa b).form = s.form := rfl
@[simp] theorem State.moveHome_harvest (s : State) (d pa : Nat) (b : Byte) : (s.moveHome d pa b).harvest = s.harvest := rfl
@[simp] theorem State.moveHome_memCfg (s : State) (d pa : Nat) (b : Byte) : (s.moveHome d pa b).memCfg = s.memCfg := rfl
@[simp] theorem State.moveHome_memFails (s : State) (d pa : Nat) (b : Byte) : (s.moveHome d pa b).memFails = s.memFails := rfl
@[simp] theorem State.moveHome_relayUp (s : State) (d pa : Nat) (b : Byte) : (s.moveHome d pa b).relayUp = s.relayUp := rfl
@[simp] theorem State.moveHome_down (s : State) (d pa : Nat) (b : Byte) : (s.moveHome d pa b).down = s.down := rfl
@[simp] theorem State.moveHome_bootSrc (s : State) (d pa : Nat) (b : Byte) : (s.moveHome d pa b).bootSrc = s.bootSrc := rfl
@[simp] theorem State.moveHome_bootLen (s : State) (d pa : Nat) (b : Byte) : (s.moveHome d pa b).bootLen = s.bootLen := rfl
@[simp] theorem State.moveHome_bootState (s : State) (d pa : Nat) (b : Byte) : (s.moveHome d pa b).bootState = s.bootState := rfl
@[simp] theorem State.moveHome_bootReason (s : State) (d pa : Nat) (b : Byte) : (s.moveHome d pa b).bootReason = s.bootReason := rfl
@[simp] theorem State.moveHome_fwSel (s : State) (d pa : Nat) (b : Byte) : (s.moveHome d pa b).fwSel = s.fwSel := rfl
@[simp] theorem State.moveHome_fwEntry (s : State) (d pa : Nat) (b : Byte) : (s.moveHome d pa b).fwEntry = s.fwEntry := rfl
@[simp] theorem State.moveHome_fuses (s : State) (d pa : Nat) (b : Byte) : (s.moveHome d pa b).fuses = s.fuses := rfl
@[simp] theorem State.moveHome_svcDone (s : State) (d pa : Nat) (b : Byte) : (s.moveHome d pa b).svcDone = s.svcDone := rfl
@[simp] theorem State.moveHome_splNext (s : State) (d pa : Nat) (b : Byte) : (s.moveHome d pa b).splNext = s.splNext := rfl
@[simp] theorem State.moveHome_rerun (s : State) (d pa : Nat) (b : Byte) : (s.moveHome d pa b).rerun = s.rerun := rfl
@[simp] theorem State.moveHome_tripped (s : State) (d pa : Nat) (b : Byte) : (s.moveHome d pa b).tripped = s.tripped := rfl
@[simp] theorem State.moveHome_power (s : State) (d pa : Nat) (b : Byte) : (s.moveHome d pa b).power = s.power := rfl
@[simp] theorem State.moveHome_irqs (s : State) (d pa : Nat) (b : Byte) : (s.moveHome d pa b).irqs = s.irqs := rfl
@[simp] theorem State.moveHome_devWaits (s : State) (d pa : Nat) (b : Byte) : (s.moveHome d pa b).devWaits = s.devWaits := rfl
@[simp] theorem State.moveHome_devRefused (s : State) (d pa : Nat) (b : Byte) : (s.moveHome d pa b).devRefused = s.devRefused := rfl
@[simp] theorem State.moveHome_nextLseq (s : State) (d pa : Nat) (b : Byte) : (s.moveHome d pa b).nextLseq = s.nextLseq := rfl
@[simp] theorem State.moveHome_nextId (s : State) (d pa : Nat) (b : Byte) : (s.moveHome d pa b).nextId = s.nextId := rfl
@[simp] theorem State.moveHome_agenda (s : State) (d pa : Nat) (b : Byte) : (s.moveHome d pa b).agenda = s.agenda := rfl
@[simp] theorem State.moveHome_fresh (s : State) (d pa : Nat) (b : Byte) : (s.moveHome d pa b).fresh = s.fresh := rfl
@[simp] theorem State.moveHome_turn (s : State) (d pa : Nat) (b : Byte) : (s.moveHome d pa b).turn = s.turn := rfl

/-! ### State.mxReady -/

@[simp] theorem State.mxReady_me (s : State) (p : OldSector → Bool) : (s.mxReady p).me = s.me := rfl
@[simp] theorem State.mxReady_grp (s : State) (p : OldSector → Bool) : (s.mxReady p).grp = s.grp := rfl
@[simp] theorem State.mxReady_ctx (s : State) (p : OldSector → Bool) : (s.mxReady p).ctx = s.ctx := rfl
@[simp] theorem State.mxReady_teams (s : State) (p : OldSector → Bool) : (s.mxReady p).teams = s.teams := rfl
@[simp] theorem State.mxReady_blocks (s : State) (p : OldSector → Bool) : (s.mxReady p).blocks = s.blocks := rfl
@[simp] theorem State.mxReady_grids (s : State) (p : OldSector → Bool) : (s.mxReady p).grids = s.grids := rfl
@[simp] theorem State.mxReady_tmems (s : State) (p : OldSector → Bool) : (s.mxReady p).tmems = s.tmems := rfl
@[simp] theorem State.mxReady_cores (s : State) (p : OldSector → Bool) : (s.mxReady p).cores = s.cores := rfl
@[simp] theorem State.mxReady_dies (s : State) (p : OldSector → Bool) : (s.mxReady p).dies = s.dies := rfl
@[simp] theorem State.mxReady_queues (s : State) (p : OldSector → Bool) : (s.mxReady p).queues = s.queues := rfl
@[simp] theorem State.mxReady_passes (s : State) (p : OldSector → Bool) : (s.mxReady p).passes = s.passes := rfl
@[simp] theorem State.mxReady_jobs (s : State) (p : OldSector → Bool) : (s.mxReady p).jobs = s.jobs := rfl
@[simp] theorem State.mxReady_reds (s : State) (p : OldSector → Bool) : (s.mxReady p).reds = s.reds := rfl
@[simp] theorem State.mxReady_fmts (s : State) (p : OldSector → Bool) : (s.mxReady p).fmts = s.fmts := rfl
@[simp] theorem State.mxReady_mem (s : State) (p : OldSector → Bool) : (s.mxReady p).mem = s.mem := rfl
@[simp] theorem State.mxReady_bad (s : State) (p : OldSector → Bool) : (s.mxReady p).bad = s.bad := rfl
@[simp] theorem State.mxReady_csr (s : State) (p : OldSector → Bool) : (s.mxReady p).csr = s.csr := rfl
@[simp] theorem State.mxReady_parts (s : State) (p : OldSector → Bool) : (s.mxReady p).parts = s.parts := rfl
@[simp] theorem State.mxReady_present (s : State) (p : OldSector → Bool) : (s.mxReady p).present = s.present := rfl
@[simp] theorem State.mxReady_host4 (s : State) (p : OldSector → Bool) : (s.mxReady p).host4 = s.host4 := rfl
@[simp] theorem State.mxReady_form (s : State) (p : OldSector → Bool) : (s.mxReady p).form = s.form := rfl
@[simp] theorem State.mxReady_harvest (s : State) (p : OldSector → Bool) : (s.mxReady p).harvest = s.harvest := rfl
@[simp] theorem State.mxReady_memCfg (s : State) (p : OldSector → Bool) : (s.mxReady p).memCfg = s.memCfg := rfl
@[simp] theorem State.mxReady_memFails (s : State) (p : OldSector → Bool) : (s.mxReady p).memFails = s.memFails := rfl
@[simp] theorem State.mxReady_relayUp (s : State) (p : OldSector → Bool) : (s.mxReady p).relayUp = s.relayUp := rfl
@[simp] theorem State.mxReady_down (s : State) (p : OldSector → Bool) : (s.mxReady p).down = s.down := rfl
@[simp] theorem State.mxReady_bootSrc (s : State) (p : OldSector → Bool) : (s.mxReady p).bootSrc = s.bootSrc := rfl
@[simp] theorem State.mxReady_bootLen (s : State) (p : OldSector → Bool) : (s.mxReady p).bootLen = s.bootLen := rfl
@[simp] theorem State.mxReady_bootState (s : State) (p : OldSector → Bool) : (s.mxReady p).bootState = s.bootState := rfl
@[simp] theorem State.mxReady_bootReason (s : State) (p : OldSector → Bool) : (s.mxReady p).bootReason = s.bootReason := rfl
@[simp] theorem State.mxReady_fwSel (s : State) (p : OldSector → Bool) : (s.mxReady p).fwSel = s.fwSel := rfl
@[simp] theorem State.mxReady_fwEntry (s : State) (p : OldSector → Bool) : (s.mxReady p).fwEntry = s.fwEntry := rfl
@[simp] theorem State.mxReady_fuses (s : State) (p : OldSector → Bool) : (s.mxReady p).fuses = s.fuses := rfl
@[simp] theorem State.mxReady_svcDone (s : State) (p : OldSector → Bool) : (s.mxReady p).svcDone = s.svcDone := rfl
@[simp] theorem State.mxReady_splNext (s : State) (p : OldSector → Bool) : (s.mxReady p).splNext = s.splNext := rfl
@[simp] theorem State.mxReady_rerun (s : State) (p : OldSector → Bool) : (s.mxReady p).rerun = s.rerun := rfl
@[simp] theorem State.mxReady_tripped (s : State) (p : OldSector → Bool) : (s.mxReady p).tripped = s.tripped := rfl
@[simp] theorem State.mxReady_power (s : State) (p : OldSector → Bool) : (s.mxReady p).power = s.power := rfl
@[simp] theorem State.mxReady_irqs (s : State) (p : OldSector → Bool) : (s.mxReady p).irqs = s.irqs := rfl
@[simp] theorem State.mxReady_devWaits (s : State) (p : OldSector → Bool) : (s.mxReady p).devWaits = s.devWaits := rfl
@[simp] theorem State.mxReady_devRefused (s : State) (p : OldSector → Bool) : (s.mxReady p).devRefused = s.devRefused := rfl
@[simp] theorem State.mxReady_nextLseq (s : State) (p : OldSector → Bool) : (s.mxReady p).nextLseq = s.nextLseq := rfl
@[simp] theorem State.mxReady_nextId (s : State) (p : OldSector → Bool) : (s.mxReady p).nextId = s.nextId := rfl
@[simp] theorem State.mxReady_agenda (s : State) (p : OldSector → Bool) : (s.mxReady p).agenda = s.agenda := rfl
@[simp] theorem State.mxReady_fresh (s : State) (p : OldSector → Bool) : (s.mxReady p).fresh = s.fresh := rfl
@[simp] theorem State.mxReady_turn (s : State) (p : OldSector → Bool) : (s.mxReady p).turn = s.turn := rfl

/-! ### State.noteSectors -/

@[simp] theorem State.noteSectors_me (s : State) (t : Team) (l a b : Nat) (ks : List Sector) : (s.noteSectors t l a b ks).me = s.me := rfl
@[simp] theorem State.noteSectors_grp (s : State) (t : Team) (l a b : Nat) (ks : List Sector) : (s.noteSectors t l a b ks).grp = s.grp := rfl
@[simp] theorem State.noteSectors_ctx (s : State) (t : Team) (l a b : Nat) (ks : List Sector) : (s.noteSectors t l a b ks).ctx = s.ctx := rfl
@[simp] theorem State.noteSectors_teams (s : State) (t : Team) (l a b : Nat) (ks : List Sector) : (s.noteSectors t l a b ks).teams = s.teams := rfl
@[simp] theorem State.noteSectors_blocks (s : State) (t : Team) (l a b : Nat) (ks : List Sector) : (s.noteSectors t l a b ks).blocks = s.blocks := rfl
@[simp] theorem State.noteSectors_grids (s : State) (t : Team) (l a b : Nat) (ks : List Sector) : (s.noteSectors t l a b ks).grids = s.grids := rfl
@[simp] theorem State.noteSectors_tmems (s : State) (t : Team) (l a b : Nat) (ks : List Sector) : (s.noteSectors t l a b ks).tmems = s.tmems := rfl
@[simp] theorem State.noteSectors_cores (s : State) (t : Team) (l a b : Nat) (ks : List Sector) : (s.noteSectors t l a b ks).cores = s.cores := rfl
@[simp] theorem State.noteSectors_dies (s : State) (t : Team) (l a b : Nat) (ks : List Sector) : (s.noteSectors t l a b ks).dies = s.dies := rfl
@[simp] theorem State.noteSectors_queues (s : State) (t : Team) (l a b : Nat) (ks : List Sector) : (s.noteSectors t l a b ks).queues = s.queues := rfl
@[simp] theorem State.noteSectors_passes (s : State) (t : Team) (l a b : Nat) (ks : List Sector) : (s.noteSectors t l a b ks).passes = s.passes := rfl
@[simp] theorem State.noteSectors_jobs (s : State) (t : Team) (l a b : Nat) (ks : List Sector) : (s.noteSectors t l a b ks).jobs = s.jobs := rfl
@[simp] theorem State.noteSectors_reds (s : State) (t : Team) (l a b : Nat) (ks : List Sector) : (s.noteSectors t l a b ks).reds = s.reds := rfl
@[simp] theorem State.noteSectors_fmts (s : State) (t : Team) (l a b : Nat) (ks : List Sector) : (s.noteSectors t l a b ks).fmts = s.fmts := rfl
@[simp] theorem State.noteSectors_mem (s : State) (t : Team) (l a b : Nat) (ks : List Sector) : (s.noteSectors t l a b ks).mem = s.mem := rfl
@[simp] theorem State.noteSectors_bad (s : State) (t : Team) (l a b : Nat) (ks : List Sector) : (s.noteSectors t l a b ks).bad = s.bad := rfl
@[simp] theorem State.noteSectors_csr (s : State) (t : Team) (l a b : Nat) (ks : List Sector) : (s.noteSectors t l a b ks).csr = s.csr := rfl
@[simp] theorem State.noteSectors_parts (s : State) (t : Team) (l a b : Nat) (ks : List Sector) : (s.noteSectors t l a b ks).parts = s.parts := rfl
@[simp] theorem State.noteSectors_present (s : State) (t : Team) (l a b : Nat) (ks : List Sector) : (s.noteSectors t l a b ks).present = s.present := rfl
@[simp] theorem State.noteSectors_host4 (s : State) (t : Team) (l a b : Nat) (ks : List Sector) : (s.noteSectors t l a b ks).host4 = s.host4 := rfl
@[simp] theorem State.noteSectors_form (s : State) (t : Team) (l a b : Nat) (ks : List Sector) : (s.noteSectors t l a b ks).form = s.form := rfl
@[simp] theorem State.noteSectors_harvest (s : State) (t : Team) (l a b : Nat) (ks : List Sector) : (s.noteSectors t l a b ks).harvest = s.harvest := rfl
@[simp] theorem State.noteSectors_memCfg (s : State) (t : Team) (l a b : Nat) (ks : List Sector) : (s.noteSectors t l a b ks).memCfg = s.memCfg := rfl
@[simp] theorem State.noteSectors_memFails (s : State) (t : Team) (l a b : Nat) (ks : List Sector) : (s.noteSectors t l a b ks).memFails = s.memFails := rfl
@[simp] theorem State.noteSectors_relayUp (s : State) (t : Team) (l a b : Nat) (ks : List Sector) : (s.noteSectors t l a b ks).relayUp = s.relayUp := rfl
@[simp] theorem State.noteSectors_down (s : State) (t : Team) (l a b : Nat) (ks : List Sector) : (s.noteSectors t l a b ks).down = s.down := rfl
@[simp] theorem State.noteSectors_bootSrc (s : State) (t : Team) (l a b : Nat) (ks : List Sector) : (s.noteSectors t l a b ks).bootSrc = s.bootSrc := rfl
@[simp] theorem State.noteSectors_bootLen (s : State) (t : Team) (l a b : Nat) (ks : List Sector) : (s.noteSectors t l a b ks).bootLen = s.bootLen := rfl
@[simp] theorem State.noteSectors_bootState (s : State) (t : Team) (l a b : Nat) (ks : List Sector) : (s.noteSectors t l a b ks).bootState = s.bootState := rfl
@[simp] theorem State.noteSectors_bootReason (s : State) (t : Team) (l a b : Nat) (ks : List Sector) : (s.noteSectors t l a b ks).bootReason = s.bootReason := rfl
@[simp] theorem State.noteSectors_fwSel (s : State) (t : Team) (l a b : Nat) (ks : List Sector) : (s.noteSectors t l a b ks).fwSel = s.fwSel := rfl
@[simp] theorem State.noteSectors_fwEntry (s : State) (t : Team) (l a b : Nat) (ks : List Sector) : (s.noteSectors t l a b ks).fwEntry = s.fwEntry := rfl
@[simp] theorem State.noteSectors_fuses (s : State) (t : Team) (l a b : Nat) (ks : List Sector) : (s.noteSectors t l a b ks).fuses = s.fuses := rfl
@[simp] theorem State.noteSectors_svcDone (s : State) (t : Team) (l a b : Nat) (ks : List Sector) : (s.noteSectors t l a b ks).svcDone = s.svcDone := rfl
@[simp] theorem State.noteSectors_splNext (s : State) (t : Team) (l a b : Nat) (ks : List Sector) : (s.noteSectors t l a b ks).splNext = s.splNext := rfl
@[simp] theorem State.noteSectors_rerun (s : State) (t : Team) (l a b : Nat) (ks : List Sector) : (s.noteSectors t l a b ks).rerun = s.rerun := rfl
@[simp] theorem State.noteSectors_tripped (s : State) (t : Team) (l a b : Nat) (ks : List Sector) : (s.noteSectors t l a b ks).tripped = s.tripped := rfl
@[simp] theorem State.noteSectors_power (s : State) (t : Team) (l a b : Nat) (ks : List Sector) : (s.noteSectors t l a b ks).power = s.power := rfl
@[simp] theorem State.noteSectors_irqs (s : State) (t : Team) (l a b : Nat) (ks : List Sector) : (s.noteSectors t l a b ks).irqs = s.irqs := rfl
@[simp] theorem State.noteSectors_devWaits (s : State) (t : Team) (l a b : Nat) (ks : List Sector) : (s.noteSectors t l a b ks).devWaits = s.devWaits := rfl
@[simp] theorem State.noteSectors_devRefused (s : State) (t : Team) (l a b : Nat) (ks : List Sector) : (s.noteSectors t l a b ks).devRefused = s.devRefused := rfl
@[simp] theorem State.noteSectors_nextLseq (s : State) (t : Team) (l a b : Nat) (ks : List Sector) : (s.noteSectors t l a b ks).nextLseq = s.nextLseq := rfl
@[simp] theorem State.noteSectors_nextId (s : State) (t : Team) (l a b : Nat) (ks : List Sector) : (s.noteSectors t l a b ks).nextId = s.nextId := rfl
@[simp] theorem State.noteSectors_agenda (s : State) (t : Team) (l a b : Nat) (ks : List Sector) : (s.noteSectors t l a b ks).agenda = s.agenda := rfl
@[simp] theorem State.noteSectors_fresh (s : State) (t : Team) (l a b : Nat) (ks : List Sector) : (s.noteSectors t l a b ks).fresh = s.fresh := rfl
@[simp] theorem State.noteSectors_turn (s : State) (t : Team) (l a b : Nat) (ks : List Sector) : (s.noteSectors t l a b ks).turn = s.turn := rfl

@[simp] theorem State.setCore_cores (s : State) (d c : Nat) (k : Core) : (s.setCore d c k).cores = defSet Core.reset s.cores (coreKey d c) k := rfl
@[simp] theorem State.setDie_dies (s : State) (d : Nat) (x : Die) : (s.setDie d x).dies = defSet Die.reset s.dies d x := rfl
@[simp] theorem State.tickFresh_fresh (s : State) : s.tickFresh.fresh = s.fresh + 1 := rfl
@[simp] theorem State.putHome_mem (s : State) (pa : Nat) (b : Byte) : (s.putHome pa b).mem = defSet emptyByte s.mem pa b := rfl

/-! ### State.setTeam -/

@[simp] theorem State.setTeam_grp (s : State) (t : Team) : (s.setTeam t).grp = s.grp := by
  unfold State.setTeam; split <;> rfl
@[simp] theorem State.setTeam_ctx (s : State) (t : Team) : (s.setTeam t).ctx = s.ctx := by
  unfold State.setTeam; split <;> rfl
@[simp] theorem State.setTeam_blocks (s : State) (t : Team) : (s.setTeam t).blocks = s.blocks := by
  unfold State.setTeam; split <;> rfl
@[simp] theorem State.setTeam_grids (s : State) (t : Team) : (s.setTeam t).grids = s.grids := by
  unfold State.setTeam; split <;> rfl
@[simp] theorem State.setTeam_tmems (s : State) (t : Team) : (s.setTeam t).tmems = s.tmems := by
  unfold State.setTeam; split <;> rfl
@[simp] theorem State.setTeam_cores (s : State) (t : Team) : (s.setTeam t).cores = s.cores := by
  unfold State.setTeam; split <;> rfl
@[simp] theorem State.setTeam_dies (s : State) (t : Team) : (s.setTeam t).dies = s.dies := by
  unfold State.setTeam; split <;> rfl
@[simp] theorem State.setTeam_queues (s : State) (t : Team) : (s.setTeam t).queues = s.queues := by
  unfold State.setTeam; split <;> rfl
@[simp] theorem State.setTeam_passes (s : State) (t : Team) : (s.setTeam t).passes = s.passes := by
  unfold State.setTeam; split <;> rfl
@[simp] theorem State.setTeam_jobs (s : State) (t : Team) : (s.setTeam t).jobs = s.jobs := by
  unfold State.setTeam; split <;> rfl
@[simp] theorem State.setTeam_reds (s : State) (t : Team) : (s.setTeam t).reds = s.reds := by
  unfold State.setTeam; split <;> rfl
@[simp] theorem State.setTeam_fmts (s : State) (t : Team) : (s.setTeam t).fmts = s.fmts := by
  unfold State.setTeam; split <;> rfl
@[simp] theorem State.setTeam_mem (s : State) (t : Team) : (s.setTeam t).mem = s.mem := by
  unfold State.setTeam; split <;> rfl
@[simp] theorem State.setTeam_bad (s : State) (t : Team) : (s.setTeam t).bad = s.bad := by
  unfold State.setTeam; split <;> rfl
@[simp] theorem State.setTeam_mxOld (s : State) (t : Team) : (s.setTeam t).mxOld = s.mxOld := by
  unfold State.setTeam; split <;> rfl
@[simp] theorem State.setTeam_csr (s : State) (t : Team) : (s.setTeam t).csr = s.csr := by
  unfold State.setTeam; split <;> rfl
@[simp] theorem State.setTeam_parts (s : State) (t : Team) : (s.setTeam t).parts = s.parts := by
  unfold State.setTeam; split <;> rfl
@[simp] theorem State.setTeam_present (s : State) (t : Team) : (s.setTeam t).present = s.present := by
  unfold State.setTeam; split <;> rfl
@[simp] theorem State.setTeam_host4 (s : State) (t : Team) : (s.setTeam t).host4 = s.host4 := by
  unfold State.setTeam; split <;> rfl
@[simp] theorem State.setTeam_form (s : State) (t : Team) : (s.setTeam t).form = s.form := by
  unfold State.setTeam; split <;> rfl
@[simp] theorem State.setTeam_harvest (s : State) (t : Team) : (s.setTeam t).harvest = s.harvest := by
  unfold State.setTeam; split <;> rfl
@[simp] theorem State.setTeam_memCfg (s : State) (t : Team) : (s.setTeam t).memCfg = s.memCfg := by
  unfold State.setTeam; split <;> rfl
@[simp] theorem State.setTeam_memFails (s : State) (t : Team) : (s.setTeam t).memFails = s.memFails := by
  unfold State.setTeam; split <;> rfl
@[simp] theorem State.setTeam_relayUp (s : State) (t : Team) : (s.setTeam t).relayUp = s.relayUp := by
  unfold State.setTeam; split <;> rfl
@[simp] theorem State.setTeam_down (s : State) (t : Team) : (s.setTeam t).down = s.down := by
  unfold State.setTeam; split <;> rfl
@[simp] theorem State.setTeam_bootSrc (s : State) (t : Team) : (s.setTeam t).bootSrc = s.bootSrc := by
  unfold State.setTeam; split <;> rfl
@[simp] theorem State.setTeam_bootLen (s : State) (t : Team) : (s.setTeam t).bootLen = s.bootLen := by
  unfold State.setTeam; split <;> rfl
@[simp] theorem State.setTeam_bootState (s : State) (t : Team) : (s.setTeam t).bootState = s.bootState := by
  unfold State.setTeam; split <;> rfl
@[simp] theorem State.setTeam_bootReason (s : State) (t : Team) : (s.setTeam t).bootReason = s.bootReason := by
  unfold State.setTeam; split <;> rfl
@[simp] theorem State.setTeam_fwSel (s : State) (t : Team) : (s.setTeam t).fwSel = s.fwSel := by
  unfold State.setTeam; split <;> rfl
@[simp] theorem State.setTeam_fwEntry (s : State) (t : Team) : (s.setTeam t).fwEntry = s.fwEntry := by
  unfold State.setTeam; split <;> rfl
@[simp] theorem State.setTeam_fuses (s : State) (t : Team) : (s.setTeam t).fuses = s.fuses := by
  unfold State.setTeam; split <;> rfl
@[simp] theorem State.setTeam_svcDone (s : State) (t : Team) : (s.setTeam t).svcDone = s.svcDone := by
  unfold State.setTeam; split <;> rfl
@[simp] theorem State.setTeam_splNext (s : State) (t : Team) : (s.setTeam t).splNext = s.splNext := by
  unfold State.setTeam; split <;> rfl
@[simp] theorem State.setTeam_rerun (s : State) (t : Team) : (s.setTeam t).rerun = s.rerun := by
  unfold State.setTeam; split <;> rfl
@[simp] theorem State.setTeam_tripped (s : State) (t : Team) : (s.setTeam t).tripped = s.tripped := by
  unfold State.setTeam; split <;> rfl
@[simp] theorem State.setTeam_power (s : State) (t : Team) : (s.setTeam t).power = s.power := by
  unfold State.setTeam; split <;> rfl
@[simp] theorem State.setTeam_irqs (s : State) (t : Team) : (s.setTeam t).irqs = s.irqs := by
  unfold State.setTeam; split <;> rfl
@[simp] theorem State.setTeam_devWaits (s : State) (t : Team) : (s.setTeam t).devWaits = s.devWaits := by
  unfold State.setTeam; split <;> rfl
@[simp] theorem State.setTeam_devRefused (s : State) (t : Team) : (s.setTeam t).devRefused = s.devRefused := by
  unfold State.setTeam; split <;> rfl
@[simp] theorem State.setTeam_nextLseq (s : State) (t : Team) : (s.setTeam t).nextLseq = s.nextLseq := by
  unfold State.setTeam; split <;> rfl
@[simp] theorem State.setTeam_nextId (s : State) (t : Team) : (s.setTeam t).nextId = s.nextId := by
  unfold State.setTeam; split <;> rfl
@[simp] theorem State.setTeam_agenda (s : State) (t : Team) : (s.setTeam t).agenda = s.agenda := by
  unfold State.setTeam; split <;> rfl
@[simp] theorem State.setTeam_fresh (s : State) (t : Team) : (s.setTeam t).fresh = s.fresh := by
  unfold State.setTeam; split <;> rfl
@[simp] theorem State.setTeam_turn (s : State) (t : Team) : (s.setTeam t).turn = s.turn := by
  unfold State.setTeam; split <;> rfl

/-! ### Team.setThread -/

@[simp] theorem Team.setThread_id (t : Team) (l : Nat) (th : Thread) : (t.setThread l th).id = t.id := rfl
@[simp] theorem Team.setThread_block (t : Team) (l : Nat) (th : Thread) : (t.setThread l th).block = t.block := rfl
@[simp] theorem Team.setThread_index (t : Team) (l : Nat) (th : Thread) : (t.setThread l th).index = t.index := rfl
@[simp] theorem Team.setThread_width (t : Team) (l : Nat) (th : Thread) : (t.setThread l th).width = t.width := rfl
@[simp] theorem Team.setThread_agent (t : Team) (l : Nat) (th : Thread) : (t.setThread l th).agent = t.agent := rfl
@[simp] theorem Team.setThread_die (t : Team) (l : Nat) (th : Thread) : (t.setThread l th).die = t.die := rfl
@[simp] theorem Team.setThread_core (t : Team) (l : Nat) (th : Thread) : (t.setThread l th).core = t.core := rfl
@[simp] theorem Team.setThread_proc (t : Team) (l : Nat) (th : Thread) : (t.setThread l th).proc = t.proc := rfl
@[simp] theorem Team.setThread_part (t : Team) (l : Nat) (th : Thread) : (t.setThread l th).part = t.part := rfl
@[simp] theorem Team.setThread_sec (t : Team) (l : Nat) (th : Thread) : (t.setThread l th).sec = t.sec := rfl
@[simp] theorem Team.setThread_cls (t : Team) (l : Nat) (th : Thread) : (t.setThread l th).cls = t.cls := rfl
@[simp] theorem Team.setThread_home (t : Team) (l : Nat) (th : Thread) : (t.setThread l th).home = t.home := rfl
@[simp] theorem Team.setThread_priv (t : Team) (l : Nat) (th : Thread) : (t.setThread l th).priv = t.priv := rfl
@[simp] theorem Team.setThread_vregs (t : Team) (l : Nat) (th : Thread) : (t.setThread l th).vregs = t.vregs := rfl
@[simp] theorem Team.setThread_sregs (t : Team) (l : Nat) (th : Thread) : (t.setThread l th).sregs = t.sregs := rfl
@[simp] theorem Team.setThread_mregs (t : Team) (l : Nat) (th : Thread) : (t.setThread l th).mregs = t.mregs := rfl
@[simp] theorem Team.setThread_flags (t : Team) (l : Nat) (th : Thread) : (t.setThread l th).flags = t.flags := rfl
@[simp] theorem Team.setThread_trapEn (t : Team) (l : Nat) (th : Thread) : (t.setThread l th).trapEn = t.trapEn := rfl
@[simp] theorem Team.setThread_sticky (t : Team) (l : Nat) (th : Thread) : (t.setThread l th).sticky = t.sticky := rfl
@[simp] theorem Team.setThread_handler (t : Team) (l : Nat) (th : Thread) : (t.setThread l th).handler = t.handler := rfl
@[simp] theorem Team.setThread_scratch0 (t : Team) (l : Nat) (th : Thread) : (t.setThread l th).scratch0 = t.scratch0 := rfl
@[simp] theorem Team.setThread_scratch1 (t : Team) (l : Nat) (th : Thread) : (t.setThread l th).scratch1 = t.scratch1 := rfl
@[simp] theorem Team.setThread_image (t : Team) (l : Nat) (th : Thread) : (t.setThread l th).image = t.image := rfl
@[simp] theorem Team.setThread_frameVa (t : Team) (l : Nat) (th : Thread) : (t.setThread l th).frameVa = t.frameVa := rfl
@[simp] theorem Team.setThread_bsave (t : Team) (l : Nat) (th : Thread) : (t.setThread l th).bsave = t.bsave := rfl
@[simp] theorem Team.setThread_entries (t : Team) (l : Nat) (th : Thread) : (t.setThread l th).entries = t.entries := rfl
@[simp] theorem Team.setThread_nextOrder (t : Team) (l : Nat) (th : Thread) : (t.setThread l th).nextOrder = t.nextOrder := rfl
@[simp] theorem Team.setThread_frame (t : Team) (l : Nat) (th : Thread) : (t.setThread l th).frame = t.frame := rfl
@[simp] theorem Team.setThread_run (t : Team) (l : Nat) (th : Thread) : (t.setThread l th).run = t.run := rfl
@[simp] theorem Team.setThread_latch (t : Team) (l : Nat) (th : Thread) : (t.setThread l th).latch = t.latch := rfl
@[simp] theorem Team.setThread_pend (t : Team) (l : Nat) (th : Thread) : (t.setThread l th).pend = t.pend := rfl
@[simp] theorem Team.setThread_stall (t : Team) (l : Nat) (th : Thread) : (t.setThread l th).stall = t.stall := rfl
@[simp] theorem Team.setThread_stallRefused (t : Team) (l : Nat) (th : Thread) : (t.setThread l th).stallRefused = t.stallRefused := rfl
@[simp] theorem Team.setThread_absent (t : Team) (l : Nat) (th : Thread) : (t.setThread l th).absent = t.absent := rfl
@[simp] theorem Team.setThread_served (t : Team) (l : Nat) (th : Thread) : (t.setThread l th).served = t.served := rfl
@[simp] theorem Team.setThread_raised (t : Team) (l : Nat) (th : Thread) : (t.setThread l th).raised = t.raised := rfl
@[simp] theorem Team.setThread_raisedTop (t : Team) (l : Nat) (th : Thread) : (t.setThread l th).raisedTop = t.raisedTop := rfl
@[simp] theorem Team.setThread_raisedAt (t : Team) (l : Nat) (th : Thread) : (t.setThread l th).raisedAt = t.raisedAt := rfl
@[simp] theorem Team.setThread_readySince (t : Team) (l : Nat) (th : Thread) : (t.setThread l th).readySince = t.readySince := rfl
@[simp] theorem Team.setThread_jhint (t : Team) (l : Nat) (th : Thread) : (t.setThread l th).jhint = t.jhint := rfl
@[simp] theorem Team.setThread_yielded (t : Team) (l : Nat) (th : Thread) : (t.setThread l th).yielded = t.yielded := rfl
@[simp] theorem Team.setThread_begun (t : Team) (l : Nat) (th : Thread) : (t.setThread l th).begun = t.begun := rfl
@[simp] theorem Team.setThread_stepAt (t : Team) (l : Nat) (th : Thread) : (t.setThread l th).stepAt = t.stepAt := rfl
@[simp] theorem Team.setThread_kids (t : Team) (l : Nat) (th : Thread) : (t.setThread l th).kids = t.kids := rfl
@[simp] theorem Team.setThread_frag (t : Team) (l : Nat) (th : Thread) : (t.setThread l th).frag = t.frag := rfl
@[simp] theorem Team.setThread_fragRank (t : Team) (l : Nat) (th : Thread) : (t.setThread l th).fragRank = t.fragRank := rfl
@[simp] theorem Team.setThread_prim (t : Team) (l : Nat) (th : Thread) : (t.setThread l th).prim = t.prim := rfl

/-! ### Team.mapLanes -/

@[simp] theorem Team.mapLanes_id (t : Team) (f : Nat → Thread → Thread) : (t.mapLanes f).id = t.id := rfl
@[simp] theorem Team.mapLanes_block (t : Team) (f : Nat → Thread → Thread) : (t.mapLanes f).block = t.block := rfl
@[simp] theorem Team.mapLanes_index (t : Team) (f : Nat → Thread → Thread) : (t.mapLanes f).index = t.index := rfl
@[simp] theorem Team.mapLanes_width (t : Team) (f : Nat → Thread → Thread) : (t.mapLanes f).width = t.width := rfl
@[simp] theorem Team.mapLanes_agent (t : Team) (f : Nat → Thread → Thread) : (t.mapLanes f).agent = t.agent := rfl
@[simp] theorem Team.mapLanes_die (t : Team) (f : Nat → Thread → Thread) : (t.mapLanes f).die = t.die := rfl
@[simp] theorem Team.mapLanes_core (t : Team) (f : Nat → Thread → Thread) : (t.mapLanes f).core = t.core := rfl
@[simp] theorem Team.mapLanes_proc (t : Team) (f : Nat → Thread → Thread) : (t.mapLanes f).proc = t.proc := rfl
@[simp] theorem Team.mapLanes_part (t : Team) (f : Nat → Thread → Thread) : (t.mapLanes f).part = t.part := rfl
@[simp] theorem Team.mapLanes_sec (t : Team) (f : Nat → Thread → Thread) : (t.mapLanes f).sec = t.sec := rfl
@[simp] theorem Team.mapLanes_cls (t : Team) (f : Nat → Thread → Thread) : (t.mapLanes f).cls = t.cls := rfl
@[simp] theorem Team.mapLanes_home (t : Team) (f : Nat → Thread → Thread) : (t.mapLanes f).home = t.home := rfl
@[simp] theorem Team.mapLanes_priv (t : Team) (f : Nat → Thread → Thread) : (t.mapLanes f).priv = t.priv := rfl
@[simp] theorem Team.mapLanes_vregs (t : Team) (f : Nat → Thread → Thread) : (t.mapLanes f).vregs = t.vregs := rfl
@[simp] theorem Team.mapLanes_sregs (t : Team) (f : Nat → Thread → Thread) : (t.mapLanes f).sregs = t.sregs := rfl
@[simp] theorem Team.mapLanes_mregs (t : Team) (f : Nat → Thread → Thread) : (t.mapLanes f).mregs = t.mregs := rfl
@[simp] theorem Team.mapLanes_flags (t : Team) (f : Nat → Thread → Thread) : (t.mapLanes f).flags = t.flags := rfl
@[simp] theorem Team.mapLanes_trapEn (t : Team) (f : Nat → Thread → Thread) : (t.mapLanes f).trapEn = t.trapEn := rfl
@[simp] theorem Team.mapLanes_sticky (t : Team) (f : Nat → Thread → Thread) : (t.mapLanes f).sticky = t.sticky := rfl
@[simp] theorem Team.mapLanes_handler (t : Team) (f : Nat → Thread → Thread) : (t.mapLanes f).handler = t.handler := rfl
@[simp] theorem Team.mapLanes_scratch0 (t : Team) (f : Nat → Thread → Thread) : (t.mapLanes f).scratch0 = t.scratch0 := rfl
@[simp] theorem Team.mapLanes_scratch1 (t : Team) (f : Nat → Thread → Thread) : (t.mapLanes f).scratch1 = t.scratch1 := rfl
@[simp] theorem Team.mapLanes_image (t : Team) (f : Nat → Thread → Thread) : (t.mapLanes f).image = t.image := rfl
@[simp] theorem Team.mapLanes_frameVa (t : Team) (f : Nat → Thread → Thread) : (t.mapLanes f).frameVa = t.frameVa := rfl
@[simp] theorem Team.mapLanes_bsave (t : Team) (f : Nat → Thread → Thread) : (t.mapLanes f).bsave = t.bsave := rfl
@[simp] theorem Team.mapLanes_entries (t : Team) (f : Nat → Thread → Thread) : (t.mapLanes f).entries = t.entries := rfl
@[simp] theorem Team.mapLanes_nextOrder (t : Team) (f : Nat → Thread → Thread) : (t.mapLanes f).nextOrder = t.nextOrder := rfl
@[simp] theorem Team.mapLanes_frame (t : Team) (f : Nat → Thread → Thread) : (t.mapLanes f).frame = t.frame := rfl
@[simp] theorem Team.mapLanes_run (t : Team) (f : Nat → Thread → Thread) : (t.mapLanes f).run = t.run := rfl
@[simp] theorem Team.mapLanes_latch (t : Team) (f : Nat → Thread → Thread) : (t.mapLanes f).latch = t.latch := rfl
@[simp] theorem Team.mapLanes_pend (t : Team) (f : Nat → Thread → Thread) : (t.mapLanes f).pend = t.pend := rfl
@[simp] theorem Team.mapLanes_stall (t : Team) (f : Nat → Thread → Thread) : (t.mapLanes f).stall = t.stall := rfl
@[simp] theorem Team.mapLanes_stallRefused (t : Team) (f : Nat → Thread → Thread) : (t.mapLanes f).stallRefused = t.stallRefused := rfl
@[simp] theorem Team.mapLanes_absent (t : Team) (f : Nat → Thread → Thread) : (t.mapLanes f).absent = t.absent := rfl
@[simp] theorem Team.mapLanes_served (t : Team) (f : Nat → Thread → Thread) : (t.mapLanes f).served = t.served := rfl
@[simp] theorem Team.mapLanes_raised (t : Team) (f : Nat → Thread → Thread) : (t.mapLanes f).raised = t.raised := rfl
@[simp] theorem Team.mapLanes_raisedTop (t : Team) (f : Nat → Thread → Thread) : (t.mapLanes f).raisedTop = t.raisedTop := rfl
@[simp] theorem Team.mapLanes_raisedAt (t : Team) (f : Nat → Thread → Thread) : (t.mapLanes f).raisedAt = t.raisedAt := rfl
@[simp] theorem Team.mapLanes_readySince (t : Team) (f : Nat → Thread → Thread) : (t.mapLanes f).readySince = t.readySince := rfl
@[simp] theorem Team.mapLanes_jhint (t : Team) (f : Nat → Thread → Thread) : (t.mapLanes f).jhint = t.jhint := rfl
@[simp] theorem Team.mapLanes_yielded (t : Team) (f : Nat → Thread → Thread) : (t.mapLanes f).yielded = t.yielded := rfl
@[simp] theorem Team.mapLanes_begun (t : Team) (f : Nat → Thread → Thread) : (t.mapLanes f).begun = t.begun := rfl
@[simp] theorem Team.mapLanes_stepAt (t : Team) (f : Nat → Thread → Thread) : (t.mapLanes f).stepAt = t.stepAt := rfl
@[simp] theorem Team.mapLanes_kids (t : Team) (f : Nat → Thread → Thread) : (t.mapLanes f).kids = t.kids := rfl
@[simp] theorem Team.mapLanes_frag (t : Team) (f : Nat → Thread → Thread) : (t.mapLanes f).frag = t.frag := rfl
@[simp] theorem Team.mapLanes_fragRank (t : Team) (f : Nat → Thread → Thread) : (t.mapLanes f).fragRank = t.fragRank := rfl
@[simp] theorem Team.mapLanes_prim (t : Team) (f : Nat → Thread → Thread) : (t.mapLanes f).prim = t.prim := rfl

/-! ### Team.mapThreads -/

@[simp] theorem Team.mapThreads_id (t : Team) (m : Mask) (f : Thread → Thread) : (t.mapThreads m f).id = t.id := rfl
@[simp] theorem Team.mapThreads_block (t : Team) (m : Mask) (f : Thread → Thread) : (t.mapThreads m f).block = t.block := rfl
@[simp] theorem Team.mapThreads_index (t : Team) (m : Mask) (f : Thread → Thread) : (t.mapThreads m f).index = t.index := rfl
@[simp] theorem Team.mapThreads_width (t : Team) (m : Mask) (f : Thread → Thread) : (t.mapThreads m f).width = t.width := rfl
@[simp] theorem Team.mapThreads_agent (t : Team) (m : Mask) (f : Thread → Thread) : (t.mapThreads m f).agent = t.agent := rfl
@[simp] theorem Team.mapThreads_die (t : Team) (m : Mask) (f : Thread → Thread) : (t.mapThreads m f).die = t.die := rfl
@[simp] theorem Team.mapThreads_core (t : Team) (m : Mask) (f : Thread → Thread) : (t.mapThreads m f).core = t.core := rfl
@[simp] theorem Team.mapThreads_proc (t : Team) (m : Mask) (f : Thread → Thread) : (t.mapThreads m f).proc = t.proc := rfl
@[simp] theorem Team.mapThreads_part (t : Team) (m : Mask) (f : Thread → Thread) : (t.mapThreads m f).part = t.part := rfl
@[simp] theorem Team.mapThreads_sec (t : Team) (m : Mask) (f : Thread → Thread) : (t.mapThreads m f).sec = t.sec := rfl
@[simp] theorem Team.mapThreads_cls (t : Team) (m : Mask) (f : Thread → Thread) : (t.mapThreads m f).cls = t.cls := rfl
@[simp] theorem Team.mapThreads_home (t : Team) (m : Mask) (f : Thread → Thread) : (t.mapThreads m f).home = t.home := rfl
@[simp] theorem Team.mapThreads_priv (t : Team) (m : Mask) (f : Thread → Thread) : (t.mapThreads m f).priv = t.priv := rfl
@[simp] theorem Team.mapThreads_vregs (t : Team) (m : Mask) (f : Thread → Thread) : (t.mapThreads m f).vregs = t.vregs := rfl
@[simp] theorem Team.mapThreads_sregs (t : Team) (m : Mask) (f : Thread → Thread) : (t.mapThreads m f).sregs = t.sregs := rfl
@[simp] theorem Team.mapThreads_mregs (t : Team) (m : Mask) (f : Thread → Thread) : (t.mapThreads m f).mregs = t.mregs := rfl
@[simp] theorem Team.mapThreads_flags (t : Team) (m : Mask) (f : Thread → Thread) : (t.mapThreads m f).flags = t.flags := rfl
@[simp] theorem Team.mapThreads_trapEn (t : Team) (m : Mask) (f : Thread → Thread) : (t.mapThreads m f).trapEn = t.trapEn := rfl
@[simp] theorem Team.mapThreads_sticky (t : Team) (m : Mask) (f : Thread → Thread) : (t.mapThreads m f).sticky = t.sticky := rfl
@[simp] theorem Team.mapThreads_handler (t : Team) (m : Mask) (f : Thread → Thread) : (t.mapThreads m f).handler = t.handler := rfl
@[simp] theorem Team.mapThreads_scratch0 (t : Team) (m : Mask) (f : Thread → Thread) : (t.mapThreads m f).scratch0 = t.scratch0 := rfl
@[simp] theorem Team.mapThreads_scratch1 (t : Team) (m : Mask) (f : Thread → Thread) : (t.mapThreads m f).scratch1 = t.scratch1 := rfl
@[simp] theorem Team.mapThreads_image (t : Team) (m : Mask) (f : Thread → Thread) : (t.mapThreads m f).image = t.image := rfl
@[simp] theorem Team.mapThreads_frameVa (t : Team) (m : Mask) (f : Thread → Thread) : (t.mapThreads m f).frameVa = t.frameVa := rfl
@[simp] theorem Team.mapThreads_bsave (t : Team) (m : Mask) (f : Thread → Thread) : (t.mapThreads m f).bsave = t.bsave := rfl
@[simp] theorem Team.mapThreads_entries (t : Team) (m : Mask) (f : Thread → Thread) : (t.mapThreads m f).entries = t.entries := rfl
@[simp] theorem Team.mapThreads_nextOrder (t : Team) (m : Mask) (f : Thread → Thread) : (t.mapThreads m f).nextOrder = t.nextOrder := rfl
@[simp] theorem Team.mapThreads_frame (t : Team) (m : Mask) (f : Thread → Thread) : (t.mapThreads m f).frame = t.frame := rfl
@[simp] theorem Team.mapThreads_run (t : Team) (m : Mask) (f : Thread → Thread) : (t.mapThreads m f).run = t.run := rfl
@[simp] theorem Team.mapThreads_latch (t : Team) (m : Mask) (f : Thread → Thread) : (t.mapThreads m f).latch = t.latch := rfl
@[simp] theorem Team.mapThreads_pend (t : Team) (m : Mask) (f : Thread → Thread) : (t.mapThreads m f).pend = t.pend := rfl
@[simp] theorem Team.mapThreads_stall (t : Team) (m : Mask) (f : Thread → Thread) : (t.mapThreads m f).stall = t.stall := rfl
@[simp] theorem Team.mapThreads_stallRefused (t : Team) (m : Mask) (f : Thread → Thread) : (t.mapThreads m f).stallRefused = t.stallRefused := rfl
@[simp] theorem Team.mapThreads_absent (t : Team) (m : Mask) (f : Thread → Thread) : (t.mapThreads m f).absent = t.absent := rfl
@[simp] theorem Team.mapThreads_served (t : Team) (m : Mask) (f : Thread → Thread) : (t.mapThreads m f).served = t.served := rfl
@[simp] theorem Team.mapThreads_raised (t : Team) (m : Mask) (f : Thread → Thread) : (t.mapThreads m f).raised = t.raised := rfl
@[simp] theorem Team.mapThreads_raisedTop (t : Team) (m : Mask) (f : Thread → Thread) : (t.mapThreads m f).raisedTop = t.raisedTop := rfl
@[simp] theorem Team.mapThreads_raisedAt (t : Team) (m : Mask) (f : Thread → Thread) : (t.mapThreads m f).raisedAt = t.raisedAt := rfl
@[simp] theorem Team.mapThreads_readySince (t : Team) (m : Mask) (f : Thread → Thread) : (t.mapThreads m f).readySince = t.readySince := rfl
@[simp] theorem Team.mapThreads_jhint (t : Team) (m : Mask) (f : Thread → Thread) : (t.mapThreads m f).jhint = t.jhint := rfl
@[simp] theorem Team.mapThreads_yielded (t : Team) (m : Mask) (f : Thread → Thread) : (t.mapThreads m f).yielded = t.yielded := rfl
@[simp] theorem Team.mapThreads_begun (t : Team) (m : Mask) (f : Thread → Thread) : (t.mapThreads m f).begun = t.begun := rfl
@[simp] theorem Team.mapThreads_stepAt (t : Team) (m : Mask) (f : Thread → Thread) : (t.mapThreads m f).stepAt = t.stepAt := rfl
@[simp] theorem Team.mapThreads_kids (t : Team) (m : Mask) (f : Thread → Thread) : (t.mapThreads m f).kids = t.kids := rfl
@[simp] theorem Team.mapThreads_frag (t : Team) (m : Mask) (f : Thread → Thread) : (t.mapThreads m f).frag = t.frag := rfl
@[simp] theorem Team.mapThreads_fragRank (t : Team) (m : Mask) (f : Thread → Thread) : (t.mapThreads m f).fragRank = t.fragRank := rfl
@[simp] theorem Team.mapThreads_prim (t : Team) (m : Mask) (f : Thread → Thread) : (t.mapThreads m f).prim = t.prim := rfl

/-! ### Team.vwrite -/

@[simp] theorem Team.vwrite_id (t : Team) (n : Nat) (p : Bool) (ws : List (Nat × Elem)) : (t.vwrite n p ws).id = t.id := rfl
@[simp] theorem Team.vwrite_block (t : Team) (n : Nat) (p : Bool) (ws : List (Nat × Elem)) : (t.vwrite n p ws).block = t.block := rfl
@[simp] theorem Team.vwrite_index (t : Team) (n : Nat) (p : Bool) (ws : List (Nat × Elem)) : (t.vwrite n p ws).index = t.index := rfl
@[simp] theorem Team.vwrite_width (t : Team) (n : Nat) (p : Bool) (ws : List (Nat × Elem)) : (t.vwrite n p ws).width = t.width := rfl
@[simp] theorem Team.vwrite_agent (t : Team) (n : Nat) (p : Bool) (ws : List (Nat × Elem)) : (t.vwrite n p ws).agent = t.agent := rfl
@[simp] theorem Team.vwrite_die (t : Team) (n : Nat) (p : Bool) (ws : List (Nat × Elem)) : (t.vwrite n p ws).die = t.die := rfl
@[simp] theorem Team.vwrite_core (t : Team) (n : Nat) (p : Bool) (ws : List (Nat × Elem)) : (t.vwrite n p ws).core = t.core := rfl
@[simp] theorem Team.vwrite_proc (t : Team) (n : Nat) (p : Bool) (ws : List (Nat × Elem)) : (t.vwrite n p ws).proc = t.proc := rfl
@[simp] theorem Team.vwrite_part (t : Team) (n : Nat) (p : Bool) (ws : List (Nat × Elem)) : (t.vwrite n p ws).part = t.part := rfl
@[simp] theorem Team.vwrite_sec (t : Team) (n : Nat) (p : Bool) (ws : List (Nat × Elem)) : (t.vwrite n p ws).sec = t.sec := rfl
@[simp] theorem Team.vwrite_cls (t : Team) (n : Nat) (p : Bool) (ws : List (Nat × Elem)) : (t.vwrite n p ws).cls = t.cls := rfl
@[simp] theorem Team.vwrite_home (t : Team) (n : Nat) (p : Bool) (ws : List (Nat × Elem)) : (t.vwrite n p ws).home = t.home := rfl
@[simp] theorem Team.vwrite_priv (t : Team) (n : Nat) (p : Bool) (ws : List (Nat × Elem)) : (t.vwrite n p ws).priv = t.priv := rfl
@[simp] theorem Team.vwrite_threads (t : Team) (n : Nat) (p : Bool) (ws : List (Nat × Elem)) : (t.vwrite n p ws).threads = t.threads := rfl
@[simp] theorem Team.vwrite_sregs (t : Team) (n : Nat) (p : Bool) (ws : List (Nat × Elem)) : (t.vwrite n p ws).sregs = t.sregs := rfl
@[simp] theorem Team.vwrite_mregs (t : Team) (n : Nat) (p : Bool) (ws : List (Nat × Elem)) : (t.vwrite n p ws).mregs = t.mregs := rfl
@[simp] theorem Team.vwrite_flags (t : Team) (n : Nat) (p : Bool) (ws : List (Nat × Elem)) : (t.vwrite n p ws).flags = t.flags := rfl
@[simp] theorem Team.vwrite_trapEn (t : Team) (n : Nat) (p : Bool) (ws : List (Nat × Elem)) : (t.vwrite n p ws).trapEn = t.trapEn := rfl
@[simp] theorem Team.vwrite_sticky (t : Team) (n : Nat) (p : Bool) (ws : List (Nat × Elem)) : (t.vwrite n p ws).sticky = t.sticky := rfl
@[simp] theorem Team.vwrite_handler (t : Team) (n : Nat) (p : Bool) (ws : List (Nat × Elem)) : (t.vwrite n p ws).handler = t.handler := rfl
@[simp] theorem Team.vwrite_scratch0 (t : Team) (n : Nat) (p : Bool) (ws : List (Nat × Elem)) : (t.vwrite n p ws).scratch0 = t.scratch0 := rfl
@[simp] theorem Team.vwrite_scratch1 (t : Team) (n : Nat) (p : Bool) (ws : List (Nat × Elem)) : (t.vwrite n p ws).scratch1 = t.scratch1 := rfl
@[simp] theorem Team.vwrite_image (t : Team) (n : Nat) (p : Bool) (ws : List (Nat × Elem)) : (t.vwrite n p ws).image = t.image := rfl
@[simp] theorem Team.vwrite_frameVa (t : Team) (n : Nat) (p : Bool) (ws : List (Nat × Elem)) : (t.vwrite n p ws).frameVa = t.frameVa := rfl
@[simp] theorem Team.vwrite_bsave (t : Team) (n : Nat) (p : Bool) (ws : List (Nat × Elem)) : (t.vwrite n p ws).bsave = t.bsave := rfl
@[simp] theorem Team.vwrite_entries (t : Team) (n : Nat) (p : Bool) (ws : List (Nat × Elem)) : (t.vwrite n p ws).entries = t.entries := rfl
@[simp] theorem Team.vwrite_nextOrder (t : Team) (n : Nat) (p : Bool) (ws : List (Nat × Elem)) : (t.vwrite n p ws).nextOrder = t.nextOrder := rfl
@[simp] theorem Team.vwrite_frame (t : Team) (n : Nat) (p : Bool) (ws : List (Nat × Elem)) : (t.vwrite n p ws).frame = t.frame := rfl
@[simp] theorem Team.vwrite_run (t : Team) (n : Nat) (p : Bool) (ws : List (Nat × Elem)) : (t.vwrite n p ws).run = t.run := rfl
@[simp] theorem Team.vwrite_latch (t : Team) (n : Nat) (p : Bool) (ws : List (Nat × Elem)) : (t.vwrite n p ws).latch = t.latch := rfl
@[simp] theorem Team.vwrite_pend (t : Team) (n : Nat) (p : Bool) (ws : List (Nat × Elem)) : (t.vwrite n p ws).pend = t.pend := rfl
@[simp] theorem Team.vwrite_stall (t : Team) (n : Nat) (p : Bool) (ws : List (Nat × Elem)) : (t.vwrite n p ws).stall = t.stall := rfl
@[simp] theorem Team.vwrite_stallRefused (t : Team) (n : Nat) (p : Bool) (ws : List (Nat × Elem)) : (t.vwrite n p ws).stallRefused = t.stallRefused := rfl
@[simp] theorem Team.vwrite_absent (t : Team) (n : Nat) (p : Bool) (ws : List (Nat × Elem)) : (t.vwrite n p ws).absent = t.absent := rfl
@[simp] theorem Team.vwrite_served (t : Team) (n : Nat) (p : Bool) (ws : List (Nat × Elem)) : (t.vwrite n p ws).served = t.served := rfl
@[simp] theorem Team.vwrite_raised (t : Team) (n : Nat) (p : Bool) (ws : List (Nat × Elem)) : (t.vwrite n p ws).raised = t.raised := rfl
@[simp] theorem Team.vwrite_raisedTop (t : Team) (n : Nat) (p : Bool) (ws : List (Nat × Elem)) : (t.vwrite n p ws).raisedTop = t.raisedTop := rfl
@[simp] theorem Team.vwrite_raisedAt (t : Team) (n : Nat) (p : Bool) (ws : List (Nat × Elem)) : (t.vwrite n p ws).raisedAt = t.raisedAt := rfl
@[simp] theorem Team.vwrite_readySince (t : Team) (n : Nat) (p : Bool) (ws : List (Nat × Elem)) : (t.vwrite n p ws).readySince = t.readySince := rfl
@[simp] theorem Team.vwrite_jhint (t : Team) (n : Nat) (p : Bool) (ws : List (Nat × Elem)) : (t.vwrite n p ws).jhint = t.jhint := rfl
@[simp] theorem Team.vwrite_yielded (t : Team) (n : Nat) (p : Bool) (ws : List (Nat × Elem)) : (t.vwrite n p ws).yielded = t.yielded := rfl
@[simp] theorem Team.vwrite_begun (t : Team) (n : Nat) (p : Bool) (ws : List (Nat × Elem)) : (t.vwrite n p ws).begun = t.begun := rfl
@[simp] theorem Team.vwrite_stepAt (t : Team) (n : Nat) (p : Bool) (ws : List (Nat × Elem)) : (t.vwrite n p ws).stepAt = t.stepAt := rfl
@[simp] theorem Team.vwrite_kids (t : Team) (n : Nat) (p : Bool) (ws : List (Nat × Elem)) : (t.vwrite n p ws).kids = t.kids := rfl
@[simp] theorem Team.vwrite_frag (t : Team) (n : Nat) (p : Bool) (ws : List (Nat × Elem)) : (t.vwrite n p ws).frag = t.frag := rfl
@[simp] theorem Team.vwrite_fragRank (t : Team) (n : Nat) (p : Bool) (ws : List (Nat × Elem)) : (t.vwrite n p ws).fragRank = t.fragRank := rfl
@[simp] theorem Team.vwrite_prim (t : Team) (n : Nat) (p : Bool) (ws : List (Nat × Elem)) : (t.vwrite n p ws).prim = t.prim := rfl

/-! ### Team.setSreg -/

@[simp] theorem Team.setSreg_id (t : Team) (n : Nat) (e : Elem) : (t.setSreg n e).id = t.id := rfl
@[simp] theorem Team.setSreg_block (t : Team) (n : Nat) (e : Elem) : (t.setSreg n e).block = t.block := rfl
@[simp] theorem Team.setSreg_index (t : Team) (n : Nat) (e : Elem) : (t.setSreg n e).index = t.index := rfl
@[simp] theorem Team.setSreg_width (t : Team) (n : Nat) (e : Elem) : (t.setSreg n e).width = t.width := rfl
@[simp] theorem Team.setSreg_agent (t : Team) (n : Nat) (e : Elem) : (t.setSreg n e).agent = t.agent := rfl
@[simp] theorem Team.setSreg_die (t : Team) (n : Nat) (e : Elem) : (t.setSreg n e).die = t.die := rfl
@[simp] theorem Team.setSreg_core (t : Team) (n : Nat) (e : Elem) : (t.setSreg n e).core = t.core := rfl
@[simp] theorem Team.setSreg_proc (t : Team) (n : Nat) (e : Elem) : (t.setSreg n e).proc = t.proc := rfl
@[simp] theorem Team.setSreg_part (t : Team) (n : Nat) (e : Elem) : (t.setSreg n e).part = t.part := rfl
@[simp] theorem Team.setSreg_sec (t : Team) (n : Nat) (e : Elem) : (t.setSreg n e).sec = t.sec := rfl
@[simp] theorem Team.setSreg_cls (t : Team) (n : Nat) (e : Elem) : (t.setSreg n e).cls = t.cls := rfl
@[simp] theorem Team.setSreg_home (t : Team) (n : Nat) (e : Elem) : (t.setSreg n e).home = t.home := rfl
@[simp] theorem Team.setSreg_priv (t : Team) (n : Nat) (e : Elem) : (t.setSreg n e).priv = t.priv := rfl
@[simp] theorem Team.setSreg_threads (t : Team) (n : Nat) (e : Elem) : (t.setSreg n e).threads = t.threads := rfl
@[simp] theorem Team.setSreg_vregs (t : Team) (n : Nat) (e : Elem) : (t.setSreg n e).vregs = t.vregs := rfl
@[simp] theorem Team.setSreg_mregs (t : Team) (n : Nat) (e : Elem) : (t.setSreg n e).mregs = t.mregs := rfl
@[simp] theorem Team.setSreg_flags (t : Team) (n : Nat) (e : Elem) : (t.setSreg n e).flags = t.flags := rfl
@[simp] theorem Team.setSreg_trapEn (t : Team) (n : Nat) (e : Elem) : (t.setSreg n e).trapEn = t.trapEn := rfl
@[simp] theorem Team.setSreg_sticky (t : Team) (n : Nat) (e : Elem) : (t.setSreg n e).sticky = t.sticky := rfl
@[simp] theorem Team.setSreg_handler (t : Team) (n : Nat) (e : Elem) : (t.setSreg n e).handler = t.handler := rfl
@[simp] theorem Team.setSreg_scratch0 (t : Team) (n : Nat) (e : Elem) : (t.setSreg n e).scratch0 = t.scratch0 := rfl
@[simp] theorem Team.setSreg_scratch1 (t : Team) (n : Nat) (e : Elem) : (t.setSreg n e).scratch1 = t.scratch1 := rfl
@[simp] theorem Team.setSreg_image (t : Team) (n : Nat) (e : Elem) : (t.setSreg n e).image = t.image := rfl
@[simp] theorem Team.setSreg_frameVa (t : Team) (n : Nat) (e : Elem) : (t.setSreg n e).frameVa = t.frameVa := rfl
@[simp] theorem Team.setSreg_bsave (t : Team) (n : Nat) (e : Elem) : (t.setSreg n e).bsave = t.bsave := rfl
@[simp] theorem Team.setSreg_entries (t : Team) (n : Nat) (e : Elem) : (t.setSreg n e).entries = t.entries := rfl
@[simp] theorem Team.setSreg_nextOrder (t : Team) (n : Nat) (e : Elem) : (t.setSreg n e).nextOrder = t.nextOrder := rfl
@[simp] theorem Team.setSreg_frame (t : Team) (n : Nat) (e : Elem) : (t.setSreg n e).frame = t.frame := rfl
@[simp] theorem Team.setSreg_run (t : Team) (n : Nat) (e : Elem) : (t.setSreg n e).run = t.run := rfl
@[simp] theorem Team.setSreg_latch (t : Team) (n : Nat) (e : Elem) : (t.setSreg n e).latch = t.latch := rfl
@[simp] theorem Team.setSreg_pend (t : Team) (n : Nat) (e : Elem) : (t.setSreg n e).pend = t.pend := rfl
@[simp] theorem Team.setSreg_stall (t : Team) (n : Nat) (e : Elem) : (t.setSreg n e).stall = t.stall := rfl
@[simp] theorem Team.setSreg_stallRefused (t : Team) (n : Nat) (e : Elem) : (t.setSreg n e).stallRefused = t.stallRefused := rfl
@[simp] theorem Team.setSreg_absent (t : Team) (n : Nat) (e : Elem) : (t.setSreg n e).absent = t.absent := rfl
@[simp] theorem Team.setSreg_served (t : Team) (n : Nat) (e : Elem) : (t.setSreg n e).served = t.served := rfl
@[simp] theorem Team.setSreg_raised (t : Team) (n : Nat) (e : Elem) : (t.setSreg n e).raised = t.raised := rfl
@[simp] theorem Team.setSreg_raisedTop (t : Team) (n : Nat) (e : Elem) : (t.setSreg n e).raisedTop = t.raisedTop := rfl
@[simp] theorem Team.setSreg_raisedAt (t : Team) (n : Nat) (e : Elem) : (t.setSreg n e).raisedAt = t.raisedAt := rfl
@[simp] theorem Team.setSreg_readySince (t : Team) (n : Nat) (e : Elem) : (t.setSreg n e).readySince = t.readySince := rfl
@[simp] theorem Team.setSreg_jhint (t : Team) (n : Nat) (e : Elem) : (t.setSreg n e).jhint = t.jhint := rfl
@[simp] theorem Team.setSreg_yielded (t : Team) (n : Nat) (e : Elem) : (t.setSreg n e).yielded = t.yielded := rfl
@[simp] theorem Team.setSreg_begun (t : Team) (n : Nat) (e : Elem) : (t.setSreg n e).begun = t.begun := rfl
@[simp] theorem Team.setSreg_stepAt (t : Team) (n : Nat) (e : Elem) : (t.setSreg n e).stepAt = t.stepAt := rfl
@[simp] theorem Team.setSreg_kids (t : Team) (n : Nat) (e : Elem) : (t.setSreg n e).kids = t.kids := rfl
@[simp] theorem Team.setSreg_frag (t : Team) (n : Nat) (e : Elem) : (t.setSreg n e).frag = t.frag := rfl
@[simp] theorem Team.setSreg_fragRank (t : Team) (n : Nat) (e : Elem) : (t.setSreg n e).fragRank = t.fragRank := rfl
@[simp] theorem Team.setSreg_prim (t : Team) (n : Nat) (e : Elem) : (t.setSreg n e).prim = t.prim := rfl

/-! ### Team.setMreg -/

@[simp] theorem Team.setMreg_id (t : Team) (n : Nat) (v : Mask) : (t.setMreg n v).id = t.id := rfl
@[simp] theorem Team.setMreg_block (t : Team) (n : Nat) (v : Mask) : (t.setMreg n v).block = t.block := rfl
@[simp] theorem Team.setMreg_index (t : Team) (n : Nat) (v : Mask) : (t.setMreg n v).index = t.index := rfl
@[simp] theorem Team.setMreg_width (t : Team) (n : Nat) (v : Mask) : (t.setMreg n v).width = t.width := rfl
@[simp] theorem Team.setMreg_agent (t : Team) (n : Nat) (v : Mask) : (t.setMreg n v).agent = t.agent := rfl
@[simp] theorem Team.setMreg_die (t : Team) (n : Nat) (v : Mask) : (t.setMreg n v).die = t.die := rfl
@[simp] theorem Team.setMreg_core (t : Team) (n : Nat) (v : Mask) : (t.setMreg n v).core = t.core := rfl
@[simp] theorem Team.setMreg_proc (t : Team) (n : Nat) (v : Mask) : (t.setMreg n v).proc = t.proc := rfl
@[simp] theorem Team.setMreg_part (t : Team) (n : Nat) (v : Mask) : (t.setMreg n v).part = t.part := rfl
@[simp] theorem Team.setMreg_sec (t : Team) (n : Nat) (v : Mask) : (t.setMreg n v).sec = t.sec := rfl
@[simp] theorem Team.setMreg_cls (t : Team) (n : Nat) (v : Mask) : (t.setMreg n v).cls = t.cls := rfl
@[simp] theorem Team.setMreg_home (t : Team) (n : Nat) (v : Mask) : (t.setMreg n v).home = t.home := rfl
@[simp] theorem Team.setMreg_priv (t : Team) (n : Nat) (v : Mask) : (t.setMreg n v).priv = t.priv := rfl
@[simp] theorem Team.setMreg_threads (t : Team) (n : Nat) (v : Mask) : (t.setMreg n v).threads = t.threads := rfl
@[simp] theorem Team.setMreg_vregs (t : Team) (n : Nat) (v : Mask) : (t.setMreg n v).vregs = t.vregs := rfl
@[simp] theorem Team.setMreg_sregs (t : Team) (n : Nat) (v : Mask) : (t.setMreg n v).sregs = t.sregs := rfl
@[simp] theorem Team.setMreg_flags (t : Team) (n : Nat) (v : Mask) : (t.setMreg n v).flags = t.flags := rfl
@[simp] theorem Team.setMreg_trapEn (t : Team) (n : Nat) (v : Mask) : (t.setMreg n v).trapEn = t.trapEn := rfl
@[simp] theorem Team.setMreg_sticky (t : Team) (n : Nat) (v : Mask) : (t.setMreg n v).sticky = t.sticky := rfl
@[simp] theorem Team.setMreg_handler (t : Team) (n : Nat) (v : Mask) : (t.setMreg n v).handler = t.handler := rfl
@[simp] theorem Team.setMreg_scratch0 (t : Team) (n : Nat) (v : Mask) : (t.setMreg n v).scratch0 = t.scratch0 := rfl
@[simp] theorem Team.setMreg_scratch1 (t : Team) (n : Nat) (v : Mask) : (t.setMreg n v).scratch1 = t.scratch1 := rfl
@[simp] theorem Team.setMreg_image (t : Team) (n : Nat) (v : Mask) : (t.setMreg n v).image = t.image := rfl
@[simp] theorem Team.setMreg_frameVa (t : Team) (n : Nat) (v : Mask) : (t.setMreg n v).frameVa = t.frameVa := rfl
@[simp] theorem Team.setMreg_bsave (t : Team) (n : Nat) (v : Mask) : (t.setMreg n v).bsave = t.bsave := rfl
@[simp] theorem Team.setMreg_entries (t : Team) (n : Nat) (v : Mask) : (t.setMreg n v).entries = t.entries := rfl
@[simp] theorem Team.setMreg_nextOrder (t : Team) (n : Nat) (v : Mask) : (t.setMreg n v).nextOrder = t.nextOrder := rfl
@[simp] theorem Team.setMreg_frame (t : Team) (n : Nat) (v : Mask) : (t.setMreg n v).frame = t.frame := rfl
@[simp] theorem Team.setMreg_run (t : Team) (n : Nat) (v : Mask) : (t.setMreg n v).run = t.run := rfl
@[simp] theorem Team.setMreg_latch (t : Team) (n : Nat) (v : Mask) : (t.setMreg n v).latch = t.latch := rfl
@[simp] theorem Team.setMreg_pend (t : Team) (n : Nat) (v : Mask) : (t.setMreg n v).pend = t.pend := rfl
@[simp] theorem Team.setMreg_stall (t : Team) (n : Nat) (v : Mask) : (t.setMreg n v).stall = t.stall := rfl
@[simp] theorem Team.setMreg_stallRefused (t : Team) (n : Nat) (v : Mask) : (t.setMreg n v).stallRefused = t.stallRefused := rfl
@[simp] theorem Team.setMreg_absent (t : Team) (n : Nat) (v : Mask) : (t.setMreg n v).absent = t.absent := rfl
@[simp] theorem Team.setMreg_served (t : Team) (n : Nat) (v : Mask) : (t.setMreg n v).served = t.served := rfl
@[simp] theorem Team.setMreg_raised (t : Team) (n : Nat) (v : Mask) : (t.setMreg n v).raised = t.raised := rfl
@[simp] theorem Team.setMreg_raisedTop (t : Team) (n : Nat) (v : Mask) : (t.setMreg n v).raisedTop = t.raisedTop := rfl
@[simp] theorem Team.setMreg_raisedAt (t : Team) (n : Nat) (v : Mask) : (t.setMreg n v).raisedAt = t.raisedAt := rfl
@[simp] theorem Team.setMreg_readySince (t : Team) (n : Nat) (v : Mask) : (t.setMreg n v).readySince = t.readySince := rfl
@[simp] theorem Team.setMreg_jhint (t : Team) (n : Nat) (v : Mask) : (t.setMreg n v).jhint = t.jhint := rfl
@[simp] theorem Team.setMreg_yielded (t : Team) (n : Nat) (v : Mask) : (t.setMreg n v).yielded = t.yielded := rfl
@[simp] theorem Team.setMreg_begun (t : Team) (n : Nat) (v : Mask) : (t.setMreg n v).begun = t.begun := rfl
@[simp] theorem Team.setMreg_stepAt (t : Team) (n : Nat) (v : Mask) : (t.setMreg n v).stepAt = t.stepAt := rfl
@[simp] theorem Team.setMreg_kids (t : Team) (n : Nat) (v : Mask) : (t.setMreg n v).kids = t.kids := rfl
@[simp] theorem Team.setMreg_frag (t : Team) (n : Nat) (v : Mask) : (t.setMreg n v).frag = t.frag := rfl
@[simp] theorem Team.setMreg_fragRank (t : Team) (n : Nat) (v : Mask) : (t.setMreg n v).fragRank = t.fragRank := rfl
@[simp] theorem Team.setMreg_prim (t : Team) (n : Nat) (v : Mask) : (t.setMreg n v).prim = t.prim := rfl

/-! ### Team.incFlags -/

@[simp] theorem Team.incFlags_id (t : Team) (a b : Nat) : (t.incFlags a b).id = t.id := rfl
@[simp] theorem Team.incFlags_block (t : Team) (a b : Nat) : (t.incFlags a b).block = t.block := rfl
@[simp] theorem Team.incFlags_index (t : Team) (a b : Nat) : (t.incFlags a b).index = t.index := rfl
@[simp] theorem Team.incFlags_width (t : Team) (a b : Nat) : (t.incFlags a b).width = t.width := rfl
@[simp] theorem Team.incFlags_agent (t : Team) (a b : Nat) : (t.incFlags a b).agent = t.agent := rfl
@[simp] theorem Team.incFlags_die (t : Team) (a b : Nat) : (t.incFlags a b).die = t.die := rfl
@[simp] theorem Team.incFlags_core (t : Team) (a b : Nat) : (t.incFlags a b).core = t.core := rfl
@[simp] theorem Team.incFlags_proc (t : Team) (a b : Nat) : (t.incFlags a b).proc = t.proc := rfl
@[simp] theorem Team.incFlags_part (t : Team) (a b : Nat) : (t.incFlags a b).part = t.part := rfl
@[simp] theorem Team.incFlags_sec (t : Team) (a b : Nat) : (t.incFlags a b).sec = t.sec := rfl
@[simp] theorem Team.incFlags_cls (t : Team) (a b : Nat) : (t.incFlags a b).cls = t.cls := rfl
@[simp] theorem Team.incFlags_home (t : Team) (a b : Nat) : (t.incFlags a b).home = t.home := rfl
@[simp] theorem Team.incFlags_priv (t : Team) (a b : Nat) : (t.incFlags a b).priv = t.priv := rfl
@[simp] theorem Team.incFlags_threads (t : Team) (a b : Nat) : (t.incFlags a b).threads = t.threads := rfl
@[simp] theorem Team.incFlags_vregs (t : Team) (a b : Nat) : (t.incFlags a b).vregs = t.vregs := rfl
@[simp] theorem Team.incFlags_sregs (t : Team) (a b : Nat) : (t.incFlags a b).sregs = t.sregs := rfl
@[simp] theorem Team.incFlags_mregs (t : Team) (a b : Nat) : (t.incFlags a b).mregs = t.mregs := rfl
@[simp] theorem Team.incFlags_trapEn (t : Team) (a b : Nat) : (t.incFlags a b).trapEn = t.trapEn := rfl
@[simp] theorem Team.incFlags_sticky (t : Team) (a b : Nat) : (t.incFlags a b).sticky = t.sticky := rfl
@[simp] theorem Team.incFlags_handler (t : Team) (a b : Nat) : (t.incFlags a b).handler = t.handler := rfl
@[simp] theorem Team.incFlags_scratch0 (t : Team) (a b : Nat) : (t.incFlags a b).scratch0 = t.scratch0 := rfl
@[simp] theorem Team.incFlags_scratch1 (t : Team) (a b : Nat) : (t.incFlags a b).scratch1 = t.scratch1 := rfl
@[simp] theorem Team.incFlags_image (t : Team) (a b : Nat) : (t.incFlags a b).image = t.image := rfl
@[simp] theorem Team.incFlags_frameVa (t : Team) (a b : Nat) : (t.incFlags a b).frameVa = t.frameVa := rfl
@[simp] theorem Team.incFlags_bsave (t : Team) (a b : Nat) : (t.incFlags a b).bsave = t.bsave := rfl
@[simp] theorem Team.incFlags_entries (t : Team) (a b : Nat) : (t.incFlags a b).entries = t.entries := rfl
@[simp] theorem Team.incFlags_nextOrder (t : Team) (a b : Nat) : (t.incFlags a b).nextOrder = t.nextOrder := rfl
@[simp] theorem Team.incFlags_frame (t : Team) (a b : Nat) : (t.incFlags a b).frame = t.frame := rfl
@[simp] theorem Team.incFlags_run (t : Team) (a b : Nat) : (t.incFlags a b).run = t.run := rfl
@[simp] theorem Team.incFlags_latch (t : Team) (a b : Nat) : (t.incFlags a b).latch = t.latch := rfl
@[simp] theorem Team.incFlags_pend (t : Team) (a b : Nat) : (t.incFlags a b).pend = t.pend := rfl
@[simp] theorem Team.incFlags_stall (t : Team) (a b : Nat) : (t.incFlags a b).stall = t.stall := rfl
@[simp] theorem Team.incFlags_stallRefused (t : Team) (a b : Nat) : (t.incFlags a b).stallRefused = t.stallRefused := rfl
@[simp] theorem Team.incFlags_absent (t : Team) (a b : Nat) : (t.incFlags a b).absent = t.absent := rfl
@[simp] theorem Team.incFlags_served (t : Team) (a b : Nat) : (t.incFlags a b).served = t.served := rfl
@[simp] theorem Team.incFlags_raised (t : Team) (a b : Nat) : (t.incFlags a b).raised = t.raised := rfl
@[simp] theorem Team.incFlags_raisedTop (t : Team) (a b : Nat) : (t.incFlags a b).raisedTop = t.raisedTop := rfl
@[simp] theorem Team.incFlags_raisedAt (t : Team) (a b : Nat) : (t.incFlags a b).raisedAt = t.raisedAt := rfl
@[simp] theorem Team.incFlags_readySince (t : Team) (a b : Nat) : (t.incFlags a b).readySince = t.readySince := rfl
@[simp] theorem Team.incFlags_jhint (t : Team) (a b : Nat) : (t.incFlags a b).jhint = t.jhint := rfl
@[simp] theorem Team.incFlags_yielded (t : Team) (a b : Nat) : (t.incFlags a b).yielded = t.yielded := rfl
@[simp] theorem Team.incFlags_begun (t : Team) (a b : Nat) : (t.incFlags a b).begun = t.begun := rfl
@[simp] theorem Team.incFlags_stepAt (t : Team) (a b : Nat) : (t.incFlags a b).stepAt = t.stepAt := rfl
@[simp] theorem Team.incFlags_kids (t : Team) (a b : Nat) : (t.incFlags a b).kids = t.kids := rfl
@[simp] theorem Team.incFlags_frag (t : Team) (a b : Nat) : (t.incFlags a b).frag = t.frag := rfl
@[simp] theorem Team.incFlags_fragRank (t : Team) (a b : Nat) : (t.incFlags a b).fragRank = t.fragRank := rfl
@[simp] theorem Team.incFlags_prim (t : Team) (a b : Nat) : (t.incFlags a b).prim = t.prim := rfl

/-! ### Team.setEntry -/

@[simp] theorem Team.setEntry_id (t : Team) (e : Entry) : (t.setEntry e).id = t.id := rfl
@[simp] theorem Team.setEntry_block (t : Team) (e : Entry) : (t.setEntry e).block = t.block := rfl
@[simp] theorem Team.setEntry_index (t : Team) (e : Entry) : (t.setEntry e).index = t.index := rfl
@[simp] theorem Team.setEntry_width (t : Team) (e : Entry) : (t.setEntry e).width = t.width := rfl
@[simp] theorem Team.setEntry_agent (t : Team) (e : Entry) : (t.setEntry e).agent = t.agent := rfl
@[simp] theorem Team.setEntry_die (t : Team) (e : Entry) : (t.setEntry e).die = t.die := rfl
@[simp] theorem Team.setEntry_core (t : Team) (e : Entry) : (t.setEntry e).core = t.core := rfl
@[simp] theorem Team.setEntry_proc (t : Team) (e : Entry) : (t.setEntry e).proc = t.proc := rfl
@[simp] theorem Team.setEntry_part (t : Team) (e : Entry) : (t.setEntry e).part = t.part := rfl
@[simp] theorem Team.setEntry_sec (t : Team) (e : Entry) : (t.setEntry e).sec = t.sec := rfl
@[simp] theorem Team.setEntry_cls (t : Team) (e : Entry) : (t.setEntry e).cls = t.cls := rfl
@[simp] theorem Team.setEntry_home (t : Team) (e : Entry) : (t.setEntry e).home = t.home := rfl
@[simp] theorem Team.setEntry_priv (t : Team) (e : Entry) : (t.setEntry e).priv = t.priv := rfl
@[simp] theorem Team.setEntry_threads (t : Team) (e : Entry) : (t.setEntry e).threads = t.threads := rfl
@[simp] theorem Team.setEntry_vregs (t : Team) (e : Entry) : (t.setEntry e).vregs = t.vregs := rfl
@[simp] theorem Team.setEntry_sregs (t : Team) (e : Entry) : (t.setEntry e).sregs = t.sregs := rfl
@[simp] theorem Team.setEntry_mregs (t : Team) (e : Entry) : (t.setEntry e).mregs = t.mregs := rfl
@[simp] theorem Team.setEntry_flags (t : Team) (e : Entry) : (t.setEntry e).flags = t.flags := rfl
@[simp] theorem Team.setEntry_trapEn (t : Team) (e : Entry) : (t.setEntry e).trapEn = t.trapEn := rfl
@[simp] theorem Team.setEntry_sticky (t : Team) (e : Entry) : (t.setEntry e).sticky = t.sticky := rfl
@[simp] theorem Team.setEntry_handler (t : Team) (e : Entry) : (t.setEntry e).handler = t.handler := rfl
@[simp] theorem Team.setEntry_scratch0 (t : Team) (e : Entry) : (t.setEntry e).scratch0 = t.scratch0 := rfl
@[simp] theorem Team.setEntry_scratch1 (t : Team) (e : Entry) : (t.setEntry e).scratch1 = t.scratch1 := rfl
@[simp] theorem Team.setEntry_image (t : Team) (e : Entry) : (t.setEntry e).image = t.image := rfl
@[simp] theorem Team.setEntry_frameVa (t : Team) (e : Entry) : (t.setEntry e).frameVa = t.frameVa := rfl
@[simp] theorem Team.setEntry_bsave (t : Team) (e : Entry) : (t.setEntry e).bsave = t.bsave := rfl
@[simp] theorem Team.setEntry_nextOrder (t : Team) (e : Entry) : (t.setEntry e).nextOrder = t.nextOrder := rfl
@[simp] theorem Team.setEntry_frame (t : Team) (e : Entry) : (t.setEntry e).frame = t.frame := rfl
@[simp] theorem Team.setEntry_run (t : Team) (e : Entry) : (t.setEntry e).run = t.run := rfl
@[simp] theorem Team.setEntry_latch (t : Team) (e : Entry) : (t.setEntry e).latch = t.latch := rfl
@[simp] theorem Team.setEntry_pend (t : Team) (e : Entry) : (t.setEntry e).pend = t.pend := rfl
@[simp] theorem Team.setEntry_stall (t : Team) (e : Entry) : (t.setEntry e).stall = t.stall := rfl
@[simp] theorem Team.setEntry_stallRefused (t : Team) (e : Entry) : (t.setEntry e).stallRefused = t.stallRefused := rfl
@[simp] theorem Team.setEntry_absent (t : Team) (e : Entry) : (t.setEntry e).absent = t.absent := rfl
@[simp] theorem Team.setEntry_served (t : Team) (e : Entry) : (t.setEntry e).served = t.served := rfl
@[simp] theorem Team.setEntry_raised (t : Team) (e : Entry) : (t.setEntry e).raised = t.raised := rfl
@[simp] theorem Team.setEntry_raisedTop (t : Team) (e : Entry) : (t.setEntry e).raisedTop = t.raisedTop := rfl
@[simp] theorem Team.setEntry_raisedAt (t : Team) (e : Entry) : (t.setEntry e).raisedAt = t.raisedAt := rfl
@[simp] theorem Team.setEntry_readySince (t : Team) (e : Entry) : (t.setEntry e).readySince = t.readySince := rfl
@[simp] theorem Team.setEntry_jhint (t : Team) (e : Entry) : (t.setEntry e).jhint = t.jhint := rfl
@[simp] theorem Team.setEntry_yielded (t : Team) (e : Entry) : (t.setEntry e).yielded = t.yielded := rfl
@[simp] theorem Team.setEntry_begun (t : Team) (e : Entry) : (t.setEntry e).begun = t.begun := rfl
@[simp] theorem Team.setEntry_stepAt (t : Team) (e : Entry) : (t.setEntry e).stepAt = t.stepAt := rfl
@[simp] theorem Team.setEntry_kids (t : Team) (e : Entry) : (t.setEntry e).kids = t.kids := rfl
@[simp] theorem Team.setEntry_frag (t : Team) (e : Entry) : (t.setEntry e).frag = t.frag := rfl
@[simp] theorem Team.setEntry_fragRank (t : Team) (e : Entry) : (t.setEntry e).fragRank = t.fragRank := rfl
@[simp] theorem Team.setEntry_prim (t : Team) (e : Entry) : (t.setEntry e).prim = t.prim := rfl

/-! ### Core.setReg -/

@[simp] theorem Core.setReg_dirty (k : Core) (n : Nat) (v : DWord) : (k.setReg n v).dirty = k.dirty := rfl
@[simp] theorem Core.setReg_clean (k : Core) (n : Nat) (v : DWord) : (k.setReg n v).clean = k.clean := rfl
@[simp] theorem Core.setReg_bad (k : Core) (n : Nat) (v : DWord) : (k.setReg n v).bad = k.bad := rfl
@[simp] theorem Core.setReg_tlb (k : Core) (n : Nat) (v : DWord) : (k.setReg n v).tlb = k.tlb := rfl
@[simp] theorem Core.setReg_queue (k : Core) (n : Nat) (v : DWord) : (k.setReg n v).queue = k.queue := rfl
@[simp] theorem Core.setReg_stopped (k : Core) (n : Nat) (v : DWord) : (k.setReg n v).stopped = k.stopped := rfl
@[simp] theorem Core.setReg_stopping (k : Core) (n : Nat) (v : DWord) : (k.setReg n v).stopping = k.stopping := rfl
@[simp] theorem Core.setReg_resuming (k : Core) (n : Nat) (v : DWord) : (k.setReg n v).resuming = k.resuming := rfl
@[simp] theorem Core.setReg_moving (k : Core) (n : Nat) (v : DWord) : (k.setReg n v).moving = k.moving := rfl
@[simp] theorem Core.setReg_waking (k : Core) (n : Nat) (v : DWord) : (k.setReg n v).waking = k.waking := rfl
@[simp] theorem Core.setReg_alloc (k : Core) (n : Nat) (v : DWord) : (k.setReg n v).alloc = k.alloc := rfl
@[simp] theorem Core.setReg_erQueue (k : Core) (n : Nat) (v : DWord) : (k.setReg n v).erQueue = k.erQueue := rfl
@[simp] theorem Core.setReg_banking (k : Core) (n : Nat) (v : DWord) : (k.setReg n v).banking = k.banking := rfl
@[simp] theorem Core.setReg_restarts (k : Core) (n : Nat) (v : DWord) : (k.setReg n v).restarts = k.restarts := rfl
@[simp] theorem Core.setReg_dead (k : Core) (n : Nat) (v : DWord) : (k.setReg n v).dead = k.dead := rfl
@[simp] theorem Core.setReg_lastKick (k : Core) (n : Nat) (v : DWord) : (k.setReg n v).lastKick = k.lastKick := rfl
@[simp] theorem Core.setReg_ticket (k : Core) (n : Nat) (v : DWord) : (k.setReg n v).ticket = k.ticket := rfl
@[simp] theorem Core.setReg_serving (k : Core) (n : Nat) (v : DWord) : (k.setReg n v).serving = k.serving := rfl
@[simp] theorem Core.setReg_image (k : Core) (n : Nat) (v : DWord) : (k.setReg n v).image = k.image := rfl
@[simp] theorem Core.setReg_power (k : Core) (n : Nat) (v : DWord) : (k.setReg n v).power = k.power := rfl

/-! ### Die.setReg -/

@[simp] theorem Die.setReg_dirty (x : Die) (n : Nat) (v : DWord) : (x.setReg n v).dirty = x.dirty := rfl
@[simp] theorem Die.setReg_ctls (x : Die) (n : Nat) (v : DWord) : (x.setReg n v).ctls = x.ctls := rfl
@[simp] theorem Die.setReg_faults (x : Die) (n : Nat) (v : DWord) : (x.setReg n v).faults = x.faults := rfl
@[simp] theorem Die.setReg_tlbq (x : Die) (n : Nat) (v : DWord) : (x.setReg n v).tlbq = x.tlbq := rfl
@[simp] theorem Die.setReg_arrivals (x : Die) (n : Nat) (v : DWord) : (x.setReg n v).arrivals = x.arrivals := rfl
@[simp] theorem Die.setReg_rclk (x : Die) (n : Nat) (v : DWord) : (x.setReg n v).rclk = x.rclk := rfl
@[simp] theorem Die.setReg_errLast (x : Die) (n : Nat) (v : DWord) : (x.setReg n v).errLast = x.errLast := rfl
@[simp] theorem Die.setReg_counters (x : Die) (n : Nat) (v : DWord) : (x.setReg n v).counters = x.counters := rfl
@[simp] theorem Die.setReg_latched (x : Die) (n : Nat) (v : DWord) : (x.setReg n v).latched = x.latched := rfl
@[simp] theorem Die.setReg_lastUpdate (x : Die) (n : Nat) (v : DWord) : (x.setReg n v).lastUpdate = x.lastUpdate := rfl
@[simp] theorem Die.setReg_budget (x : Die) (n : Nat) (v : DWord) : (x.setReg n v).budget = x.budget := rfl
@[simp] theorem Die.setReg_clock (x : Die) (n : Nat) (v : DWord) : (x.setReg n v).clock = x.clock := rfl
@[simp] theorem Die.setReg_power (x : Die) (n : Nat) (v : DWord) : (x.setReg n v).power = x.power := rfl
@[simp] theorem Die.setReg_throttling (x : Die) (n : Nat) (v : DWord) : (x.setReg n v).throttling = x.throttling := rfl

end Sys2Proof.Machine
end

