-- ==== Sys2Proof/Laws/Memory.lean ====
section
/-!
SUPPORT. Laws/Memory: every operation on memory keeps its canonical form, and a byte reads as it was last written (R86, R87).
-/

namespace Sys2Proof.Machine

/-! ## The canonical form -/

theorem Memory.wf_reset : Memory.wf State.reset.mem = true := rfl

/-- A property that each step of a fold keeps holds at its end. -/
theorem foldl_keeps {α β : Type} (P : β → Prop) (f : β → α → β) (l : List α) (b : β) (h : P b) (hs : ∀ b a, P b → P (f b a)) :
    P (l.foldl f b) := by
  induction l generalizing b with
  | nil => exact h
  | cons a t ih => exact ih (f b a) (hs b a h)

/-- A part of the state that each step of a fold leaves alone stands at its end. -/
theorem foldl_same {α β γ : Type} (g : β → γ) (f : β → α → β) (l : List α) (b : β) (hs : ∀ b a, g (f b a) = g b) : g (l.foldl f b) = g b := by
  induction l generalizing b with
  | nil => rfl
  | cons a t ih => exact (ih (f b a)).trans (hs b a)

theorem State.putHome_wf (s : State) (pa : Nat) (b : Byte) (h : Memory.wf s.mem = true) : Memory.wf (s.putHome pa b).mem = true := by
  simpa [Memory.wf] using defWf_defSet emptyByte h pa b

theorem State.putByte_wf (s : State) (p : Point) (pa : Nat) (b : Byte) (h : Memory.wf s.mem = true) : Memory.wf (s.putByte p pa b).mem = true := by
  cases p with
  | l1 d c => exact h
  | die d => exact h
  | home => exact s.putHome_wf pa b h

theorem State.putBytes_wf (s : State) (p : Point) (pa : Nat) (bs : List Byte) (h : Memory.wf s.mem = true) :
    Memory.wf (s.putBytes p pa bs).mem = true :=
  foldl_keeps (fun s : State => Memory.wf s.mem = true) _ _ s h (fun s ib h => s.putByte_wf p (pa + ib.1) ib.2 h)

theorem State.homeWrite_wf (s : State) (pa : Nat) (bs : List Byte) (h : Memory.wf s.mem = true) : Memory.wf (s.homeWrite pa bs).mem = true :=
  s.putBytes_wf .home pa bs h

theorem State.homePut_wf (s : State) (pa n v : Nat) (h : Memory.wf s.mem = true) : Memory.wf (s.homePut pa n v).mem = true :=
  s.homeWrite_wf pa _ h

theorem State.homeWords_wf (s : State) (pa : Nat) (ws : List Nat) (h : Memory.wf s.mem = true) : Memory.wf (s.homeWords pa ws).mem = true :=
  foldl_keeps (fun s : State => Memory.wf s.mem = true) _ _ s h (fun s iw h => s.homePut_wf (pa + 8 * iw.1) 8 iw.2 h)

@[simp] theorem State.ownCopy_mem (s : State) (d c pa : Nat) (b : Byte) : (s.ownCopy d c pa b).mem = s.mem := by
  unfold State.ownCopy; dsimp only; split <;> rfl

theorem State.storeBytes_wf (s : State) (scope d c pa : Nat) (bs : List Byte) (h : Memory.wf s.mem = true) :
    Memory.wf (s.storeBytes scope d c pa bs).mem = true :=
  foldl_keeps (fun s : State => Memory.wf s.mem = true) _ _ _ (s.putBytes_wf (s.pointAt scope d c pa) pa bs h)
    (fun s ib h => by rw [State.ownCopy_mem]; exact h)

@[simp] theorem State.flushLine_mem (s : State) (d c ln : Nat) : (s.flushLine d c ln).mem = s.mem :=
  (foldl_same State.mem (fun (s : State) (p : Nat × Byte) => s.putDie d p.1 p.2) _ _ (fun _ _ => rfl)).trans rfl

@[simp] theorem State.flushCore_mem (s : State) (d c : Nat) : (s.flushCore d c).mem = s.mem :=
  (foldl_same State.mem (fun (s : State) (p : Nat × Byte) => s.putDie d p.1 p.2) _ _ (fun _ _ => rfl)).trans rfl

theorem State.flushDieLine_wf (s : State) (d ln : Nat) (h : Memory.wf s.mem = true) : Memory.wf (s.flushDieLine d ln).mem = true :=
  foldl_keeps (fun s : State => Memory.wf s.mem = true) _ _ s h (fun s p h => s.putHome_wf p.1 p.2 h)

theorem State.flushDie_wf (s : State) (d : Nat) (h : Memory.wf s.mem = true) : Memory.wf (s.flushDie d).mem = true :=
  foldl_keeps (fun s : State => Memory.wf s.mem = true) _ _ s h (fun s p h => s.putHome_wf p.1 p.2 h)

theorem State.release_wf (s : State) (scope d c : Nat) (h : Memory.wf s.mem = true) : Memory.wf (s.release scope d c).mem = true := by
  unfold State.release
  split
  · exact h
  · split
    · rw [State.flushCore_mem]; exact h
    · exact (s.flushCore d c).flushDie_wf d (by rw [State.flushCore_mem]; exact h)

@[simp] theorem State.acquire_mem (s : State) (scope d c : Nat) : (s.acquire scope d c).mem = s.mem := by
  unfold State.acquire
  split
  · rfl
  · simp

theorem State.publishAll_wf (s : State) (h : Memory.wf s.mem = true) : Memory.wf s.publishAll.mem = true := by
  refine foldl_keeps (fun s : State => Memory.wf s.mem = true) (fun (s : State) (p : Nat × Die) => s.flushDie p.1) _ _ ?_
    (fun s p h => s.flushDie_wf p.1 h)
  exact foldl_keeps (fun s : State => Memory.wf s.mem = true) (fun (s : State) (p : Nat × Core) => s.flushCore (p.1 / 64) (p.1 % 64)) _ s h
    (fun s p h => by rw [State.flushCore_mem]; exact h)

@[simp] theorem State.cleanLines_mem (s : State) (ws : List (Nat × Nat)) : (s.cleanLines ws).mem = s.mem := rfl

@[simp] theorem State.cleanOwn_mem (s : State) (d c : Nat) (ws : List (Nat × Nat)) : (s.cleanOwn d c ws).mem = s.mem := by
  unfold State.cleanOwn; dsimp only; split <;> rfl

@[simp] theorem State.poisonLines_mem (s : State) (pa n : Nat) : (s.poisonLines pa n).mem = s.mem :=
  foldl_same State.mem _ _ s (fun _ _ => rfl)

/-! ### Fault records and compressed blocks -/

theorem State.writeFault_wf (s : State) (d : Nat) (r : FaultRec) (h : Memory.wf s.mem = true) : Memory.wf (s.writeFault d r).mem = true := by
  simp only [State.writeFault]
  split
  · rw [State.irq_mem, State.setDie_mem]; exact s.homeWords_wf _ _ h
  · rw [State.setDie_mem]; exact s.homeWords_wf _ _ h

theorem State.drainFaults_wf (d : Nat) (rs : List FaultRec) (s : State) (h : Memory.wf s.mem = true) : Memory.wf (s.drainFaults d rs).mem = true := by
  induction rs generalizing s with
  | nil => exact h
  | cons r rs ih =>
    unfold State.drainFaults
    split
    · exact ih s h
    · split
      · exact ih _ (by rw [State.setDie_mem]; exact s.writeFault_wf d r h)
      · exact h

theorem State.raiseFault_wf (s : State) (d : Nat) (r : FaultRec) (h : Memory.wf s.mem = true) : Memory.wf (s.raiseFault d r).mem = true := by
  unfold State.raiseFault
  dsimp only
  split
  · exact h
  · exact State.drainFaults_wf d _ _ (by rw [State.setDie_mem]; exact h)

theorem State.setCtl_wf (s : State) (d k : Nat) (c : Ctl) (h : Memory.wf s.mem = true) : Memory.wf (s.setCtl d k c).mem = true := by
  unfold State.setCtl
  dsimp only
  split
  · exact State.raiseFault_wf _ d _ (by rw [State.setDie_mem]; exact h)
  · rw [State.setDie_mem]; exact h

@[simp] theorem State.dropBlock_mem (s : State) (d c pa : Nat) : (s.dropBlock d c pa).mem = s.mem := by
  unfold State.dropBlock; split <;> rfl

theorem State.hold_wf (s : State) (x : HeldWrite) (h : Memory.wf s.mem = true) : Memory.wf (s.hold x).mem = true := by
  have key := s.setCtl_wf (s.ctlOf x.pa).1 (s.ctlOf x.pa).2 { s.ctl (s.ctlOf x.pa).1 (s.ctlOf x.pa).2 with
    held := (s.ctl (s.ctlOf x.pa).1 (s.ctlOf x.pa).2).held ++ [x] } h
  unfold State.hold
  dsimp only
  split
  · rw [State.dropBlock_mem]; exact key
  · exact key

@[simp] theorem State.heldDone_mem (s : State) (x : HeldWrite) : (s.heldDone x).mem = s.mem := by
  unfold State.heldDone
  dsimp only
  repeat' split
  all_goals simp only [State.setTeam_mem, State.dropBlock_mem, State.irq_mem]

@[simp] theorem State.mergePoison_mem (s : State) (ws : List HeldWrite) : (s.mergePoison ws).mem = s.mem :=
  foldl_same State.mem (fun (s : State) (x : HeldWrite) => s.poisonLines x.pa x.data.length) _ _ (fun s x => s.poisonLines_mem x.pa x.data.length)

theorem State.mergeBlock_wf (s t : State) (ws : List HeldWrite) (blk : Nat) (h : Memory.wf s.mem = true) (he : s.mergeBlock ws blk = some t) :
    Memory.wf t.mem = true := by
  have key : ∀ (os : List (Nat × Nat)), Memory.wf (os.foldl (fun (s : State) o => s.mergePoison (ws.filter (fun w => decide ((w.team, w.entry) = o))))
      (ws.foldl (fun s w => s.putBytes .home w.pa w.data) s)).mem = true := fun os => by
    rw [foldl_same State.mem _ os _ (fun s o => s.mergePoison_mem _)]
    exact foldl_keeps (fun s : State => Memory.wf s.mem = true) _ ws s h (fun s w h => s.putBytes_wf .home w.pa w.data h)
  unfold State.mergeBlock at he
  dsimp only at he
  split at he
  · injection he with he
    rw [← he]
    exact State.setCtl_wf _ _ _ _ (key _)
  · exact absurd he (by simp)

theorem State.mergeHeld_wf (s t : State) (d k blk : Nat) (h : Memory.wf s.mem = true) (he : s.mergeHeld d k blk = some t) : Memory.wf t.mem = true := by
  unfold State.mergeHeld at he
  dsimp only at he
  obtain ⟨u, hu, rfl⟩ := Option.map_eq_some_iff.mp he
  exact foldl_keeps (fun s : State => Memory.wf s.mem = true) _ _ _ (State.setCtl_wf _ _ _ _ (s.mergeBlock_wf u _ _ h hu))
    (fun s x h => by rw [State.heldDone_mem]; exact h)

theorem State.writeBlocks_wf (s : State) (proc va pa : Nat) (bs : List Byte) (h : Memory.wf s.mem = true) :
    Memory.wf (s.writeBlocks proc va pa bs).mem = true := by
  refine foldl_keeps (fun s : State => Memory.wf s.mem = true) _ _ s h (fun s p h => ?_)
  have hh := fun x => s.hold_wf x h
  dsimp only
  split
  · match he : State.mergeHeld _ _ _ _ with
    | some u => exact State.mergeHeld_wf _ u _ _ _ (hh _) he
    | none => exact hh { team := 0, entry := 0, lane := 0, grid := 0, proc := proc, core := none, va := va + p.1, pa := pa + p.1, data := p.2, irq := none }
  · exact hh _

theorem State.writeVirt_wf (s t : State) (d c p : Nat) (prv : Bool) (va : Nat) (bs : List Byte) (h : Memory.wf s.mem = true)
    (he : s.writeVirt d c p prv va bs = .ok t) : Memory.wf t.mem = true := by
  unfold State.writeVirt at he
  split at he
  · injection he with he
    rw [← he]
    refine foldl_keeps (fun a : State × Nat × List Byte => Memory.wf a.1.mem = true) _ _ (s, va, bs) h (fun a q h => ?_)
    dsimp only
    split
    · exact a.1.writeBlocks_wf p a.2.1 q.1 _ h
    · exact a.1.homeWrite_wf q.1 _ h
  · exact absurd he (by simp)
  · exact absurd he (by simp)

/-- Pieces written in turn: each writes as `writeVirt` does. -/
theorem State.writePieces_wf (s t : State) (w : Team) (base : Nat) (ps : List (Nat × List Byte)) (h : Memory.wf s.mem = true)
    (he : s.writePieces w base ps = .ok t) : Memory.wf t.mem = true := by
  have key : ∀ a : Acc State, (∀ s, a = .ok s → Memory.wf s.mem = true) → ∀ s,
      ps.foldl (fun (a : Acc State) p => match a with
        | .ok s => s.writeVirt w.die w.core w.proc true (base + p.1) p.2
        | e => e) a = .ok s → Memory.wf s.mem = true := by
    clear he
    induction ps with
    | nil => exact fun a ha s hs => ha s hs
    | cons p ps ih =>
      intro a ha s hs
      refine ih _ ?_ s hs
      intro s' hs'
      cases a with
      | ok s0 => exact State.writeVirt_wf s0 s' _ _ _ _ _ _ (ha s0 rfl) hs'
      | fault _ _ => exact absurd hs' (by simp)
      | refuse _ _ => exact absurd hs' (by simp)
  exact key (.ok s) (fun s' hs' => by injection hs' with hs'; rw [← hs']; exact h) t he

/-! ## Read after write -/

/-- A byte at home after one was written there. -/
theorem State.homeByte_putHome (s : State) (pa : Nat) (b : Byte) (h : Memory.wf s.mem = true) (a : Nat) :
    (s.putHome pa b).homeByte a = if a = pa then b else s.homeByte a := by
  unfold State.homeByte
  rw [State.putHome_mem, defGet_defSet emptyByte (tabWf_of_defWf h)]

/-- What a core's write at its own L1 leaves of home. -/
theorem State.homeByte_putL1 (s : State) (d c pa : Nat) (b : Byte) (a : Nat) : (s.putL1 d c pa b).homeByte a = s.homeByte a := rfl

/-- What a write at a die cache leaves of home. -/
theorem State.homeByte_putDie (s : State) (d pa : Nat) (b : Byte) (a : Nat) : (s.putDie d pa b).homeByte a = s.homeByte a := rfl

/-- A byte read at a core's L1 after the core wrote it there. -/
theorem State.l1Byte_putL1 (s : State) (d c pa : Nat) (b : Byte) (h : tabWf s.cores = true) : (s.putL1 d c pa b).l1Byte d c pa = b := by
  have hk : (s.putL1 d c pa b).core d c = { s.core d c with dirty := tabSet (s.core d c).dirty pa b, clean := patchClean (s.core d c).clean pa b } := by
    show defGet Core.reset (defSet Core.reset s.cores (coreKey d c) _) (coreKey d c) = _
    rw [defGet_defSet Core.reset h, if_pos rfl]
  unfold State.l1Byte
  rw [hk]
  simp [tabGet_tabSet]

/-- Memory of a block's banks: a write keeps the form of its bytes. -/
theorem Bank.write_wf (b : Bank) (o : Nat) (bs : List Byte) (h : defWf emptyByte b.bytes = true) : defWf emptyByte (b.write o bs).bytes = true :=
  foldl_keeps (fun t : List (Nat × Byte) => defWf emptyByte t = true) _ _ b.bytes h (fun t ix h => defWf_defSet emptyByte h (o + ix.1) ix.2)

end Sys2Proof.Machine
end

