-- ==== Sys2Proof/Laws/PerInstr.lean ====
section
/-!
SUPPORT. Laws/PerInstr: how many words each instruction has (R107, R115): one or two for a row with an encoding, none for an event.
-/

namespace Sys2Proof.Laws

/-- An instruction has at most two words; it has an encoding exactly when it has a word. -/
def Shape.Statement (i : Instr) : Prop := (encode i).length ≤ 2 ∧ (i.encoded = true ↔ 0 < (encode i).length)

/-- Where the words are written out, the statement is about their number. -/
theorem shape_of_words {i : Instr} (ws : List Word) (h : encode i = ws) (n : ws.length ≤ 2) : Shape.Statement i := by
  subst h
  refine ⟨n, ?_⟩
  simp [Instr.encoded, List.length_pos_iff]

/-- One word. -/
theorem shape_one_word {i : Instr} (w : Word) (h : encode i = [w]) : Shape.Statement i := shape_of_words [w] h (by decide : 1 ≤ 2)

/-- Two words. -/
theorem shape_two_words {i : Instr} (w x : Word) (h : encode i = [w, x]) : Shape.Statement i := shape_of_words [w, x] h (by decide : 2 ≤ 2)

/-- No word. -/
theorem shape_no_word {i : Instr} (h : encode i = []) : Shape.Statement i := shape_of_words [] h (by decide : 0 ≤ 2)

theorem Shape.nop (z : BitVec 24) : Shape.Statement (.nop z) := shape_one_word _ rfl
theorem Shape.nopLong (z : BitVec 24) (w1 : Word) : Shape.Statement (.nopLong z w1) := shape_two_words _ _ rfl
theorem Shape.bra (off : BitVec 24) : Shape.Statement (.bra off) := shape_one_word _ rfl
theorem Shape.braLong (z : BitVec 24) (w1 : Word) : Shape.Statement (.braLong z w1) := shape_two_words _ _ rfl
theorem Shape.brc (p : BitVec 5) (neg : Bool) (off : BitVec 18) : Shape.Statement (.brc p neg off) := shape_one_word _ rfl
theorem Shape.brcLong (p : BitVec 5) (neg : Bool) (z : BitVec 18) (w1 : Word) : Shape.Statement (.brcLong p neg z w1) := shape_two_words _ _ rfl
theorem Shape.brs (sr : BitVec 5) (cc : BitVec 3) (off : BitVec 16) : Shape.Statement (.brs sr cc off) := shape_one_word _ rfl
theorem Shape.brsLong (sr : BitVec 5) (cc : BitVec 3) (z : BitVec 16) (w1 : Word) : Shape.Statement (.brsLong sr cc z w1) := shape_two_words _ _ rfl
theorem Shape.call (off : BitVec 24) : Shape.Statement (.call off) := shape_one_word _ rfl
theorem Shape.callLong (z : BitVec 24) (w1 : Word) : Shape.Statement (.callLong z w1) := shape_two_words _ _ rfl
theorem Shape.ret (o : ShortOps) : Shape.Statement (.ret o) := shape_one_word _ rfl
theorem Shape.retLong (o : LongOps) : Shape.Statement (.retLong o) := shape_two_words _ _ rfl
theorem Shape.jmpi (o : ShortOps) : Shape.Statement (.jmpi o) := shape_one_word _ rfl
theorem Shape.jmpiLong (o : LongOps) : Shape.Statement (.jmpiLong o) := shape_two_words _ _ rfl
theorem Shape.exit (o : ShortOps) : Shape.Statement (.exit o) := shape_one_word _ rfl
theorem Shape.exitLong (o : LongOps) : Shape.Statement (.exitLong o) := shape_two_words _ _ rfl
theorem Shape.trap (o : ShortOps) : Shape.Statement (.trap o) := shape_one_word _ rfl
theorem Shape.trapLong (o : LongOps) : Shape.Statement (.trapLong o) := shape_two_words _ _ rfl
theorem Shape.brk (o : ShortOps) : Shape.Statement (.brk o) := shape_one_word _ rfl
theorem Shape.brkLong (o : LongOps) : Shape.Statement (.brkLong o) := shape_two_words _ _ rfl
theorem Shape.yield (o : ShortOps) : Shape.Statement (.yield o) := shape_one_word _ rfl
theorem Shape.yieldLong (o : LongOps) : Shape.Statement (.yieldLong o) := shape_two_words _ _ rfl
theorem Shape.join (o : ShortOps) : Shape.Statement (.join o) := shape_one_word _ rfl
theorem Shape.joinLong (o : LongOps) : Shape.Statement (.joinLong o) := shape_two_words _ _ rfl
theorem Shape.leave (o : ShortOps) : Shape.Statement (.leave o) := shape_one_word _ rfl
theorem Shape.leaveLong (o : LongOps) : Shape.Statement (.leaveLong o) := shape_two_words _ _ rfl
theorem Shape.waitm (o : ShortOps) : Shape.Statement (.waitm o) := shape_one_word _ rfl
theorem Shape.waitmLong (o : LongOps) : Shape.Statement (.waitmLong o) := shape_two_words _ _ rfl
theorem Shape.msetG (o : ShortOps) : Shape.Statement (.msetG o) := shape_one_word _ rfl
theorem Shape.msetGLong (o : LongOps) : Shape.Statement (.msetGLong o) := shape_two_words _ _ rfl
theorem Shape.msetS (o : LongOps) : Shape.Statement (.msetS o) := shape_two_words _ _ rfl
theorem Shape.msetZ (o : LongOps) : Shape.Statement (.msetZ o) := shape_two_words _ _ rfl
theorem Shape.mgetS (o : ShortOps) : Shape.Statement (.mgetS o) := shape_one_word _ rfl
theorem Shape.mgetSLong (o : LongOps) : Shape.Statement (.mgetSLong o) := shape_two_words _ _ rfl
theorem Shape.mgetV (o : LongOps) : Shape.Statement (.mgetV o) := shape_two_words _ _ rfl
theorem Shape.census (o : ShortOps) : Shape.Statement (.census o) := shape_one_word _ rfl
theorem Shape.censusLong (o : LongOps) : Shape.Statement (.censusLong o) := shape_two_words _ _ rfl
theorem Shape.matchV (o : ShortOps) : Shape.Statement (.matchV o) := shape_one_word _ rfl
theorem Shape.matchVLong (o : LongOps) : Shape.Statement (.matchVLong o) := shape_two_words _ _ rfl
theorem Shape.peek (o : ShortOps) : Shape.Statement (.peek o) := shape_one_word _ rfl
theorem Shape.peekLong (o : LongOps) : Shape.Statement (.peekLong o) := shape_two_words _ _ rfl
theorem Shape.lane (o : ShortOps) : Shape.Statement (.lane o) := shape_one_word _ rfl
theorem Shape.laneLong (o : LongOps) : Shape.Statement (.laneLong o) := shape_two_words _ _ rfl
theorem Shape.pset (o : ShortOps) : Shape.Statement (.pset o) := shape_one_word _ rfl
theorem Shape.psetLong (o : LongOps) : Shape.Statement (.psetLong o) := shape_two_words _ _ rfl
theorem Shape.plop (o : ShortOps) : Shape.Statement (.plop o) := shape_one_word _ rfl
theorem Shape.plopLong (o : LongOps) : Shape.Statement (.plopLong o) := shape_two_words _ _ rfl
theorem Shape.xset (o : ShortOps) : Shape.Statement (.xset o) := shape_one_word _ rfl
theorem Shape.xsetLong (o : LongOps) : Shape.Statement (.xsetLong o) := shape_two_words _ _ rfl
theorem Shape.xget (o : ShortOps) : Shape.Statement (.xget o) := shape_one_word _ rfl
theorem Shape.xgetLong (o : LongOps) : Shape.Statement (.xgetLong o) := shape_two_words _ _ rfl
theorem Shape.xadd (o : ShortOps) : Shape.Statement (.xadd o) := shape_one_word _ rfl
theorem Shape.xaddLong (o : LongOps) : Shape.Statement (.xaddLong o) := shape_two_words _ _ rfl
theorem Shape.sadd (o : SOps) : Shape.Statement (.sadd o) := shape_one_word _ rfl
theorem Shape.saddLong (o : SOps) (w1 : Word) : Shape.Statement (.saddLong o w1) := shape_two_words _ _ rfl
theorem Shape.ssub (o : SOps) : Shape.Statement (.ssub o) := shape_one_word _ rfl
theorem Shape.ssubLong (o : SOps) (w1 : Word) : Shape.Statement (.ssubLong o w1) := shape_two_words _ _ rfl
theorem Shape.smul (o : SOps) : Shape.Statement (.smul o) := shape_one_word _ rfl
theorem Shape.smulLong (o : SOps) (w1 : Word) : Shape.Statement (.smulLong o w1) := shape_two_words _ _ rfl
theorem Shape.sand (o : SOps) : Shape.Statement (.sand o) := shape_one_word _ rfl
theorem Shape.sandLong (o : SOps) (w1 : Word) : Shape.Statement (.sandLong o w1) := shape_two_words _ _ rfl
theorem Shape.sor (o : SOps) : Shape.Statement (.sor o) := shape_one_word _ rfl
theorem Shape.sorLong (o : SOps) (w1 : Word) : Shape.Statement (.sorLong o w1) := shape_two_words _ _ rfl
theorem Shape.sxor (o : SOps) : Shape.Statement (.sxor o) := shape_one_word _ rfl
theorem Shape.sxorLong (o : SOps) (w1 : Word) : Shape.Statement (.sxorLong o w1) := shape_two_words _ _ rfl
theorem Shape.sshl (o : SOps) : Shape.Statement (.sshl o) := shape_one_word _ rfl
theorem Shape.sshlLong (o : SOps) (w1 : Word) : Shape.Statement (.sshlLong o w1) := shape_two_words _ _ rfl
theorem Shape.sshr (o : SOps) : Shape.Statement (.sshr o) := shape_one_word _ rfl
theorem Shape.sshrLong (o : SOps) (w1 : Word) : Shape.Statement (.sshrLong o w1) := shape_two_words _ _ rfl
theorem Shape.ssar (o : SOps) : Shape.Statement (.ssar o) := shape_one_word _ rfl
theorem Shape.ssarLong (o : SOps) (w1 : Word) : Shape.Statement (.ssarLong o w1) := shape_two_words _ _ rfl
theorem Shape.smin (o : SOps) : Shape.Statement (.smin o) := shape_one_word _ rfl
theorem Shape.sminLong (o : SOps) (w1 : Word) : Shape.Statement (.sminLong o w1) := shape_two_words _ _ rfl
theorem Shape.smax (o : SOps) : Shape.Statement (.smax o) := shape_one_word _ rfl
theorem Shape.smaxLong (o : SOps) (w1 : Word) : Shape.Statement (.smaxLong o w1) := shape_two_words _ _ rfl
theorem Shape.smov (o : SOps) : Shape.Statement (.smov o) := shape_one_word _ rfl
theorem Shape.scmp (o : SOps) : Shape.Statement (.scmp o) := shape_one_word _ rfl
theorem Shape.ssel (o : SOps) : Shape.Statement (.ssel o) := shape_one_word _ rfl
theorem Shape.smovi (sd : BitVec 5) (z : BitVec 3) (imm : BitVec 16) : Shape.Statement (.smovi sd z imm) := shape_one_word _ rfl
theorem Shape.smoviLong (sd : BitVec 5) (z : BitVec 19) (w1 : Word) : Shape.Statement (.smoviLong sd z w1) := shape_two_words _ _ rfl
theorem Shape.sld (o : MemSOps) : Shape.Statement (.sld o) := shape_one_word _ rfl
theorem Shape.sldLong (o : MemSOps) (w1 : Word) : Shape.Statement (.sldLong o w1) := shape_two_words _ _ rfl
theorem Shape.sst (o : MemSOps) : Shape.Statement (.sst o) := shape_one_word _ rfl
theorem Shape.sstLong (o : MemSOps) (w1 : Word) : Shape.Statement (.sstLong o w1) := shape_two_words _ _ rfl
theorem Shape.ssys (sd sa sb sel : BitVec 5) (z : BitVec 4) : Shape.Statement (.ssys sd sa sb sel z) := shape_one_word _ rfl
theorem Shape.pfx (rnd : BitVec 3) (sat : Bool) (z : BitVec 20) : Shape.Statement (.pfx rnd sat z) := shape_one_word _ rfl
theorem Shape.iadd (o : ShortOps) : Shape.Statement (.iadd o) := shape_one_word _ rfl
theorem Shape.iaddLong (o : LongOps) : Shape.Statement (.iaddLong o) := shape_two_words _ _ rfl
theorem Shape.isub (o : ShortOps) : Shape.Statement (.isub o) := shape_one_word _ rfl
theorem Shape.isubLong (o : LongOps) : Shape.Statement (.isubLong o) := shape_two_words _ _ rfl
theorem Shape.imul (o : ShortOps) : Shape.Statement (.imul o) := shape_one_word _ rfl
theorem Shape.imulLong (o : LongOps) : Shape.Statement (.imulLong o) := shape_two_words _ _ rfl
theorem Shape.imulh (o : ShortOps) : Shape.Statement (.imulh o) := shape_one_word _ rfl
theorem Shape.imulhLong (o : LongOps) : Shape.Statement (.imulhLong o) := shape_two_words _ _ rfl
theorem Shape.imad (o : ShortOps) : Shape.Statement (.imad o) := shape_one_word _ rfl
theorem Shape.imadLong (o : LongOps) : Shape.Statement (.imadLong o) := shape_two_words _ _ rfl
theorem Shape.imin (o : ShortOps) : Shape.Statement (.imin o) := shape_one_word _ rfl
theorem Shape.iminLong (o : LongOps) : Shape.Statement (.iminLong o) := shape_two_words _ _ rfl
theorem Shape.imax (o : ShortOps) : Shape.Statement (.imax o) := shape_one_word _ rfl
theorem Shape.imaxLong (o : LongOps) : Shape.Statement (.imaxLong o) := shape_two_words _ _ rfl
theorem Shape.iabs (o : ShortOps) : Shape.Statement (.iabs o) := shape_one_word _ rfl
theorem Shape.iabsLong (o : LongOps) : Shape.Statement (.iabsLong o) := shape_two_words _ _ rfl
theorem Shape.and (o : ShortOps) : Shape.Statement (.and o) := shape_one_word _ rfl
theorem Shape.andLong (o : LongOps) : Shape.Statement (.andLong o) := shape_two_words _ _ rfl
theorem Shape.or (o : ShortOps) : Shape.Statement (.or o) := shape_one_word _ rfl
theorem Shape.orLong (o : LongOps) : Shape.Statement (.orLong o) := shape_two_words _ _ rfl
theorem Shape.xor (o : ShortOps) : Shape.Statement (.xor o) := shape_one_word _ rfl
theorem Shape.xorLong (o : LongOps) : Shape.Statement (.xorLong o) := shape_two_words _ _ rfl
theorem Shape.shl (o : ShortOps) : Shape.Statement (.shl o) := shape_one_word _ rfl
theorem Shape.shlLong (o : LongOps) : Shape.Statement (.shlLong o) := shape_two_words _ _ rfl
theorem Shape.shr (o : ShortOps) : Shape.Statement (.shr o) := shape_one_word _ rfl
theorem Shape.shrLong (o : LongOps) : Shape.Statement (.shrLong o) := shape_two_words _ _ rfl
theorem Shape.sar (o : ShortOps) : Shape.Statement (.sar o) := shape_one_word _ rfl
theorem Shape.sarLong (o : LongOps) : Shape.Statement (.sarLong o) := shape_two_words _ _ rfl
theorem Shape.popc (o : ShortOps) : Shape.Statement (.popc o) := shape_one_word _ rfl
theorem Shape.popcLong (o : LongOps) : Shape.Statement (.popcLong o) := shape_two_words _ _ rfl
theorem Shape.clz (o : ShortOps) : Shape.Statement (.clz o) := shape_one_word _ rfl
theorem Shape.clzLong (o : LongOps) : Shape.Statement (.clzLong o) := shape_two_words _ _ rfl
theorem Shape.bfe (o : ShortOps) : Shape.Statement (.bfe o) := shape_one_word _ rfl
theorem Shape.bfeLong (o : LongOps) : Shape.Statement (.bfeLong o) := shape_two_words _ _ rfl
theorem Shape.bfi (o : ShortOps) : Shape.Statement (.bfi o) := shape_one_word _ rfl
theorem Shape.bfiLong (o : LongOps) : Shape.Statement (.bfiLong o) := shape_two_words _ _ rfl
theorem Shape.bmix (o : ShortOps) : Shape.Statement (.bmix o) := shape_one_word _ rfl
theorem Shape.bmixLong (o : LongOps) : Shape.Statement (.bmixLong o) := shape_two_words _ _ rfl
theorem Shape.sel (o : ShortOps) : Shape.Statement (.sel o) := shape_one_word _ rfl
theorem Shape.selLong (o : LongOps) : Shape.Statement (.selLong o) := shape_two_words _ _ rfl
theorem Shape.mov (o : ShortOps) : Shape.Statement (.mov o) := shape_one_word _ rfl
theorem Shape.movLong (o : LongOps) : Shape.Statement (.movLong o) := shape_two_words _ _ rfl
theorem Shape.movS (o : LongOps) : Shape.Statement (.movS o) := shape_two_words _ _ rfl
theorem Shape.movi (d : BitVec 8) (imm : BitVec 16) : Shape.Statement (.movi d imm) := shape_one_word _ rfl
theorem Shape.moviLong (d : BitVec 8) (z : BitVec 16) (w1 : Word) : Shape.Statement (.moviLong d z w1) := shape_two_words _ _ rfl
theorem Shape.cmp (o : ShortOps) : Shape.Statement (.cmp o) := shape_one_word _ rfl
theorem Shape.cmpLong (o : LongOps) : Shape.Statement (.cmpLong o) := shape_two_words _ _ rfl
theorem Shape.dot4 (o : ShortOps) : Shape.Statement (.dot4 o) := shape_one_word _ rfl
theorem Shape.dot4Long (o : LongOps) : Shape.Statement (.dot4Long o) := shape_two_words _ _ rfl
theorem Shape.lea (o : ShortOps) : Shape.Statement (.lea o) := shape_one_word _ rfl
theorem Shape.leaLong (o : LongOps) : Shape.Statement (.leaLong o) := shape_two_words _ _ rfl
theorem Shape.iadd3 (o : ShortOps) : Shape.Statement (.iadd3 o) := shape_one_word _ rfl
theorem Shape.iadd3Long (o : LongOps) : Shape.Statement (.iadd3Long o) := shape_two_words _ _ rfl
theorem Shape.brev (o : ShortOps) : Shape.Statement (.brev o) := shape_one_word _ rfl
theorem Shape.brevLong (o : LongOps) : Shape.Statement (.brevLong o) := shape_two_words _ _ rfl
theorem Shape.fadd (o : ShortOps) : Shape.Statement (.fadd o) := shape_one_word _ rfl
theorem Shape.faddLong (o : LongOps) : Shape.Statement (.faddLong o) := shape_two_words _ _ rfl
theorem Shape.fsub (o : ShortOps) : Shape.Statement (.fsub o) := shape_one_word _ rfl
theorem Shape.fsubLong (o : LongOps) : Shape.Statement (.fsubLong o) := shape_two_words _ _ rfl
theorem Shape.fmul (o : ShortOps) : Shape.Statement (.fmul o) := shape_one_word _ rfl
theorem Shape.fmulLong (o : LongOps) : Shape.Statement (.fmulLong o) := shape_two_words _ _ rfl
theorem Shape.ffma (o : ShortOps) : Shape.Statement (.ffma o) := shape_one_word _ rfl
theorem Shape.ffmaLong (o : LongOps) : Shape.Statement (.ffmaLong o) := shape_two_words _ _ rfl
theorem Shape.fmin (o : ShortOps) : Shape.Statement (.fmin o) := shape_one_word _ rfl
theorem Shape.fminLong (o : LongOps) : Shape.Statement (.fminLong o) := shape_two_words _ _ rfl
theorem Shape.fmax (o : ShortOps) : Shape.Statement (.fmax o) := shape_one_word _ rfl
theorem Shape.fmaxLong (o : LongOps) : Shape.Statement (.fmaxLong o) := shape_two_words _ _ rfl
theorem Shape.fcvt (o : ShortOps) : Shape.Statement (.fcvt o) := shape_one_word _ rfl
theorem Shape.fcvtLong (o : LongOps) : Shape.Statement (.fcvtLong o) := shape_two_words _ _ rfl
theorem Shape.i2f (o : ShortOps) : Shape.Statement (.i2f o) := shape_one_word _ rfl
theorem Shape.i2fLong (o : LongOps) : Shape.Statement (.i2fLong o) := shape_two_words _ _ rfl
theorem Shape.f2i (o : ShortOps) : Shape.Statement (.f2i o) := shape_one_word _ rfl
theorem Shape.f2iLong (o : LongOps) : Shape.Statement (.f2iLong o) := shape_two_words _ _ rfl
theorem Shape.pkadd (o : ShortOps) : Shape.Statement (.pkadd o) := shape_one_word _ rfl
theorem Shape.pkaddLong (o : LongOps) : Shape.Statement (.pkaddLong o) := shape_two_words _ _ rfl
theorem Shape.pkmul (o : ShortOps) : Shape.Statement (.pkmul o) := shape_one_word _ rfl
theorem Shape.pkmulLong (o : LongOps) : Shape.Statement (.pkmulLong o) := shape_two_words _ _ rfl
theorem Shape.pkfma (o : ShortOps) : Shape.Statement (.pkfma o) := shape_one_word _ rfl
theorem Shape.pkfmaLong (o : LongOps) : Shape.Statement (.pkfmaLong o) := shape_two_words _ _ rfl
theorem Shape.fclass (o : ShortOps) : Shape.Statement (.fclass o) := shape_one_word _ rfl
theorem Shape.fclassLong (o : LongOps) : Shape.Statement (.fclassLong o) := shape_two_words _ _ rfl
theorem Shape.fscale (o : ShortOps) : Shape.Statement (.fscale o) := shape_one_word _ rfl
theorem Shape.fscaleLong (o : LongOps) : Shape.Statement (.fscaleLong o) := shape_two_words _ _ rfl
theorem Shape.frnd (o : ShortOps) : Shape.Statement (.frnd o) := shape_one_word _ rfl
theorem Shape.frndLong (o : LongOps) : Shape.Statement (.frndLong o) := shape_two_words _ _ rfl
theorem Shape.qnt (o : ShortOps) : Shape.Statement (.qnt o) := shape_one_word _ rfl
theorem Shape.qntLong (o : LongOps) : Shape.Statement (.qntLong o) := shape_two_words _ _ rfl
theorem Shape.frcp (o : ShortOps) : Shape.Statement (.frcp o) := shape_one_word _ rfl
theorem Shape.frcpLong (o : LongOps) : Shape.Statement (.frcpLong o) := shape_two_words _ _ rfl
theorem Shape.frsq (o : ShortOps) : Shape.Statement (.frsq o) := shape_one_word _ rfl
theorem Shape.frsqLong (o : LongOps) : Shape.Statement (.frsqLong o) := shape_two_words _ _ rfl
theorem Shape.fsqrt (o : ShortOps) : Shape.Statement (.fsqrt o) := shape_one_word _ rfl
theorem Shape.fsqrtLong (o : LongOps) : Shape.Statement (.fsqrtLong o) := shape_two_words _ _ rfl
theorem Shape.fexp2 (o : ShortOps) : Shape.Statement (.fexp2 o) := shape_one_word _ rfl
theorem Shape.fexp2Long (o : LongOps) : Shape.Statement (.fexp2Long o) := shape_two_words _ _ rfl
theorem Shape.flog2 (o : ShortOps) : Shape.Statement (.flog2 o) := shape_one_word _ rfl
theorem Shape.flog2Long (o : LongOps) : Shape.Statement (.flog2Long o) := shape_two_words _ _ rfl
theorem Shape.fsin (o : ShortOps) : Shape.Statement (.fsin o) := shape_one_word _ rfl
theorem Shape.fsinLong (o : LongOps) : Shape.Statement (.fsinLong o) := shape_two_words _ _ rfl
theorem Shape.fcos (o : ShortOps) : Shape.Statement (.fcos o) := shape_one_word _ rfl
theorem Shape.fcosLong (o : LongOps) : Shape.Statement (.fcosLong o) := shape_two_words _ _ rfl
theorem Shape.ftanh (o : ShortOps) : Shape.Statement (.ftanh o) := shape_one_word _ rfl
theorem Shape.ftanhLong (o : LongOps) : Shape.Statement (.ftanhLong o) := shape_two_words _ _ rfl
theorem Shape.boxt (o : ShortOps) : Shape.Statement (.boxt o) := shape_one_word _ rfl
theorem Shape.boxtLong (o : LongOps) : Shape.Statement (.boxtLong o) := shape_two_words _ _ rfl
theorem Shape.trit (o : ShortOps) : Shape.Statement (.trit o) := shape_one_word _ rfl
theorem Shape.tritLong (o : LongOps) : Shape.Statement (.tritLong o) := shape_two_words _ _ rfl
theorem Shape.segt (o : ShortOps) : Shape.Statement (.segt o) := shape_one_word _ rfl
theorem Shape.segtLong (o : LongOps) : Shape.Statement (.segtLong o) := shape_two_words _ _ rfl
theorem Shape.bin (o : ShortOps) : Shape.Statement (.bin o) := shape_one_word _ rfl
theorem Shape.binLong (o : LongOps) : Shape.Statement (.binLong o) := shape_two_words _ _ rfl
theorem Shape.tileq (o : ShortOps) : Shape.Statement (.tileq o) := shape_one_word _ rfl
theorem Shape.tileqLong (o : LongOps) : Shape.Statement (.tileqLong o) := shape_two_words _ _ rfl
theorem Shape.ld (o : ShortOps) : Shape.Statement (.ld o) := shape_one_word _ rfl
theorem Shape.ldLong (o : LongOps) : Shape.Statement (.ldLong o) := shape_two_words _ _ rfl
theorem Shape.st (o : ShortOps) : Shape.Statement (.st o) := shape_one_word _ rfl
theorem Shape.stLong (o : LongOps) : Shape.Statement (.stLong o) := shape_two_words _ _ rfl
theorem Shape.lds (o : ShortOps) : Shape.Statement (.lds o) := shape_one_word _ rfl
theorem Shape.ldsLong (o : LongOps) : Shape.Statement (.ldsLong o) := shape_two_words _ _ rfl
theorem Shape.ldsQ (o : LongOps) : Shape.Statement (.ldsQ o) := shape_two_words _ _ rfl
theorem Shape.sts (o : ShortOps) : Shape.Statement (.sts o) := shape_one_word _ rfl
theorem Shape.stsLong (o : LongOps) : Shape.Statement (.stsLong o) := shape_two_words _ _ rfl
theorem Shape.stsQ (o : LongOps) : Shape.Statement (.stsQ o) := shape_two_words _ _ rfl
theorem Shape.ldt (o : ShortOps) : Shape.Statement (.ldt o) := shape_one_word _ rfl
theorem Shape.ldtLong (o : LongOps) : Shape.Statement (.ldtLong o) := shape_two_words _ _ rfl
theorem Shape.stt (o : ShortOps) : Shape.Statement (.stt o) := shape_one_word _ rfl
theorem Shape.sttLong (o : LongOps) : Shape.Statement (.sttLong o) := shape_two_words _ _ rfl
theorem Shape.atomAdd (o : ShortOps) : Shape.Statement (.atomAdd o) := shape_one_word _ rfl
theorem Shape.atomAddLong (o : LongOps) : Shape.Statement (.atomAddLong o) := shape_two_words _ _ rfl
theorem Shape.atomMin (o : ShortOps) : Shape.Statement (.atomMin o) := shape_one_word _ rfl
theorem Shape.atomMinLong (o : LongOps) : Shape.Statement (.atomMinLong o) := shape_two_words _ _ rfl
theorem Shape.atomMax (o : ShortOps) : Shape.Statement (.atomMax o) := shape_one_word _ rfl
theorem Shape.atomMaxLong (o : LongOps) : Shape.Statement (.atomMaxLong o) := shape_two_words _ _ rfl
theorem Shape.atomAnd (o : ShortOps) : Shape.Statement (.atomAnd o) := shape_one_word _ rfl
theorem Shape.atomAndLong (o : LongOps) : Shape.Statement (.atomAndLong o) := shape_two_words _ _ rfl
theorem Shape.atomOr (o : ShortOps) : Shape.Statement (.atomOr o) := shape_one_word _ rfl
theorem Shape.atomOrLong (o : LongOps) : Shape.Statement (.atomOrLong o) := shape_two_words _ _ rfl
theorem Shape.atomXor (o : ShortOps) : Shape.Statement (.atomXor o) := shape_one_word _ rfl
theorem Shape.atomXorLong (o : LongOps) : Shape.Statement (.atomXorLong o) := shape_two_words _ _ rfl
theorem Shape.atomExch (o : ShortOps) : Shape.Statement (.atomExch o) := shape_one_word _ rfl
theorem Shape.atomExchLong (o : LongOps) : Shape.Statement (.atomExchLong o) := shape_two_words _ _ rfl
theorem Shape.atomInc (o : ShortOps) : Shape.Statement (.atomInc o) := shape_one_word _ rfl
theorem Shape.atomIncLong (o : LongOps) : Shape.Statement (.atomIncLong o) := shape_two_words _ _ rfl
theorem Shape.redAdd (o : ShortOps) : Shape.Statement (.redAdd o) := shape_one_word _ rfl
theorem Shape.redAddLong (o : LongOps) : Shape.Statement (.redAddLong o) := shape_two_words _ _ rfl
theorem Shape.redMin (o : ShortOps) : Shape.Statement (.redMin o) := shape_one_word _ rfl
theorem Shape.redMinLong (o : LongOps) : Shape.Statement (.redMinLong o) := shape_two_words _ _ rfl
theorem Shape.redMax (o : ShortOps) : Shape.Statement (.redMax o) := shape_one_word _ rfl
theorem Shape.redMaxLong (o : LongOps) : Shape.Statement (.redMaxLong o) := shape_two_words _ _ rfl
theorem Shape.redAnd (o : ShortOps) : Shape.Statement (.redAnd o) := shape_one_word _ rfl
theorem Shape.redAndLong (o : LongOps) : Shape.Statement (.redAndLong o) := shape_two_words _ _ rfl
theorem Shape.redOr (o : ShortOps) : Shape.Statement (.redOr o) := shape_one_word _ rfl
theorem Shape.redOrLong (o : LongOps) : Shape.Statement (.redOrLong o) := shape_two_words _ _ rfl
theorem Shape.redXor (o : ShortOps) : Shape.Statement (.redXor o) := shape_one_word _ rfl
theorem Shape.redXorLong (o : LongOps) : Shape.Statement (.redXorLong o) := shape_two_words _ _ rfl
theorem Shape.redDet (o : LongOps) : Shape.Statement (.redDet o) := shape_two_words _ _ rfl
theorem Shape.cas (o : ShortOps) : Shape.Statement (.cas o) := shape_one_word _ rfl
theorem Shape.casLong (o : LongOps) : Shape.Statement (.casLong o) := shape_two_words _ _ rfl
theorem Shape.fenceMx (o : ShortOps) : Shape.Statement (.fenceMx o) := shape_one_word _ rfl
theorem Shape.fenceMxLong (o : LongOps) : Shape.Statement (.fenceMxLong o) := shape_two_words _ _ rfl
theorem Shape.fenceAcq (o : LongOps) : Shape.Statement (.fenceAcq o) := shape_two_words _ _ rfl
theorem Shape.fenceRel (o : LongOps) : Shape.Statement (.fenceRel o) := shape_two_words _ _ rfl
theorem Shape.fenceAr (o : LongOps) : Shape.Statement (.fenceAr o) := shape_two_words _ _ rfl
theorem Shape.barSync (o : ShortOps) : Shape.Statement (.barSync o) := shape_one_word _ rfl
theorem Shape.barSyncLong (o : LongOps) : Shape.Statement (.barSyncLong o) := shape_two_words _ _ rfl
theorem Shape.barArrive (o : LongOps) : Shape.Statement (.barArrive o) := shape_two_words _ _ rfl
theorem Shape.barWait (o : LongOps) : Shape.Statement (.barWait o) := shape_two_words _ _ rfl
theorem Shape.cps (o : ShortOps) : Shape.Statement (.cps o) := shape_one_word _ rfl
theorem Shape.cpsLong (o : LongOps) : Shape.Statement (.cpsLong o) := shape_two_words _ _ rfl
theorem Shape.prefL1 (o : ShortOps) : Shape.Statement (.prefL1 o) := shape_one_word _ rfl
theorem Shape.prefL1Long (o : LongOps) : Shape.Statement (.prefL1Long o) := shape_two_words _ _ rfl
theorem Shape.prefDc (o : LongOps) : Shape.Statement (.prefDc o) := shape_two_words _ _ rfl
theorem Shape.cctlWb (o : ShortOps) : Shape.Statement (.cctlWb o) := shape_one_word _ rfl
theorem Shape.cctlWbLong (o : LongOps) : Shape.Statement (.cctlWbLong o) := shape_two_words _ _ rfl
theorem Shape.cctlInv (o : LongOps) : Shape.Statement (.cctlInv o) := shape_two_words _ _ rfl
theorem Shape.cctlInvall (o : LongOps) : Shape.Statement (.cctlInvall o) := shape_two_words _ _ rfl
theorem Shape.sigSet (o : ShortOps) : Shape.Statement (.sigSet o) := shape_one_word _ rfl
theorem Shape.sigSetLong (o : LongOps) : Shape.Statement (.sigSetLong o) := shape_two_words _ _ rfl
theorem Shape.sigAdd (o : LongOps) : Shape.Statement (.sigAdd o) := shape_two_words _ _ rfl
theorem Shape.sigSub (o : LongOps) : Shape.Statement (.sigSub o) := shape_two_words _ _ rfl
theorem Shape.rflush (o : ShortOps) : Shape.Statement (.rflush o) := shape_one_word _ rfl
theorem Shape.rflushLong (o : LongOps) : Shape.Statement (.rflushLong o) := shape_two_words _ _ rfl
theorem Shape.rflushAll (o : LongOps) : Shape.Statement (.rflushAll o) := shape_two_words _ _ rfl
theorem Shape.mxa (o : ShortOps) : Shape.Statement (.mxa o) := shape_one_word _ rfl
theorem Shape.mxaLong (o : LongOps) : Shape.Statement (.mxaLong o) := shape_two_words _ _ rfl
theorem Shape.mxz (o : ShortOps) : Shape.Statement (.mxz o) := shape_one_word _ rfl
theorem Shape.mxzLong (o : LongOps) : Shape.Statement (.mxzLong o) := shape_two_words _ _ rfl
theorem Shape.mxld (o : ShortOps) : Shape.Statement (.mxld o) := shape_one_word _ rfl
theorem Shape.mxldLong (o : LongOps) : Shape.Statement (.mxldLong o) := shape_two_words _ _ rfl
theorem Shape.mxst (o : ShortOps) : Shape.Statement (.mxst o) := shape_one_word _ rfl
theorem Shape.mxstLong (o : LongOps) : Shape.Statement (.mxstLong o) := shape_two_words _ _ rfl
theorem Shape.mxrd (o : ShortOps) : Shape.Statement (.mxrd o) := shape_one_word _ rfl
theorem Shape.mxrdLong (o : LongOps) : Shape.Statement (.mxrdLong o) := shape_two_words _ _ rfl
theorem Shape.mxwr (o : ShortOps) : Shape.Statement (.mxwr o) := shape_one_word _ rfl
theorem Shape.mxwrLong (o : LongOps) : Shape.Statement (.mxwrLong o) := shape_two_words _ _ rfl
theorem Shape.mxalAlloc (o : ShortOps) : Shape.Statement (.mxalAlloc o) := shape_one_word _ rfl
theorem Shape.mxalAllocLong (o : LongOps) : Shape.Statement (.mxalAllocLong o) := shape_two_words _ _ rfl
theorem Shape.mxalFree (o : LongOps) : Shape.Statement (.mxalFree o) := shape_two_words _ _ rfl
theorem Shape.mxep (o : ShortOps) : Shape.Statement (.mxep o) := shape_one_word _ rfl
theorem Shape.mxepLong (o : LongOps) : Shape.Statement (.mxepLong o) := shape_two_words _ _ rfl
theorem Shape.cpyL (o : ShortOps) : Shape.Statement (.cpyL o) := shape_one_word _ rfl
theorem Shape.cpyLLong (o : LongOps) : Shape.Statement (.cpyLLong o) := shape_two_words _ _ rfl
theorem Shape.cpyT (o : LongOps) : Shape.Statement (.cpyT o) := shape_two_words _ _ rfl
theorem Shape.cpyX (o : LongOps) : Shape.Statement (.cpyX o) := shape_two_words _ _ rfl
theorem Shape.cpyj (o : ShortOps) : Shape.Statement (.cpyj o) := shape_one_word _ rfl
theorem Shape.cpyjLong (o : LongOps) : Shape.Statement (.cpyjLong o) := shape_two_words _ _ rfl
theorem Shape.twaitAll (o : ShortOps) : Shape.Statement (.twaitAll o) := shape_one_word _ rfl
theorem Shape.twaitAllLong (o : LongOps) : Shape.Statement (.twaitAllLong o) := shape_two_words _ _ rfl
theorem Shape.twaitAny (o : LongOps) : Shape.Statement (.twaitAny o) := shape_two_words _ _ rfl
theorem Shape.twaitFind (o : LongOps) : Shape.Statement (.twaitFind o) := shape_two_words _ _ rfl
theorem Shape.lnch (o : ShortOps) : Shape.Statement (.lnch o) := shape_one_word _ rfl
theorem Shape.lnchLong (o : LongOps) : Shape.Statement (.lnchLong o) := shape_two_words _ _ rfl
theorem Shape.csrRd (o : ShortOps) : Shape.Statement (.csrRd o) := shape_one_word _ rfl
theorem Shape.csrRdLong (o : LongOps) : Shape.Statement (.csrRdLong o) := shape_two_words _ _ rfl
theorem Shape.csrWr (o : LongOps) : Shape.Statement (.csrWr o) := shape_two_words _ _ rfl
theorem Shape.csrSet (o : LongOps) : Shape.Statement (.csrSet o) := shape_two_words _ _ rfl
theorem Shape.csrClr (o : LongOps) : Shape.Statement (.csrClr o) := shape_two_words _ _ rfl
theorem Shape.tret (o : ShortOps) : Shape.Statement (.tret o) := shape_one_word _ rfl
theorem Shape.tretLong (o : LongOps) : Shape.Statement (.tretLong o) := shape_two_words _ _ rfl
theorem Shape.rqaRd (o : ShortOps) : Shape.Statement (.rqaRd o) := shape_one_word _ rfl
theorem Shape.rqaRdLong (o : LongOps) : Shape.Statement (.rqaRdLong o) := shape_two_words _ _ rfl
theorem Shape.rqaWr (o : LongOps) : Shape.Statement (.rqaWr o) := shape_two_words _ _ rfl
theorem Shape.rqaDrop (o : LongOps) : Shape.Statement (.rqaDrop o) := shape_two_words _ _ rfl
theorem Shape.clauseFetch : Shape.Statement .clauseFetch := shape_no_word rfl
theorem Shape.schedReady256 (team : Nat) (lanes : Mask) : Shape.Statement (.schedReady256 team lanes) := shape_no_word rfl
theorem Shape.schedReady1024 (team : Nat) (lanes : Mask) : Shape.Statement (.schedReady1024 team lanes) := shape_no_word rfl
theorem Shape.joinHintExpire (team : Nat) : Shape.Statement (.joinHintExpire team) := shape_no_word rfl
theorem Shape.registerCacheFill (team reg : Nat) : Shape.Statement (.registerCacheFill team reg) := shape_no_word rfl
theorem Shape.loadComplete (team entry : Nat) : Shape.Statement (.loadComplete team entry) := shape_no_word rfl
theorem Shape.storePerformed (team entry : Nat) : Shape.Statement (.storePerformed team entry) := shape_no_word rfl
theorem Shape.atomicPerformed (team entry : Nat) : Shape.Statement (.atomicPerformed team entry) := shape_no_word rfl
theorem Shape.writeVisible (die : Nat) (core : Option Nat) (line : Nat) : Shape.Statement (.writeVisible die core line) := shape_no_word rfl
theorem Shape.protectionRefusal (team entry : Nat) : Shape.Statement (.protectionRefusal team entry) := shape_no_word rfl
theorem Shape.pageWalk (die core proc : Nat) (va : DWord) : Shape.Statement (.pageWalk die core proc va) := shape_no_word rfl
theorem Shape.faultResolveRetry (die proc : Nat) : Shape.Statement (.faultResolveRetry die proc) := shape_no_word rfl
theorem Shape.faultResolveRefuse (die proc : Nat) : Shape.Statement (.faultResolveRefuse die proc) := shape_no_word rfl
theorem Shape.faultResolveRetryAll (die : Nat) : Shape.Statement (.faultResolveRetryAll die) := shape_no_word rfl
theorem Shape.faultRingConfig (die : Nat) (base : DWord) (ctl : Word) : Shape.Statement (.faultRingConfig die base ctl) := shape_no_word rfl
theorem Shape.tlbInvProc (die proc : Nat) : Shape.Statement (.tlbInvProc die proc) := shape_no_word rfl
theorem Shape.tlbInvRange (die proc log2 : Nat) : Shape.Statement (.tlbInvRange die proc log2) := shape_no_word rfl
theorem Shape.tlbInvAll (die : Nat) : Shape.Statement (.tlbInvAll die) := shape_no_word rfl
theorem Shape.tlbInvComplete (die : Nat) : Shape.Statement (.tlbInvComplete die) := shape_no_word rfl
theorem Shape.compressedWriteMerge (die ctl : Nat) : Shape.Statement (.compressedWriteMerge die ctl) := shape_no_word rfl
theorem Shape.chunkGrant (die ctl page : Nat) : Shape.Statement (.chunkGrant die ctl page) := shape_no_word rfl
theorem Shape.chunkTimeout (die ctl : Nat) : Shape.Statement (.chunkTimeout die ctl) := shape_no_word rfl
theorem Shape.rspillExtend (die size : Nat) : Shape.Statement (.rspillExtend die size) := shape_no_word rfl
theorem Shape.spillTimeout (team entry : Nat) : Shape.Statement (.spillTimeout team entry) := shape_no_word rfl
theorem Shape.cpsWritePerformed (team entry : Nat) : Shape.Statement (.cpsWritePerformed team entry) := shape_no_word rfl
theorem Shape.fifoOpPerformed (team entry : Nat) : Shape.Statement (.fifoOpPerformed team entry) := shape_no_word rfl
theorem Shape.copyAccepted (team entry : Nat) : Shape.Statement (.copyAccepted team entry) := shape_no_word rfl
theorem Shape.copyDone (job : Nat) : Shape.Statement (.copyDone job) := shape_no_word rfl
theorem Shape.cpyjDone (job : Nat) : Shape.Statement (.cpyjDone job) := shape_no_word rfl
theorem Shape.twaitComplete (team entry : Nat) : Shape.Statement (.twaitComplete team entry) := shape_no_word rfl
theorem Shape.matrixComplete (team entry : Nat) : Shape.Statement (.matrixComplete team entry) := shape_no_word rfl
theorem Shape.accumSlotGrant (team entry : Nat) : Shape.Statement (.accumSlotGrant team entry) := shape_no_word rfl
theorem Shape.binAccepted (team entry : Nat) : Shape.Statement (.binAccepted team entry) := shape_no_word rfl
theorem Shape.partialFlush (pass : Nat) : Shape.Statement (.partialFlush pass) := shape_no_word rfl
theorem Shape.marshalDeal (pass die : Nat) : Shape.Statement (.marshalDeal pass die) := shape_no_word rfl
theorem Shape.visibilityResolve (pass tile : Nat) : Shape.Statement (.visibilityResolve pass tile) := shape_no_word rfl
theorem Shape.fragmentLaunch (pass tile : Nat) : Shape.Statement (.fragmentLaunch pass tile) := shape_no_word rfl
theorem Shape.tileSpill (pass tile : Nat) : Shape.Statement (.tileSpill pass tile) := shape_no_word rfl
theorem Shape.tileKernelLaunch (pass tile : Nat) : Shape.Statement (.tileKernelLaunch pass tile) := shape_no_word rfl
theorem Shape.tileRetire (pass tile : Nat) : Shape.Statement (.tileRetire pass tile) := shape_no_word rfl
theorem Shape.blockAdmit (die core : Nat) : Shape.Statement (.blockAdmit die core) := shape_no_word rfl
theorem Shape.balanceTick (die : Nat) : Shape.Statement (.balanceTick die) := shape_no_word rfl
theorem Shape.childRoomPreempt (block : Nat) : Shape.Statement (.childRoomPreempt block) := shape_no_word rfl
theorem Shape.teamRetire (team : Nat) : Shape.Statement (.teamRetire team) := shape_no_word rfl
theorem Shape.powerOnReset : Shape.Statement .powerOnReset := shape_no_word rfl
theorem Shape.bootGo : Shape.Statement .bootGo := shape_no_word rfl
theorem Shape.bootImageLoaded : Shape.Statement .bootImageLoaded := shape_no_word rfl
theorem Shape.doorbellWrite (qid : Nat) (v : DWord) : Shape.Statement (.doorbellWrite qid v) := shape_no_word rfl
theorem Shape.doorbellStop (qid : Nat) : Shape.Statement (.doorbellStop qid) := shape_no_word rfl
theorem Shape.doorbellGo (qid : Nat) : Shape.Statement (.doorbellGo qid) := shape_no_word rfl
theorem Shape.doorbellReset (qid : Nat) : Shape.Statement (.doorbellReset qid) := shape_no_word rfl
theorem Shape.resetDone (qid : Nat) : Shape.Statement (.resetDone qid) := shape_no_word rfl
theorem Shape.claimEntry (die core : Nat) : Shape.Statement (.claimEntry die core) := shape_no_word rfl
theorem Shape.depReevaluate (qid : Nat) : Shape.Statement (.depReevaluate qid) := shape_no_word rfl
theorem Shape.packetNop (qid : Nat) : Shape.Statement (.packetNop qid) := shape_no_word rfl
theorem Shape.packetKernel (qid : Nat) : Shape.Statement (.packetKernel qid) := shape_no_word rfl
theorem Shape.packetMass (qid : Nat) : Shape.Statement (.packetMass qid) := shape_no_word rfl
theorem Shape.massReserved (qid index : Nat) : Shape.Statement (.massReserved qid index) := shape_no_word rfl
theorem Shape.massCommitDeadline (qid index : Nat) : Shape.Statement (.massCommitDeadline qid index) := shape_no_word rfl
theorem Shape.massStart (qid index : Nat) : Shape.Statement (.massStart qid index) := shape_no_word rfl
theorem Shape.packetRender (qid : Nat) : Shape.Statement (.packetRender qid) := shape_no_word rfl
theorem Shape.packetTransform (qid : Nat) : Shape.Statement (.packetTransform qid) := shape_no_word rfl
theorem Shape.packetSignal (qid : Nat) : Shape.Statement (.packetSignal qid) := shape_no_word rfl
theorem Shape.packetWait (qid : Nat) : Shape.Statement (.packetWait qid) := shape_no_word rfl
theorem Shape.packetBarrierAnd (qid : Nat) : Shape.Statement (.packetBarrierAnd qid) := shape_no_word rfl
theorem Shape.packetMarker (qid : Nat) : Shape.Statement (.packetMarker qid) := shape_no_word rfl
theorem Shape.packetComplete (qid index : Nat) : Shape.Statement (.packetComplete qid index) := shape_no_word rfl
theorem Shape.createQueue : Shape.Statement .createQueue := shape_no_word rfl
theorem Shape.destroyQueue : Shape.Statement .destroyQueue := shape_no_word rfl
theorem Shape.setFmt : Shape.Statement .setFmt := shape_no_word rfl
theorem Shape.fwUpdate : Shape.Statement .fwUpdate := shape_no_word rfl
theorem Shape.advanceRollback : Shape.Statement .advanceRollback := shape_no_word rfl
theorem Shape.svcBadOp : Shape.Statement .svcBadOp := shape_no_word rfl
theorem Shape.wdogKick (die core : Nat) : Shape.Statement (.wdogKick die core) := shape_no_word rfl
theorem Shape.wdogExpire (die core : Nat) : Shape.Statement (.wdogExpire die core) := shape_no_word rfl
theorem Shape.bankCmdGo (die core bank mode : Nat) : Shape.Statement (.bankCmdGo die core bank mode) := shape_no_word rfl
theorem Shape.bankModeDone (die core : Nat) : Shape.Statement (.bankModeDone die core) := shape_no_word rfl
theorem Shape.preemptGo (die core slot : Nat) : Shape.Statement (.preemptGo die core slot) := shape_no_word rfl
theorem Shape.preemptDone (die core : Nat) : Shape.Statement (.preemptDone die core) := shape_no_word rfl
theorem Shape.resumeGo (die core slot : Nat) : Shape.Statement (.resumeGo die core slot) := shape_no_word rfl
theorem Shape.handlerLimitExpire (team : Nat) : Shape.Statement (.handlerLimitExpire team) := shape_no_word rfl
theorem Shape.pfsArm (die core : Nat) : Shape.Statement (.pfsArm die core) := shape_no_word rfl
theorem Shape.pfsHit (die core : Nat) : Shape.Statement (.pfsHit die core) := shape_no_word rfl
theorem Shape.dbgStopGo (die core : Nat) (pmask : BitVec 4) : Shape.Statement (.dbgStopGo die core pmask) := shape_no_word rfl
theorem Shape.dbgStopDone (die core : Nat) : Shape.Statement (.dbgStopDone die core) := shape_no_word rfl
theorem Shape.dbgStopResume (die core : Nat) (pmask : BitVec 4) : Shape.Statement (.dbgStopResume die core pmask) := shape_no_word rfl
theorem Shape.singleStep (team : Nat) : Shape.Statement (.singleStep team) := shape_no_word rfl
theorem Shape.erGo (die core : Nat) : Shape.Statement (.erGo die core) := shape_no_word rfl
theorem Shape.rrCap : Shape.Statement .rrCap := shape_no_word rfl
theorem Shape.rrRun : Shape.Statement .rrRun := shape_no_word rfl
theorem Shape.splCtlApply : Shape.Statement .splCtlApply := shape_no_word rfl
theorem Shape.splitsTick (die : Nat) : Shape.Statement (.splitsTick die) := shape_no_word rfl
theorem Shape.eccCorrected (die : Nat) (site : EccSite) : Shape.Statement (.eccCorrected die site) := shape_no_word rfl
theorem Shape.eccUncorrectable (die : Nat) (site : EccSite) : Shape.Statement (.eccUncorrectable die site) := shape_no_word rfl
theorem Shape.patrolScrub (die line : Nat) : Shape.Statement (.patrolScrub die line) := shape_no_word rfl
theorem Shape.linkDown (a b : Nat) : Shape.Statement (.linkDown a b) := shape_no_word rfl
theorem Shape.powerStateEnter (u : PowerUnit) (state : Nat) : Shape.Statement (.powerStateEnter u state) := shape_no_word rfl
theorem Shape.powerStateWake (u : PowerUnit) : Shape.Statement (.powerStateWake u) := shape_no_word rfl
theorem Shape.arbiterUpdate (budgets : List Nat) (power : Nat) : Shape.Statement (.arbiterUpdate budgets power) := shape_no_word rfl
theorem Shape.limiterThrottle (die : Nat) : Shape.Statement (.limiterThrottle die) := shape_no_word rfl
theorem Shape.arbiterFallback (die : Nat) : Shape.Statement (.arbiterFallback die) := shape_no_word rfl
theorem Shape.pwrLimitWrite (v : Word) : Shape.Statement (.pwrLimitWrite v) := shape_no_word rfl
theorem Shape.thermalThrottle (die : Nat) : Shape.Statement (.thermalThrottle die) := shape_no_word rfl
theorem Shape.thermalTrip (die : Nat) : Shape.Statement (.thermalTrip die) := shape_no_word rfl
theorem Shape.partWrite (k : Nat) (v : DWord) : Shape.Statement (.partWrite k v) := shape_no_word rfl
theorem Shape.hostMemoryAccess (wr : Bool) (pa size : Nat) (data : List Byte) : Shape.Statement (.hostMemoryAccess wr pa size data) := shape_no_word rfl
theorem Shape.relayAccess (port : Nat) (wr : Bool) (pa : Nat) (data : List Byte) : Shape.Statement (.relayAccess port wr pa data) := shape_no_word rfl
theorem Shape.registerWrite (off : Nat) (v : DWord) : Shape.Statement (.registerWrite off v) := shape_no_word rfl
theorem Shape.fullPowerDown (cut : Bool) : Shape.Statement (.fullPowerDown cut) := shape_no_word rfl
theorem Shape.relayLinkTrain (port : Nat) (up : Bool) : Shape.Statement (.relayLinkTrain port up) := shape_no_word rfl
theorem Shape.faultRiWrite (die : Nat) (v : Word) : Shape.Statement (.faultRiWrite die v) := shape_no_word rfl
theorem Shape.fenceComplete (team entry : Nat) : Shape.Statement (.fenceComplete team entry) := shape_no_word rfl
theorem Shape.cctlComplete (team entry : Nat) : Shape.Statement (.cctlComplete team entry) := shape_no_word rfl
theorem Shape.prefAccepted (team entry : Nat) : Shape.Statement (.prefAccepted team entry) := shape_no_word rfl
theorem Shape.tileqComplete (team entry : Nat) : Shape.Statement (.tileqComplete team entry) := shape_no_word rfl

end Sys2Proof.Laws
end

