-- ==== Sys2Proof/Tests/Slice0.lean ====
section
/-!
SUPPORT. Tests/Slice0: words written out from the spec's encoding tables, ill-formed instructions that the checks refuse, the spec's
worked examples, and for every statement a state and operands that meet its hypotheses.
-/

namespace Sys2Proof.Tests

set_option Elab.async false

open Sys2Proof Sys2Proof.Machine

/-! ## A small machine -/

/-- A clause latched for an instruction of a class, first and last of its clause, counting on f0 and f1. -/
def demoCtx (cls : Nat) : Ctx :=
  { Ctx.reset with pc := 0x10004, hdr := 0x10000, npc := 0x10008, nhdr := 0x10008, first := true, last := true, cls := cls, seta := 0, setb := 1 }

/-- A team of eight lanes that stand together at 0x10004. -/
def demoTeam : Team :=
  { Team.reset with id := 1, block := 1, proc := 1, threads := List.replicate 8 { Thread.reset with pc := 0x10004, hdr := 0x10000 } }

/-- Its block: 1 KiB of scratchpad, two FIFO banks, four tags, one accumulator tile of four. -/
def demoBlock : Block :=
  { Block.none with id := 1, grid := 1, nteams := 1, scratch := Bank.zero 1024, fifos := [[], []], bars := List.replicate 16 Barrier.reset,
                    tags := List.replicate 4 CopyTag.reset, acc := [AccTile.zero], accMax := 4 }

/-- Its grid, with two barrier objects. -/
def demoGrid : Grid := { Grid.none with lseq := 1, proc := 1, left := 1, kd := { Grid.none.kd with bars := 2 } }

/-- One page at 0x20000, virtual and physical, for its frames and data. -/
def demoPage : TlbEntry := { proc := 1, va := 0x20000, log2 := 16, pa := 0x20000, w := true, x := true, prv := false, cmp := false }

/-- A machine about to issue an instruction of a class; a SYS clause runs privileged. -/
def demo (cls : Nat) : State :=
  { State.reset.tlbPut 0 0 demoPage with
    me := { demoTeam with priv := decide (cls = 6), frameVa := 0x20000 }, grp := 0xFF, ctx := demoCtx cls, blocks := [demoBlock], grids := [demoGrid] }

/-- A short form's fields. -/
def sh (t d a b : Nat) : Reg := Reg.ofShort t { d := BitVec.ofNat 8 d, a := BitVec.ofNat 8 a, b := BitVec.ofNat 8 b }

/-- The operands of a long form with no guard and no indirection. -/
def lo (d a b c t x : Nat) : LongOps :=
  { d := BitVec.ofNat 8 d, a := BitVec.ofNat 8 a, b := BitVec.ofNat 8 b, c := BitVec.ofNat 8 c, g := 31, gn := false, id := false, ia := false,
    ib := false, ic := false, fi := false, fo := false, t := BitVec.ofNat 4 t, x := BitVec.ofNat 8 x }

/-- A long form's fields. -/
def ln (d a b c t x : Nat) : Reg := Reg.ofLong (lo d a b c t x)

/-- A vector register that holds the same word in every lane. -/
def withV (s : State) (n : Nat) (ws : List Word) : State :=
  { s with me := s.me.vwrite n false ((List.range 8).map (fun l => (l, Elem.ofWord (ws.getD (l % ws.length) 0)))) }

/-- A scalar register. -/
def withS (s : State) (n : Nat) (w : Word) : State := { s with me := s.me.setSreg n (Elem.ofWord w) }

/-- A predicate, one bit a lane. -/
def withP (s : State) (n : Nat) (m : Mask) : State :=
  { s with me := (List.range 8).foldl (fun t l => t.setPred n l (m.getLsbD l) false) s.me }

/-- What an outcome's next state holds. -/
def after {α : Type} (o : Host.Outcome State Fault Refusal) (f : State → α) (x : α) : α := match o with | .next t => f t | _ => x

/-- A vector register in the lanes 0 to n − 1 after a step. -/
def lanesAfter (o : Host.Outcome State Fault Refusal) (r n : Nat) : List Word :=
  after o (fun t => (List.range n).map (fun l => (t.me.velem r l).val)) []

/-- Lane 0 of a vector register after a step. -/
def laneAfter (o : Host.Outcome State Fault Refusal) (r : Nat) : Word := after o (fun t => (t.me.velem r 0).val) 0xBAD

/-- The cause of the trap taken. -/
def causeAfter (o : Host.Outcome State Fault Refusal) : Nat := after o (fun t => match t.me.frame with | some f => f.cause | none => (match t.me.pend with | some k => k.cause | none => 0)) 999


/-- A state about to execute the words of an instruction. -/
def words (s : State) (w0 w1 : Word) : State := { s with ctx := { s.ctx with w0 := w0, w1 := w1 } }

/-! ## Words of the spec -/

/-- Control, lanes, scalars (08 and 09). -/
theorem test_decode_control :
    decodeWords 0x07000000 0 = .ok (.exit ⟨0, 0, 0⟩) ∧ decodeWords 0x0500FE00 0 = .ok (.ret ⟨0, 0xFE, 0⟩) ∧
    decodeWords 0x08000123 0 = .ok (.trap ⟨0, 1, 0x23⟩) ∧ decodeWords 0x0E000000 0 = .ok (.msetG ⟨0, 0, 0⟩) ∧
    decodeWords 0x0D000000 0 = .ok (.waitm ⟨0, 0, 0⟩) ∧ decodeWords 0x10020100 0 = .ok (.census ⟨2, 1, 0⟩) ∧
    decodeWords 0x95040102 0x00F800C0 = .ok (.plopLong (lo 4 1 2 0 0 0xC0)) := by
  refine ⟨?_, ?_, ?_, ?_, ?_, ?_, ?_⟩ <;> rfl

theorem test_decode_scalar :
    decodeWords 0x18210600 0 = .ok (.sadd ⟨4, 4, 3, 0⟩) ∧ decodeWords 0x16070500 0 = .ok (.xset ⟨7, 5, 0⟩) ∧
    decodeWords 0x1B010D50 0 = .ok (.sst ⟨0, 4, 6, 5, false, true, 0⟩) ∧ decodeWords 0x1EA00000 0 = .ok (.pfx 5 false 0) := by
  refine ⟨?_, ?_, ?_, ?_⟩ <;> rfl

/-- Integer and floating-point arithmetic (10 and 11). -/
theorem test_decode_arithmetic :
    decodeWords 0xA0040506 0x00F80900 = .ok (.iaddLong (lo 4 5 6 0 9 0)) ∧ decodeWords 0xB8040608 0x00F80003 = .ok (.leaLong (lo 4 6 8 0 0 3)) ∧
    decodeWords 0xB4270300 0x00FA0000 = .ok (.movLong { lo 0x27 3 0 0 0 0 with id := true }) ∧
    decodeWords 0x420C0D0E 0 = .ok (.fmul ⟨12, 13, 14⟩) ∧ decodeWords 0xC6030200 0x00F805A0 = .ok (.fcvtLong (lo 3 2 0 0 5 0xA0)) ∧
    decodeWords 0x58281040 0 = .ok (.boxt ⟨0x28, 0x10, 0x40⟩) ∧ decodeWords 0x59301058 0 = .ok (.trit ⟨0x30, 0x10, 0x58⟩) := by
  refine ⟨?_, ?_, ?_, ?_, ?_, ?_, ?_⟩ <;> rfl

/-- Memory, synchronisation, matrix, asynchronous and system instructions (12, 13, 14). -/
theorem test_decode_memory :
    decodeWords 0xE5142602 0x04F80350 = .ok (.sttLong (lo 0x14 0x26 2 4 3 0x50)) ∧ decodeWords 0xE9000000 0x00F80055 = .ok (.fenceRel (lo 0 0 0 0 0 0x55)) ∧
    decodeWords 0x76080004 0 = .ok (.mxalAlloc ⟨8, 0, 4⟩) ∧ decodeWords 0xF0000405 0x03F8004A = .ok (.mxaLong (lo 0 4 5 3 0 0x4A)) ∧
    decodeWords 0xF7000000 0x00F80044 = .ok (.mxepLong (lo 0 0 0 0 0 0x44)) ∧ decodeWords 0xF3000600 0x00F8034A = .ok (.mxstLong (lo 0 6 0 0 3 0x4A)) ∧
    decodeWords 0x7A060800 0 = .ok (.twaitAll ⟨6, 8, 0⟩) ∧ decodeWords 0x7D000000 0 = .ok (.tret ⟨0, 0, 0⟩) := by
  refine ⟨?_, ?_, ?_, ?_, ?_, ?_, ?_, ?_⟩ <;> rfl

/-- The host's numbering: bit 0 is the least significant of the first word, the second word from bit 32. -/
theorem test_decode_table_word :
    decodeTableWord 32 0x420C0D0E = some (.fmul ⟨12, 13, 14⟩) ∧ decodeTableWord 64 0x00F80003B8040608 = some (.leaLong (lo 4 6 8 0 0 3)) ∧
    decodeTableWord 32 0x180000E0 = none := by
  refine ⟨?_, ?_, ?_⟩ <;> rfl

/-- The fates of the decoding examples of 07, and the row 0x7C000000 in its own class but without privilege. -/
theorem test_fates_of_words :
    causeAfter ((words (demo 0) 0xFFFFFFFF 0).execWords) = 0x01 ∧ causeAfter ((words (demo 0) 0x180000E0 0).execWords) = 0x01 ∧
    causeAfter ((words (demo 1) 0xA0040506 0x00F80200).execWords) = 0x01 ∧ causeAfter ((words (demo 1) 0x7C000000 0).execWords) = 0x04 ∧
    causeAfter ((words { demo 6 with me := (demo 0).me } 0x7C000000 0).execWords) = 0x13 ∧
    causeAfter ((words { demo 6 with me := (demo 0).me } 0xFE000000 0x00F80003).execWords) = 0x01 ∧
    causeAfter ((words (demo 1) 0x9E500000 0).execWords) = 0x01 ∧ causeAfter ((words (demo 3) 0x80000000 0x00F80000).execWords) = 0x01 ∧
    causeAfter ((words (demo 1) 0x00000000 0).execWords) = 0 := by decide +kernel

/-! ## Ill-formed instructions -/

/-- One instruction for each check of R115 to R117, R119, R121, R141 and R180: a type outside the OP's set, a guard of 24, a negated guard
that is none, FI where the OP has none, an odd pair, an indirect field with a bit that must be zero, two operands that modify one index
register, an X bit with no meaning, a scalar register of 24, a scalar pair at an odd number, a field that must be zero, a run past v255. -/
theorem test_ill_formed_refused :
    Instr.wellFormed (.iaddLong (lo 4 5 6 0 2 0)) = false ∧ Instr.wellFormed (.iaddLong { lo 4 5 6 0 0 0 with g := 24 }) = false ∧
    Instr.wellFormed (.iaddLong { lo 4 5 6 0 0 0 with gn := true }) = false ∧ Instr.wellFormed (.iaddLong { lo 4 5 6 0 0 0 with fi := true }) = false ∧
    Instr.wellFormed (.iaddLong { lo 4 5 6 0 0 0 with fo := true }) = false ∧
    Instr.wellFormed (.leaLong (lo 5 6 8 0 0 3)) = false ∧ Instr.wellFormed (.iaddLong { lo 8 5 6 0 0 0 with id := true }) = false ∧
    Instr.wellFormed (.iaddLong { lo 0x27 0x27 6 0 0 0 with id := true, ia := true }) = false ∧
    Instr.wellFormed (.iaddLong (lo 4 5 6 0 0 0x40)) = false ∧ Instr.wellFormed (.sadd ⟨24, 4, 3, 0⟩) = false ∧
    Instr.wellFormed (.sld ⟨0, 5, 0, 5, false, true, 0⟩) = false ∧ Instr.wellFormed (.popc ⟨4, 5, 6⟩) = false ∧
    Instr.wellFormed (.qnt ⟨252, 0, 0⟩) = false ∧ Instr.wellFormed (.nop 1) = false ∧ Instr.wellFormed (.brc 24 false 0) = false ∧
    Instr.wellFormed (.pfx 6 false 0) = false ∧ Instr.wellFormed (.csrRd ⟨0, 0, 0⟩) = false ∧ Instr.wellFormed (.mxa ⟨0, 0, 24⟩) = false := by
  decide +kernel

/-- The same forms with nothing wrong. -/
theorem test_well_formed_accepted :
    Instr.wellFormed (.iaddLong (lo 4 5 6 0 0 0)) = true ∧ Instr.wellFormed (.leaLong (lo 4 6 8 0 0 3)) = true ∧
    Instr.wellFormed (.iaddLong { lo 0x27 0x47 6 0 0 0 with id := true }) = true ∧ Instr.wellFormed (.sadd ⟨23, 4, 3, 0⟩) = true ∧
    Instr.wellFormed (.sld ⟨0, 4, 0, 5, false, true, 0⟩) = true ∧ Instr.wellFormed (.popc ⟨4, 5, 0⟩) = true ∧ Instr.wellFormed (.nop 0) = true ∧
    Instr.wellFormed (.brc 23 false 0) = true ∧ Instr.wellFormed (.pfx 5 false 0) = true ∧ Instr.wellFormed (.csrRd ⟨0, 31, 0⟩) = true := by decide +kernel

/-! ## Results that the spec gives -/

/-- The table of 10. -/
theorem test_integer_results :
    laneAfter (exec (.iaddLong (lo 4 5 6 0 9 0)) (withV (withV (demo 1) 5 [0x70]) 6 [0x20])) 4 = 0xFFFFFF90 ∧
    laneAfter (exec (.iaddLong (lo 4 5 6 0 9 0)) { withV (withV (demo 1) 5 [0x70]) 6 [0x20] with ctx := { demoCtx 1 with pfxw := 0x1E100000, sat := true } }) 4 = 0x7F ∧
    laneAfter (exec (.iaddLong (lo 4 5 6 0 10 0)) (withV (withV (demo 1) 5 [0x1FF]) 6 [1])) 4 = 0 ∧
    laneAfter (exec (.isubLong (lo 4 5 6 0 1 0)) (withV (withV (demo 1) 5 [3]) 6 [5])) 4 = 0xFFFFFFFE ∧
    laneAfter (exec (.iabs ⟨4, 5, 0⟩) (withV (demo 1) 5 [0x80000000])) 4 = 0x80000000 ∧
    laneAfter (exec (.imulh ⟨4, 5, 6⟩) (withV (withV (demo 1) 5 [0xFFFFFFFE]) 6 [3])) 4 = 0xFFFFFFFF ∧
    laneAfter (exec (.imulhLong (lo 4 5 6 0 1 0)) (withV (withV (demo 1) 5 [0xFFFFFFFE]) 6 [3])) 4 = 2 := by decide +kernel

theorem test_bit_results :
    laneAfter (exec (.bfeLong (lo 4 5 7 5 0 0x20)) (withV (demo 1) 5 [0xF80])) 4 = 0xFFFFFFFF ∧
    laneAfter (exec (.bfeLong (lo 4 5 7 5 1 0x20)) (withV (demo 1) 5 [0xF80])) 4 = 0x1F ∧
    laneAfter (exec (.clz ⟨4, 5, 0⟩) (withV (demo 1) 5 [0x10000])) 4 = 15 ∧ laneAfter (exec (.clz ⟨4, 5, 0⟩) (withV (demo 1) 5 [0])) 4 = 32 ∧
    bmixWord 0x44332211 0x04050607 0x88776655 = 0x55667788 ∧ bmixWord 0x44332211 0x00000017 0x88776655 = 0x111111FF ∧
    bmixWord 0x44332211 0x18080100 0x88776655 = 0xFF002211 ∧
    laneAfter (exec (.dot4 ⟨4, 5, 6⟩) (withV (withV (withV (demo 1) 5 [0x01FF0203]) 6 [0x04040404]) 0 [10])) 4 = 30 := by decide +kernel

/-- LEA of 10, lanes 0 and 1. -/
theorem test_lea :
    let s := withV (withV (withV (demo 1) 6 [0xFFFFFFF0]) 7 [1]) 8 [4, 0xFFFFFFFF]
    lanesAfter (exec (.leaLong (lo 4 6 8 0 0 3)) s) 4 2 = [0x10, 0xFFFFFFE8] ∧ lanesAfter (exec (.leaLong (lo 4 6 8 0 0 3)) s) 5 2 = [2, 1] ∧
    lanesAfter (exec (.leaLong (lo 4 6 8 0 0 0x23)) s) 5 2 = [2, 9] := by decide +kernel

/-- CMP.lt.f32 of a NaN of 10: false, NV set. -/
theorem test_cmp_nan :
    let o := exec (.cmpLong (lo 1 5 6 0 2 2)) (withV (withV (demo 1) 5 [0x7FC00000]) 6 [0x3F800000])
    after o (fun t => (t.me.pred 1 0, t.me.sticky)) (true, 0) = (false, 2) := by decide +kernel

/-- The table of 08: CENSUS, PLOP, MATCH and PEEK. -/
theorem test_lane_results :
    let s := withP (withP (withV (demo 1) 3 [5, 9, 5, 5, 7, 9, 5, 0]) 1 0x46) 2 0x4C
    after (exec (.censusLong (lo 1 1 0 0 0 3)) s) (fun t => t.me.mreg 1) 0 = 0x46 ∧
    after (exec (.censusLong (lo 5 1 0 0 0 4)) s) (fun t => (List.range 8).filter (fun l => t.me.pred 5 l)) [] = [1] ∧
    after (exec (.censusLong (lo 6 2 0 0 0 5)) s) (fun t => (List.range 8).filter (fun l => t.me.pred 6 l)) [] = [0, 1, 2, 3, 4, 5, 6, 7] ∧
    after (exec (.plopLong (lo 4 1 2 0 0 0xC0)) s) (fun t => (List.range 8).filter (fun l => t.me.pred 4 l)) [] = [2, 6] ∧
    lanesAfter (exec (.matchV ⟨10, 3, 0⟩) s) 10 8 = [0x4D, 0x22, 0x4D, 0x4D, 0x10, 0x22, 0x4D, 0x80] := by decide +kernel

theorem test_peek :
    let s := withV (demo 1) 3 [5, 9, 5, 5, 7, 9, 5, 0]
    lanesAfter (exec (.peekLong (lo 12 3 1 0 0 0x17)) s) 12 8 = [9, 5, 5, 5, 9, 7, 0, 5] ∧
    lanesAfter (exec (.peekLong (lo 14 3 1 0 0 0x16)) s) 14 8 = [9, 5, 5, 5, 9, 5, 0, 7] ∧
    lanesAfter (exec (.peekLong (lo 13 3 2 0 0 0x05)) s) 13 8 = [5, 0, 5, 9, 5, 5, 7, 9] := by decide +kernel

/-- The index registers of 09: x2 holds 0x13060828. -/
theorem test_index_registers :
    let s : State := { demo 0 with me := { demoTeam with threads := List.replicate 8 { Thread.reset with x := [0, 0, 0x13060828, 0, 0, 0, 0, 0] } } }
    after (exec (.xaddLong (lo 2 0 5 0 0 8)) s) (fun t => (t.me.thread 0).x.getD 2 0) 0 = 0x13030828 ∧
    after (exec (.xadd ⟨2, 4, 0⟩) (withV s 4 [0xFFFFFED4])) (fun t => (t.me.thread 0).x.getD 2 0) 0 = 0x13020828 := by decide +kernel

/-- FCVT.e4m3.f32.rz.sat of 300.7 (11): 0x79 with NX. -/
theorem test_fcvt :
    let o := exec (.fcvtLong (lo 3 2 0 0 5 0xA0)) (withV (demo 1) 2 [0x4396599A])
    laneAfter o 3 = 0x79 ∧ after o (fun t => t.me.sticky) 0 = 0x20 := by decide +kernel

/-- The I4X block of 03. -/
theorem test_qnt :
    let block : List Word := [0x41700000, 0x4039999A, 0x3E99999A, 0xBF333333, 0xC0800000, 0x40A00000, 0x41600000]
    let s := (List.range 7).foldl (fun s j => withV s j [block.getD j 0]) (demo 1)
    let o := exec (.qnt ⟨40, 0, 0⟩) s
    laneAfter o 40 = 0x072E4F18 ∧ laneAfter o 41 = 0 ∧ laneAfter o 44 = 0x80 := by decide +kernel

/-- BOXT and TRIT of 11. -/
theorem test_ray_tests :
    let f := fun (l : List Word) => l.map (fun w => FV.of 2 false (Elem.ofWord w))
    let one : Word := 0x3F800000
    let two : Word := 0x40000000
    let ray := f [0x3E800000, 0x3E800000, 0xBF800000, 0, 0, one, 0, 0x42C80000]
    boxtWords ray (f [0, 0, one, one, one, two, two, 0, 0, 0x40400000, one, one, 0, 0, 0x40A00000, one, one, 0x40C00000, one, one, one, 0, 0, 0]) =
      [two, 0x7F800000, 0x40C00000, 0x7F800000, 0xD805] ∧
    tritWords ray (f [0, 0, two, one, 0, two, 0, one, two]) = [0x40400000, 0x3E800000, 0x3E800000, 3] := by decide +kernel

/-- The rounding of an accumulated slice (13): 2^24 + 1 ties to 2^24. -/
theorem test_round_tie : roundDiv 1 false (2 ^ 24 + 1) 2 = 2 ^ 23 := by decide +kernel

/-! ## Hypotheses met: instructions at issue

One theorem for each statement that has hypotheses: a state and operands that meet them together, each clause at a boundary of its range
where it has one. -/

/-- The machine about to issue an instruction of a form. -/
def at_ (F : Form) : State := demo (if F.cls = 7 then 1 else F.cls)

/-- The instruction issues there. -/
def meets (F : Form) (r : Reg) : Bool := (at_ F).runs F r

/-- Each of several does. -/
def allMeet (l : List (Form × Reg)) : Bool := l.all (fun p => meets p.1 p.2)

/-- Each operand set issues with its own form. -/
def formMeets (f : Reg → Form) (rs : List Reg) : Bool := rs.all (fun r => meets (f r) r)

/-- A predicate of the group's lanes poisoned in the lanes of a mask. -/
def poisonP (s : State) (n : Nat) (m : Mask) : State :=
  { s with me := (List.range 8).foldl (fun t l => t.setPred n l false (m.getLsbD l)) s.me }

/-- A vector register poisoned in lane 7. -/
def poisonV (s : State) (n : Nat) : State := { s with me := s.me.vwrite n false [(7, { val := 0, pois := true })] }

/-- A scalar register poisoned. -/
def poisonS (s : State) (n : Nat) : State := { s with me := s.me.setSreg n { val := 0, pois := true } }

/-- Traps enabled. -/
def trapping (s : State) (w : Word) : State := { s with me := { s.me with trapEn := w } }

/-- A mask stands for its own lanes. -/
theorem mask_of_lanes (w : Nat) (f : Nat → Bool) (hw : w ≤ 64) (l : Nat) :
    (maskOf w f).getLsbD l = (decide (l < w) && f l) := by
  rw [getLsbD_maskOf]
  by_cases h : l < w
  · simp [h, Nat.lt_of_lt_of_le h hw]
  · simp [h]

theorem witness_BranchesMoveTheGroup :
    ((demo 0).refusal 7 true false false = none ∧ (demo 3).refusal 7 (decide ((0 : BitVec 24) = 0)) false false = none ∧
      (∀ l, l < 8 → (demo 0).me.predPois 23 l = false) ∧ (demo 0).me.scalarsBusy [23] = false ∧ ((demo 0).me.sreg 23).pois = false ∧
      (demo 0).refusal 7 (decide ((23 : BitVec 5).toNat < 24) && decide ((5 : BitVec 3).toNat < 6)) false false = none) ∧
    ∃ (s : State) (m : Mask), s.refusal 7 (decide ((23 : BitVec 5).toNat < 24)) false false = none ∧
      (∀ l, m.getLsbD l = (decide (l < s.me.width) && s.grp.getLsbD l && s.me.predPois 23 l)) ∧ m ≠ 0 := by
  refine ⟨by decide +kernel, poisonP (demo 0) 23 0x81, maskOf 8 (fun l => (0xFF : Mask).getLsbD l && (poisonP (demo 0) 23 0x81).me.predPois 23 l),
    by decide +kernel, fun l => ?_, by decide +kernel⟩
  rw [mask_of_lanes 8 _ (by decide)]
  rw [← Bool.and_assoc]; rfl

theorem witness_CallsAndJumps :
    (demo 0).refusal 7 true false false = none ∧ (demo 0).me.busyVec ++ (demo 0).me.absent = [] ∧
    formMeets formJump [sh 0 0 254 0, ln 0 254 0 0 0 0, sh 0 0 0 0, { ln 0 0x27 0 0 0 0 with ia := true }] = true ∧
    (let s := withV (withV (demo 1) 254 [0xFFFFFFF8]) 255 [0x01FFFFFF]
     (List.range 8).all (fun l => !(s.opndAt (formJump (sh 0 0 254 0)) (sh 0 0 254 0) 1 0 l).pois &&
       decide (((s.opndAt (formJump (sh 0 0 254 0)) (sh 0 0 254 0) 1 1 l).val ++ (s.opndAt (formJump (sh 0 0 254 0)) (sh 0 0 254 0) 1 0 l).val).toNat
         = 2 ^ 57 - 8))) = true := by decide +kernel

theorem witness_MaskRegisters :
    formMeets formMask [sh 0 11 0 0, ln 11 0 0 0 0 0, sh 0 0 0 0] = true ∧ formMeets formMset [sh 0 11 0 0, ln 11 0 0 0 0 0, ln 11 22 0 0 0 1, ln 11 0 0 0 0 2] = true ∧
    (demo 0).me.scalarsBusy [22, 23] = false ∧ (demo 0).me.spairPois 22 = false := by decide +kernel

theorem witness_LaneInstructions :
    formMeets formMget [sh 0 22 11 0, ln 22 0 0 0 0 0, ln 255 11 0 0 0 1] = true ∧ (demo 0).me.scalarsBusy [22, 23] = false ∧
    formMeets formCensus [sh 0 23 23 0, ln 23 0 0 0 0 0xD, ln 11 23 0 0 0 3] = true ∧
    (List.range 8).all (fun l => !(demo 1).me.predPois 23 l) = true ∧ formMeets formMatch [sh 0 254 3 0, ln 0 255 0 0 0 0] = true ∧
    formMeets (formPeek 8) [sh 0 255 3 6, ln 5 3 255 0 0 0x1F] = true ∧ (demo 1).me.width = 8 ∧
    formMeets formLane [sh 0 255 0 0, ln 255 0 0 0 0 9, ln 254 0 0 0 0 3, ln 254 0 0 0 0 8] = true := by decide +kernel

theorem witness_PredicatesAndIndexes :
    formMeets formPset [sh 0 23 255 0, ln 23 0 0 0 0 5, ln 23 255 31 0 0 2, ln 23 11 0 0 0 3] = true ∧
    formMeets formPlop [sh 0 23 23 23, ln 23 23 23 23 0 0xFF] = true ∧ formMeets formXset [sh 0 7 255 0, ln 7 0 255 0 0 13] = true ∧
    formMeets formXget [sh 0 255 7 0, ln 255 7 0 0 0 5] = true ∧ formMeets formXadd [sh 0 7 255 0, ln 7 0 255 0 0 8] = true ∧
    (List.range 8).all (fun l => !((demo 0).opnd (formXset (sh 0 7 255 0)) (sh 0 7 255 0) 1 l).pois) = true := by decide +kernel

theorem witness_ScalarArithmetic :
    (demo 0).runsScalar 0 (sopOk ⟨23, 23, 31, 15⟩) [23, 23, 31] = true ∧ (demo 0).runsScalar 0 (sopOk ⟨23, 0, 23, 0⟩) [23, 0, 23] = true ∧
    (demo 0).runsScalar 0 (sopLongOk ⟨23, 23, 31, 0⟩) [23, 23] = true ∧ (demo 0).runsScalar 0 (smovOk ⟨23, 23, 0, 0⟩) [23, 23] = true ∧
    (demo 0).runsScalar 0 (sopRegsOk ⟨23, 23, 23, 9⟩ && decide ((9 : BitVec 4).toNat < 10)) [23, 23, 23] = true ∧
    (demo 0).runsScalar 0 (sopRegsOk ⟨23, 23, 23, 5⟩ && decide ((5 : BitVec 4).toNat < 6)) [23, 23, 23] = true ∧
    (demo 0).runsScalar 0 (decide ((23 : BitVec 5).toNat < 24) && decide ((0 : BitVec 19) = 0)) [23] = true := by decide +kernel

theorem witness_SystemValues :
    (ssysWide 0 = false ∧ (demo 0).runsScalar 0 (ssysOk 23 0 0 0 0) [23] = true) ∧ (ssysWide 20 = false ∧ (demo 0).runsScalar 0 (ssysOk 23 0 0 20 0) [23] = true) ∧
    (ssysWide 18 = true ∧ (demo 0).runsScalar 0 (ssysOk 22 0 0 18 0) [22, 23] = true) ∧
    (let s : State := { demo 0 with blocks := [{ demoBlock with lin := 7 }], grids := [{ demoGrid with gx := 2, gy := 2, gz := 2 }] }
     1 < s.myGrid.gx ∧ 1 < s.myGrid.gy ∧ s.myBlock.lin = 1 + s.myGrid.gx * (1 + s.myGrid.gy * 1)) := by decide +kernel

theorem witness_ScalarMemoryIssues :
    (demo 3).runsScalar 3 (true && scalarMemOk false ⟨22, 22, 0, 6, true, true, 15⟩) [22, 23, 22, 23] = true ∧
    (demo 3).runsScalar 3 (true && scalarMemOk true ⟨0, 22, 23, 6, true, false, 15⟩) [22, 23, 23] = true ∧
    (demo 3).runsScalar 3 (decide ((0 : BitVec 4) = 0) && scalarMemOk true ⟨0, 22, 22, 5, false, true, 0⟩) [22, 23, 22, 23] = true ∧
    (demo 3).queueRoom 1 = true ∧ (demo 3).me.spairPois 22 = false ∧ ((demo 3).me.spair 22 + BitVec.ofInt 64 (15 * 8)).toNat % 8 = 0 ∧
    (poisonS (demo 3) 23).me.spairPois 22 = true ∧ ((withS (demo 3) 22 4).me.spair 22 + BitVec.ofInt 64 (15 * 8)).toNat % 8 = 4 := by decide +kernel

theorem witness_IntegerValues :
    ((10, 8, false) : Nat × Nat × Bool) ∈ [(0, 32, true), (1, 32, false), (7, 16, true), (8, 16, false), (9, 8, true), (10, 8, false)] := by decide

theorem witness_IntegerArithmetic :
    formMeets formIadd [sh 0 255 255 255, ln 4 5 255 0 10 0x20] = true ∧ (ln 4 5 255 0 10 0x20).xb 3 = false ∧ (ln 4 5 255 0 10 0x20).xb 4 = false ∧
    formMeets formIntB [sh 0 4 5 6, ln 4 5 255 0 10 0x20] = true ∧ formMeets formImulh [sh 0 4 5 6, ln 4 5 6 0 1 0] = true ∧
    formMeets formImad [sh 0 4 5 6, ln 4 5 6 255 8 0] = true ∧ formMeets formIabs [sh 0 4 5 0, ln 4 5 0 0 9 0] = true ∧
    formMeets formIadd3 [sh 0 4 5 6, ln 4 5 6 255 1 0] = true := by decide +kernel

theorem witness_CarryChains :
    formMeets formIadd [ln 4 5 6 23 0 8, ln 4 5 6 23 1 16, ln 4 5 255 0 1 0x38] = true ∧ ((ln 4 5 6 23 0 8).xb 3 || (ln 4 5 6 23 0 8).xb 4) = true ∧
    ((ln 4 5 6 23 1 16).xb 3 || (ln 4 5 6 23 1 16).xb 4) = true := by decide +kernel

theorem witness_LogicAndShifts :
    formMeets formLogic [sh 0 4 5 6, ln 4 5 255 0 0 0x20] = true ∧ formMeets formUnary [sh 0 4 5 0, ln 4 5 0 0 0 0] = true ∧ 128 ≤ 255 ∧ 255 < 256 := by
  decide +kernel

theorem witness_BitFields :
    formMeets formBfe [sh 0 4 5 6, ln 4 5 255 255 1 0x20] = true ∧ formMeets formThree [sh 0 4 5 6, ln 4 5 6 255 0 0] = true ∧ 31 < 32 ∧ 3 < 4 ∧ 7 < 8 := by
  decide +kernel

theorem witness_MovesAndSelection :
    formMeets formSel [sh 0 4 5 6, ln 4 5 6 23 0 0] = true ∧ formMeets formMov [sh 0 255 255 0, ln 4 5 0 0 0 0, ln 4 23 0 0 0 1] = true ∧
    (ln 4 5 0 0 0 0).xb 0 = false ∧ (ln 4 23 0 0 0 1).xb 0 = true ∧ (demo 1).me.scalarsBusy [23] = false ∧
    (demo 2).refusal 7 (decide ((0 : BitVec 16) = 0)) false false = none ∧ 255 ∉ (demo 2).me.busyVec ++ (demo 2).me.absent ∧
    formMeets formLea [sh 0 254 254 255, ln 4 6 8 0 0 0x3F] = true := by decide +kernel

theorem witness_ComparisonAndDot :
    formMeets formCmp [sh 0 23 5 6, ln 23 5 255 0 10 0x25, ln 23 5 6 0 4 7] = true ∧ isFloatT (ln 23 5 255 0 10 0x25).t = false ∧ isFloatT (ln 23 5 6 0 4 7).t = true ∧
    formMeets formDot4 [sh 9 4 5 6, ln 4 5 6 255 10 0, ln 4 5 6 7 6 0] = true ∧ isFloatT (sh 9 4 5 6).t = false ∧ isFloatT (ln 4 5 6 7 6 0).t = true ∧
    (demo 1).quiet 0xFF (fun _ => 0x3F) = true := by decide +kernel

/-- No exception of an operation is trapped on in a state, or one is. -/
def arithQuiet (form : Reg → Form) (n : Nat) (f : Rnd → FV → FV → FV → FRes) (r : Reg) (s : State) : Bool :=
  s.quiet (s.lanes r) (fun l => if (List.range n).any (fun k => (s.opnd (form r) r (k + 1) l).pois) then 0
    else (f (s.rndX r (fmtOf r.t)) (s.fltOpnd (form r) r 1 l) (s.fltOpnd (form r) r 2 l) (s.fltOpnd (form r) r 3 l)).exc)

/-- A state with a signalling NaN in v5 and every exception trapped on. -/
def signalling (cls : Nat) (w : Word) : State := trapping (withV (demo cls) 5 [w]) 0x3E

/-- Operands that issue quietly in the demonstration, and signal where v5 holds a word. -/
def both (cls : Nat) (w : Word) (form : Reg → Form) (n : Nat) (f : Rnd → FV → FV → FV → FRes) (r : Reg) : Bool :=
  meets (form r) r && arithQuiet form n f r (demo cls) && (signalling cls w).runs (form r) r && !arithQuiet form n f r (signalling cls w)

theorem witness_FloatArithmetic :
    both 1 0x7F800001 formF2 2 (fun o a b _ => o.add a b) (sh 2 4 5 6) = true ∧ both 1 0x7F800001 formF2 2 (fun o a b _ => o.add a b.negate) (ln 4 5 6 0 2 5) = true ∧
    both 1 0x7F800001 formF2 2 (fun o a b _ => o.mul a b) (sh 2 4 5 6) = true ∧ both 1 0x7F800001 formFfma 3 (fun o a b c => o.fma a b c) (ln 4 5 6 255 2 3) = true ∧
    both 1 0x7F800001 formFmin 2 (fun o a b _ => Rnd.minmax { f := o.f, mode := 1, sat := false, fo := o.fo } false a b) (sh 2 4 5 6) = true ∧
    both 1 0x7F800001 formFrnd 1 (fun o a _ _ => o.integral a) (ln 4 5 0 0 2 5) = true ∧ both 1 0x7C01 formF2 2 (fun o a b _ => o.add a b) (ln 4 5 6 0 3 0) = true := by
  decide +kernel

theorem witness_PackedArithmetic :
    formMeets formPk [sh 11 4 5 6, ln 4 5 6 0 12 0x25] = true ∧ formMeets formPkfma [sh 11 4 5 6, ln 4 5 6 255 11 0] = true ∧
    (demo 1).quiet 0xFF (fun _ => 0x3F) = true ∧ (signalling 1 0x7C01).runs (formPk (sh 11 4 5 6)) (sh 11 4 5 6) = true ∧
    (let s := signalling 1 0x7C01
     let r := sh 11 4 5 6
     s.quiet (s.lanes r) (fun l => ((s.rndX r (pkFmt r)).add (half r (s.opnd (formPk r) r 1 l) 0) (half r (s.opnd (formPk r) r 2 l) 0)).exc)) = false := by
  decide +kernel

theorem witness_Conversions :
    formMeets formFcvt [sh 3 4 5 0, ln 4 5 0 0 6 0x56] = true ∧ formMeets formI2f [sh 2 4 5 0, ln 4 5 0 0 4 0x5A] = true ∧
    formMeets formF2i [sh 0 4 5 0, ln 4 5 0 0 10 0x56] = true ∧ formMeets formFclass [sh 2 4 5 0, ln 4 5 0 0 4 0] = true ∧ (demo 1).quiet 0xFF (fun _ => 0x3F) = true ∧
    (let s := signalling 1 0x7F800001
     let r := sh 0 4 5 0
     s.quiet (s.lanes r) (fun l => (toInteger r.t 2 (FV.of 2 r.fi (s.opnd (formF2i r) r 1 l))).2)) = false := by decide +kernel

theorem witness_SpecialFunctionsAndQuantising :
    formMeets formSfu [sh 2 4 5 0, ln 4 5 0 0 4 0xD] = true ∧ both 2 0x7F800001 formSfu 1 (fun o a _ _ => o.recip a) (sh 2 4 5 0) = true ∧
    both 2 0x7F800001 formSfu 1 (fun o a _ _ => o.sqrt a) (sh 2 4 5 0) = true ∧
    formMeets formQnt [sh 13 251 224 0, ln 251 0 248 0 14 0, ln 0 0 0 0 15 1] = true ∧ (demo 1).quiet 0xFF (fun _ => 0x3F) = true := by decide +kernel

theorem witness_RayTests :
    formMeets (formRay 5 24) [sh 2 251 248 232, ln 0 0 0 0 2 0] = true ∧ formMeets (formRay 4 9) [sh 2 252 248 247, ln 0 0 0 0 2 0] = true ∧
    formMeets (formRay 4 8) [sh 2 252 248 248, ln 0 0 0 0 2 0] = true ∧
    rayOf ((List.range 8).map (fun _ => FV.of 2 false (Elem.ofWord 0))) = none := by decide +kernel

/-- Which row of R212 an access meets at issue: 0 a poisoned base, 1 a poisoned lane, 2 a misaligned lane, 3 none; 9 where it does not issue. -/
def row (F : Form) (r : Reg) (x : Access) (s : State) : Nat :=
  if !(s.runs F r && !s.me.scalarsBusy x.bregs && s.queueRoom r.fsel) then 9
  else if x.basePois s then 0
  else if maskOf s.me.width (fun l => (s.lanes r).getLsbD l && x.bad s l) ≠ 0 then 1
  else if maskOf s.me.width (fun l => (s.lanes r).getLsbD l && decide ((x.addr s l).toNat % x.align ≠ 0)) ≠ 0 then 2
  else 3

/-- The rows that the demonstration meets as it stands, with s2, v4 or v6 poisoned, and with v4 = 1. -/
def rows (F : Form) (r : Reg) (x : Access) : List Nat :=
  [demo 3, poisonS (demo 3) 3, poisonV (demo 3) 4, withV (demo 3) 4 [1]].map (row F r x)

theorem witness_LoadsAndStoresEnter :
    (let r := sh 1 6 0x22 4; rows (formLd r) r (loadAccess formLd true (ldOp r) r)) = [3, 0, 1, 2] ∧
    (let r := ln 4 0xA2 4 255 1 0x2E; rows (formLd r) r (loadAccess formLd true (ldOp r) r)) = [3, 0, 1, 2] ∧
    (let r := sh 1 6 0x22 4; rows (formSt r) r (storeAccess formSt true (stOp r) r)) = [3, 0, 1, 2] ∧
    (let r := ln 252 0xA2 4 128 1 0x0E; rows (formSt r) r (storeAccess formSt true (stOp r) r)) = [3, 0, 1, 2] ∧
    (let r := sh 1 6 0x23 4; rows (formSpad false r) r (loadAccess (formSpad false) false (ldsOp r) r)) = [3, 0, 1, 2] ∧
    (let r := sh 1 6 0x23 4; rows (formSpad true r) r (storeAccess (formSpad true) false (stsOp r) r)) = [3, 0, 1, 2] := by decide +kernel

/-- A fragment block's machine: its grid was launched for a tile. -/
def demoFrag : State := { demo 3 with grids := [{ demoGrid with origin := .fragment 9 0 }] }

theorem witness_FifoAndTileAccessesEnter :
    (let r := sh 1 6 0x3F 4
     (demo 3).runs (formTile false false r) r = true ∧ (demo 3).runs (formTile true false r) r = true ∧ (demo 3).isFrag = false ∧ r.xb 4 = false ∧
     (r.c + (demo 3).me.baseOf r false) % 2 = 0 ∧ (demo 3).queueRoom r.fsel = true ∧ (demo 3).me.scalarsBusy (r.baseRegs false) = false) ∧
    (let r := ln 6 0x3F 4 255 1 0x1E
     demoFrag.runs (formTile true true r) r = true ∧ demoFrag.isFrag = true ∧ (lanesOf (demoFrag.lanes r)).all (fun l => demoFrag.orderedReady demoFrag.me l) = true ∧
     esize r.t = 4 ∧ (r.c + demoFrag.me.baseOf r false) % 2 = 1 ∧ demoFrag.me.scalarsBusy (r.baseRegs false) = false) ∧
    (let r := ln 7 31 0 1 0 0x50
     (demo 3).runs (formFifo false (demo 3).myBlock.fifos.length r) r = true ∧ (demo 3).runs (formFifo true (demo 3).myBlock.fifos.length r) r = true ∧
     (demo 3).queueRoom r.fsel = true ∧ (poisonV (demo 3) 7).runs (formFifo true 2 r) r = true ∧ ((poisonV (demo 3) 7).opnd (formFifo true 2 r) r 0 7).pois = true) := by
  decide +kernel

theorem witness_AtomicsEnter :
    (List.range 8).all (fun op => let r := sh 1 5 (32 * op + 2) 4
      decide (rows (formAtom r) r (atomAccess (formAtom r) 1 true (.atomic (atomOp r) .atom r.aop) r) = [3, 0, 1, 2])) = true ∧
    (List.range 6).all (fun op => let r := ln 0 (32 * op + 2) 4 255 1 0x16
      decide (rows (formRed r) r (atomAccess (formRed r) 1 false (.atomic (atomOp r) .red r.aop) r) = [3, 0, 1, 2])) = true ∧
    (let r := ln 0 2 4 255 2 5; rows (formRedDet r) r (atomAccess (formRedDet r) 1 false (.redDet r.t 0) r)) = [3, 0, 1, 2] ∧
    (let r := ln 5 2 4 254 1 0x1E; rows (formCas r) r (atomAccess (formCas r) 2 true (.atomic (atomOp r) .cas 0) r)) = [3, 0, 1, 2] ∧
    (let r := ln 5 30 4 254 1 6; row (formCas r) r (atomAccess (formCas r) 2 true (.atomic (atomOp r) .cas 0) r) (demo 3)) = 3 := by decide +kernel

theorem witness_SynchronisationEnters :
    ([sh 0 0 0 0, ln 0 0 0 0 0 0x40, ln 0 0 0 0 0 0x4E, ln 0 0 0 0 0 0x55, ln 0 0 0 0 0 0xDC].all (fun r =>
      (demo 3).runs (formFence (demo 3).ctx r) r && (demo 3).queueRoom r.fsel)) = true ∧
    (let r := sh 0 0 0x22 4; rows (formLine 2 r) r (lineAccess (formLine 2 r) (.pref 0) r)) = [3, 0, 1, 3] ∧
    (let r := ln 0 0x22 4 255 0 1; rows (formLine 2 r) r (lineAccess (formLine 2 r) (.cctl 1) r)) = [3, 0, 1, 3] ∧
    (let r := ln 0 0x22 4 128 0 0; rows (formLine 1 r) r (lineAccess (formLine 1 r) (.rflush false) r)) = [3, 0, 1, 3] ∧
    formMeets (formWhole 2) [ln 0 0 0 0 0 2] = true ∧ formMeets (formWhole 1) [ln 0 0 0 0 0 1] = true ∧ (demo 3).queueRoom 0 = true ∧
    (let r := ln 0 0x22 4 254 0 6
     rows (formSig r) r
      { bregs := r.baseRegs true, bad := fun s l => (r.vo && (s.opnd (formSig r) r 2 l).pois) || s.runPois (formSig r) r 3 2 l
        addr := fun s l => s.addrOf (formSig r) r true r.vo 0 l, align := 8, work := fun _ => .sig (r.xf 0 2) (r.xb 2) }) = [3, 0, 1, 2] := by decide +kernel

theorem witness_SynchronisationEnters_cps :
    let r := ln 5 0x62 4 1 0 6
    let F := formCps (demo 3).barCount r
    let ok := fun (s : State) => s.runs F r && !s.me.scalarsBusy (r.baseRegs true) && s.queueRoom r.fsel && (s.block s.me.block).isSome &&
      !(r.baseRegs true).any (fun n => (s.me.sreg n).pois)
    let bad := fun (s : State) => maskOf 8 (fun l => (s.lanes r).getLsbD l && ((r.vo && (s.opnd F r 2 l).pois) || (s.opnd F r 0 l).pois))
    let mis := fun (s : State) => maskOf 8 (fun l => (s.lanes r).getLsbD l && decide ((s.addrOf F r true r.vo 0 l).toNat % (esize r.t * r.run) ≠ 0))
    let low := fun (s : State) => maskOf 8 (fun l => (s.lanes r).getLsbD l && decide ((s.opnd F r 0 l).val.toNat % (esize r.t * r.run) ≠ 0))
    (ok (demo 3) = true ∧ bad (demo 3) = 0 ∧ mis (demo 3) = 0 ∧ low (demo 3) = 0) ∧ (ok (poisonV (demo 3) 5) = true ∧ bad (poisonV (demo 3) 5) ≠ 0) ∧
    (ok (withV (demo 3) 4 [4]) = true ∧ bad (withV (demo 3) 4 [4]) = 0 ∧ mis (withV (demo 3) 4 [4]) ≠ 0) ∧
    (ok (withV (demo 3) 5 [4]) = true ∧ bad (withV (demo 3) 5 [4]) = 0 ∧ mis (withV (demo 3) 5 [4]) = 0 ∧ low (withV (demo 3) 5 [4]) ≠ 0) := by decide +kernel

/-- An entry of the demonstration's team: eight lanes at address 0x20010 each, data words 1 and 2, result in v4, counted on f0. -/
def demoEntry (w : Work) : Entry :=
  { order := 0, w0 := 0, w1 := 0, pfxw := 0, fla := 0, flb := 15, pc := 0x10004, hdr := 0x10000, lmask := 0xFF, progress := 0, dropped := false, final := false,
    faulted := false, work := w, tgt := List.replicate 8 [4, 0, 0, 0], busy := [4], sbusy := [], addr := List.replicate 8 0x20010,
    data := List.replicate 8 [1, 2], cap := [], gmask := 0xFF, emask := 0xFF, priv := false, waits := [], refused := 0, refAddr := 0, refCause := 0, kept := [] }

/-- The demonstration's team with entries in its queue. -/
def holding (es : List Entry) : State :=
  { demo 3 with me := { (demo 3).me with entries := es, nextOrder := es.length, flags := BitVec.ofNat 4 es.length :: List.replicate 11 0 } }

/-- An entry of the team may be performed. -/
def mayPerform (es : List Entry) (n : Nat) (e : Entry) : Bool := decide ((holding es).ready 1 n = some ((holding es).me, e))

/-- An access of four bytes. -/
def word4 (sp : Space) : MemOp := { space := sp, scope := 5, acq := false, rel := false, esz := 4, cnt := 1, ty := 1, fmt := false, nf := false }

/-- No lane but the eight lowest is in the mask of all. -/
theorem lane_of_eight (l : Nat) (h : (0xFF : Mask).getLsbD l = true) : l < 8 := by
  by_cases hl : l < 64
  · have : ∀ k, k < 64 → (0xFF : Mask).getLsbD k = true → k < 8 := by decide +kernel
    exact this l hl h
  · have hs : (0xFF : Mask).getLsbD l = false := BitVec.getLsbD_of_ge _ _ (by omega)
    rw [hs] at h; exact absurd h (by decide)

/-- Lane 7 alone. -/
theorem only_lane_seven : onlyLane 0x80 7 := by
  intro k
  by_cases hk : k < 64
  · have : ∀ j, j < 64 → (0x80 : Mask).getLsbD j = decide (j = 7) := by decide +kernel
    exact this k hk
  · have hs : (0x80 : Mask).getLsbD k = false := BitVec.getLsbD_of_ge _ _ (by omega)
    rw [hs, eq_comm, decide_eq_false]; omega

theorem witness_BarriersCountArrivals :
    (let s := holding [demoEntry (.load (word4 .global))]
     let r := sh 0 1 0 0
     s.runs (formBar s.barCount r) r = true ∧ s.queueRoom r.fsel = true ∧ s.me.id ≠ 0 ∧ r.xf 0 2 ≠ 2 ∧
     (s.me.entries.drop s.me.suspended).any (fun x => decide (x.order < s.me.nextOrder) && !x.dropped && decide (x.emask &&& s.lanes r ≠ 0) && x.work.accesses) = true) ∧
    (let s := demo 3
     let r := ln 1 0 2 0 0 1
     s.runs (formBar s.barCount r) r = true ∧ r.xf 0 2 = 1 ∧ s.me.entries = [] ∧ demoBlock.bars[r.d]? = some Barrier.reset ∧
     s.block s.me.block = some demoBlock ∧ (Barrier.reset.code.getD r.b ≠ 0) ∧ Barrier.reset.arrivals + popMask (s.lanes r) < 8 * Barrier.reset.code.getD r.b) ∧
    (let b := { demoBlock with bars := List.replicate 16 { Barrier.reset with phase := 0 } }
     let s : State := { demo 3 with blocks := [b], me := (demo 3).me.mapThreads 0xFF (fun th => { th with last := [(1, 0xFFFFFFFF)] }) }
     let r := ln 1 0 0 0 0 2
     s.runs (formBar s.barCount r) r = true ∧ r.xf 0 2 = 2 ∧ s.block s.me.block = some b ∧ s.lanes r = 0xFF ∧
     ∀ l, l < 8 → (s.me.thread l).lastAt r.d = some 0xFFFFFFFF ∧ wrapAfter (b.bars.getD r.d Barrier.reset).phase 0xFFFFFFFF = true) := by decide +kernel

theorem witness_MemoryReadsBackWrites : State.reset.tidy = true ∧ (0 : Nat) ≠ 2 ^ 52 := by decide +kernel

theorem witness_LoadsReturnBytes :
    let e := { demoEntry (.load (word4 .scratch)) with addr := List.replicate 8 1020 }
    mayPerform [e] 0 e = true ∧ (word4 .scratch).acq = false ∧ (holding [e]).block (holding [e]).me.block = some demoBlock ∧ e.refused = 0 ∧
    ∀ l, e.lmask.getLsbD l = true → (e.addr.getD l 0).toNat + 4 * 1 ≤ demoBlock.scratch.size := by
  refine ⟨by decide +kernel, rfl, by decide +kernel, rfl, fun l h => ?_⟩
  have h8 := lane_of_eight l h
  have : ∀ k, k < 8 → ((List.replicate 8 (1020 : DWord)).getD k 0).toNat + 4 * 1 ≤ 1024 := by decide +kernel
  exact this l h8

theorem witness_StoresWriteTheirBytes :
    (let e := { demoEntry (.store (word4 .global)) with lmask := 0x80, emask := 0x80 }
     let s := holding [e]
     s.tidy = true ∧ mayPerform [e] 0 e = true ∧ e.refused = 0 ∧ onlyLane e.lmask 7 ∧ s.place s.me e (word4 .global) kindWrite 7 = .mem 0x20010 false ∧
     s.isWindow 0x20010 = false ∧ ∀ r ∈ s.reds, r.overlaps 0x20010 4 = false) ∧
    (let e := { demoEntry (.sstore true 5 false) with lmask := 0x80, emask := 0x80 }
     mayPerform [e] 0 e = true) ∧
    (let e := { demoEntry (.store (word4 .scratch)) with lmask := 0x80, emask := 0x80, addr := List.replicate 8 1020 }
     mayPerform [e] 0 e = true ∧ onlyLane e.lmask 7 ∧ (holding [e]).block (holding [e]).me.block = some demoBlock ∧ tabWf demoBlock.scratch.bytes = true ∧
     (e.addr.getD 7 0).toNat + 4 * 1 ≤ demoBlock.scratch.size) := by
  refine ⟨⟨by decide +kernel, by decide +kernel, rfl, only_lane_seven, by decide +kernel, by decide +kernel, fun r h => by cases h⟩, by decide +kernel,
    by decide +kernel, only_lane_seven, by decide +kernel, rfl, by decide +kernel⟩

theorem witness_AtomicsReadModifyWrite :
    (let e := { demoEntry (.atomic (word4 .scratch) .cas 0) with lmask := 0x80, emask := 0x80, addr := List.replicate 8 1020 }
     mayPerform [e] 0 e = true ∧ onlyLane e.lmask 7 ∧ 7 < (holding [e]).me.width ∧ (holding [e]).block (holding [e]).me.block = some demoBlock ∧
     demoBlock.scratch.poisoned 1020 4 = false ∧ 1020 + 4 * 1 ≤ demoBlock.scratch.size ∧ tabWf demoBlock.scratch.bytes = true) ∧
    (1 < 2 ∧ 2 ^ 32 - 1 < 2 ^ 32) := by
  refine ⟨⟨by decide +kernel, only_lane_seven, by decide, by decide +kernel, by decide +kernel, by decide, rfl⟩, by decide⟩

theorem witness_RefusedWritesTrap :
    let e := { demoEntry (.redDet 2 0) with refused := 0x80, refCause := 2 }
    mayPerform [e] 0 e = true ∧ (holding [e]).me.entries.find? (fun x => decide (x.order = e.order)) = some e ∧ e.refused ≠ 0 ∧
    mayPerform [demoEntry (.sig 1 false)] 0 (demoEntry (.sig 1 false)) = true ∧ (demoEntry (.sig 1 false)).refused = 0 := by decide +kernel

theorem witness_FencesAndCaches :
    (holding []).tidy = true ∧
    (let a := demoEntry (.store (word4 .global))
     let e := { demoEntry (.fence 0 0) with order := 1 }
     mayPerform [a, e] 1 e = true ∧ ((holding [a, e]).me.before e).any (fun x => x.work.writes) = true ∧
     (holding [a, e]).me.entries.find? (fun x => decide (x.order = e.order)) = some e) ∧
    (let e := demoEntry (.fence 0 0)
     mayPerform [e] 0 e = true ∧ ((holding [e]).me.before e).any (fun x => x.work.writes) = false) ∧
    (let e := demoEntry (.fence 2 5)
     mayPerform [e] 0 e = true ∧ 5 ≤ 5 ∧ ((holding [e]).me.before e).any (fun x => x.work.accesses) = false) ∧
    mayPerform [demoEntry (.cctl 2)] 0 (demoEntry (.cctl 2)) = true ∧ mayPerform [demoEntry (.pref 1)] 0 (demoEntry (.pref 1)) = true := by decide +kernel

/-- The demonstration holding an entry in a block with a first FIFO bank of n elements. -/
def withFifo (es : List Entry) (n : Nat) : State := { holding es with blocks := [{ demoBlock with fifos := [List.replicate n Elem.zero, []] }] }

theorem witness_FifoAndCopies :
    (let e := demoEntry (.fifoPush 0 3)
     let s := withFifo [e] 12280
     let f := withFifo [e] 12281
     s.ready 1 0 = some (s.me, e) ∧ (s.block 1).isSome = true ∧ s.fifoBefore 1 0 3 true = false ∧ (s.myBlock.fifos.getD 0 []).length + popMask e.lmask ≤ 12288 ∧
     f.ready 1 0 = some (f.me, e) ∧ f.fifoBefore 1 0 3 true = false ∧ 12288 < (f.myBlock.fifos.getD 0 []).length + popMask e.lmask) ∧
    (let e := demoEntry (.fifoPush 0 0)
     let s := withFifo [e] 12281
     s.ready 1 0 = some (s.me, e) ∧ s.fifoBefore 1 0 0 true = false ∧ 12288 < (s.myBlock.fifos.getD 0 []).length + popMask e.lmask) ∧
    (let e := demoEntry (.fifoPop 0 3)
     let s := withFifo [e] 8
     let f := withFifo [e] 7
     s.ready 1 0 = some (s.me, e) ∧ s.fifoBefore 1 0 3 false = false ∧ popMask e.lmask ≤ (s.myBlock.fifos.getD 0 []).length ∧
     f.ready 1 0 = some (f.me, e) ∧ f.fifoBefore 1 0 3 false = false ∧ (f.myBlock.fifos.getD 0 []).length < popMask e.lmask) ∧
    (let e := demoEntry (.fifoPop 0 0)
     let s := withFifo [e] 7
     s.ready 1 0 = some (s.me, e) ∧ s.fifoBefore 1 0 0 false = false ∧ (s.myBlock.fifos.getD 0 []).length < popMask e.lmask) ∧
    (let e := { demoEntry (.cps (word4 .global) 1 0) with lmask := 0x80, emask := 0x80, data := List.replicate 8 [1020] }
     let s := holding [e]
     mayPerform [e] 0 e = true ∧ e.refused = 0 ∧ onlyLane e.lmask 7 ∧ s.block s.me.block = some demoBlock ∧ tabWf demoBlock.scratch.bytes = true ∧
     demoBlock.bars[1]? = some Barrier.reset ∧ Barrier.reset.code = none ∧ s.me.entries.find? (fun y => decide (y.order = e.order)) = some e ∧
     1020 + 4 * 1 ≤ demoBlock.scratch.size ∧ s.place s.me e (word4 .global) kindRead 7 = .mem 0x20010 false) := by
  refine ⟨by decide +kernel, by decide +kernel, by decide +kernel, by decide +kernel, by decide +kernel, rfl, only_lane_seven, by decide +kernel, rfl, by decide, rfl,
    by decide +kernel, by decide, by decide +kernel⟩

/-- A block with a word poisoned at scratchpad offset 64. -/
def poisonedScratch (cls : Nat) : State := { demo cls with blocks := [{ demoBlock with scratch := demoBlock.scratch.mark 64 4 }] }

theorem witness_CopiesAndWaitsIssue :
    (let r := sh 0 3 2 4
     let s := demo 5
     s.runs (formCpyL s.tagCount r) r = true ∧ s.me.scalarsBusy [2, 3, 4, 5, 0] = false ∧ ([2, 3, 4, 5, 0].any (fun n => (s.me.sreg n).pois)) = false ∧
     (poisonS s 5).runs (formCpyL s.tagCount r) r = true ∧ s.block s.me.block = some demoBlock ∧ s.tagBusy 3 = false ∧ s.queueRoom r.fsel = true ∧ s.unlogged = true) ∧
    (let s : State := { demo 5 with blocks := [{ demoBlock with tags := mapIx (fun i (x : CopyTag) => if i = 3 then { x with busy := true } else x) demoBlock.tags }] }
     let r := sh 0 3 2 4
     let d := ln 3 23 0 0 0 1
     s.runs (formCpyL s.tagCount r) r = true ∧ s.me.scalarsBusy [2, 3, 4, 5, 0] = false ∧ s.tagBusy 3 = true ∧ s.runs (formCpyD s.tagCount 1 d) d = true ∧
     s.me.scalarsBusy [23] = false) ∧
    (let r := ln 3 23 2 23 0 0x54; (demo 5).runs (formCpyL (demo 5).tagCount { r with x := 0x14 }) { r with x := 0x14 } = true) ∧
    (let r := ln 3 23 0 0 0 1
     let s := withS (demo 5) 23 1
     s.runs (formCpyD s.tagCount 1 r) r = true ∧ s.me.scalarsBusy [23] = false ∧ (s.me.sreg 23).pois = false ∧ s.descAt 1 true = none ∧
     (demo 5).runs (formCpyD (demo 5).tagCount 1 r) r = true ∧ (demo 5).descAt 0 true = some 80 ∧ demoBlock.scratch.poisoned 0 80 = false ∧ (demo 5).me.entries = [] ∧
     (poisonedScratch 5).descAt 0 true = some 80 ∧ (poisonedScratch 5).myBlock.scratch.poisoned 0 80 = true ∧
     (poisonS (demo 5) 23).runs (formCpyD 4 1 r) r = true ∧ (poisonS (demo 5) 23).me.scalarsBusy [23] = false) ∧
    (let r := ln 3 23 0 0 0 2; meets (formCpyD 4 2 r) r = true) ∧ (let r := sh 0 3 23 0; meets (formCpyD 4 0 r) r = true ∧ (demo 5).descAt 960 false = some 64) ∧
    (let r := sh 0 22 22 0; meets (formTwait 0 r) r = true ∧ (demo 5).me.spairPois 22 = false ∧ (poisonS (demo 5) 23).me.spairPois 22 = true) ∧
    (let r := ln 31 22 0 0 0 1; meets (formTwait 1 r) r = true) ∧ (let r := ln 23 22 0 0 0 2; meets (formTwait 2 r) r = true) := by decide +kernel

/-- Memory that holds a launch record at 0x20000 for 2 × 1 × 1 blocks of the kernel at 0x20080, eight lanes and one team, and a handler table at
0x30000 whose pool for process 1 is 1 MiB; s2 holds the record's address. -/
def launching (gx depth : Nat) : State :=
  let s := { demo 5 with grids := [{ demoGrid with depth := depth }] }
  let s := s.setCore 0 0 ((s.core 0 0).setReg 0x110 0x30000)
  let s := s.homeWrite 0x20000 (leBytes 8 0x20080 ++ leBytes 4 gx ++ leBytes 2 1 ++ leBytes 2 1)
  let s := s.homeWrite 0x20080 (leBytes 8 0x40000 ++ [0, 1])
  withS (s.homeWrite 0x30030 (leBytes 8 0x100000)) 2 0x20000

/-- The record and the descriptor that a launching team reads: whether all is in order. -/
def launches (s : State) (depth : Nat) : Bool :=
  s.runs (formLnch (sh 0 22 2 0)) (sh 0 22 2 0) && s.grp.getLsbD 0 && !s.me.scalarsBusy [2, 3, 22, 23] && !s.me.spairPois 2 &&
  decide ((s.me.spair 2).toNat % 64 = 0) && decide (s.myGrid.depth = depth) && s.flagsRoom 1

theorem witness_LaunchesStartChildren :
    (demo 5).runs (formLnch (sh 0 31 2 0)) (sh 0 31 2 0) = true ∧
    (let s : State := { demo 5 with grp := 0xFE }; s.runs (formLnch (sh 0 31 2 0)) (sh 0 31 2 0) = true ∧ s.grp.getLsbD 0 = false) ∧
    (poisonS (demo 5) 3).me.spairPois 2 = true ∧ ((withS (demo 5) 2 32).me.spair 2).toNat % 64 = 32 ∧ launches (launching 2 10) 10 = true ∧ launches (launching 2 9) 9 = true ∧
    (launching 2 9).me.entries = [] ∧
    (match (launching 2 9).engRead (engOf (launching 2 9).me false) 5 .global 0x20000 64 with
     | .ok (s1, card) =>
       (match s1.engRead (engOf (launching 2 9).me false) 5 .global (fieldAt card 0 8) 128 with
        | .ok (_, desc) => (match parseKDesc desc with
          | some k => recordOk card && decide (fieldAt card 0 8 % 128 = 0) && extentsOk k (fieldAt card 8 4) (fieldAt card 0xC 2) (fieldAt card 0xE 2) &&
              decide (k.cx * k.cy * k.cz * poolBytes k ≤ ((launching 2 9).handlerEntry 0 0 1).2.2) && (launching 2 9).clusterFits 0 k && decide (fieldAt card 8 4 = 2)
          | none => false)
        | .error _ => false)
     | .error _ => false) = true ∧
    (match (launching 0 0).engRead (engOf (launching 0 0).me false) 5 .global 0x20000 64 with
     | .ok (_, card) => decide (fieldAt card 8 4 = 0) | .error _ => false) = true := by decide +kernel

/-- A matrix instruction may issue in a state. -/
def tiles (F : Form) (r : Reg) : Bool := (demo 4).runsMatrix F r

/-- The demonstration with the f16 map of 13's worked example at scratchpad offset 64, and its offset in s4 and s5. -/
def mapped : State :=
  let sc := demoBlock.scratch.write 64 (leBytes 8 0x01000000 ++ leBytes 4 0x80 ++ leBytes 4 0x20)
  { withS (withS (demo 4) 4 64) 5 64 with blocks := [{ demoBlock with scratch := sc }] }

theorem witness_MatrixInstructionsEnter :
    (tiles { formMxz with x := true } (sh 0 0 0 0) = true ∧ demoBlock.acc[0]? = some AccTile.zero ∧ AccTile.zero.busy = false ∧ (demo 4).queueRoom 1 = true ∧
     (demo 4).unlogged = true ∧ (demo 4).block (demo 4).me.block = some demoBlock ∧ (demo 4).myBlock.acc[127]? = none) ∧
    (let r := ln 0 4 0 0 3 0x4A
     mapped.runsMatrix (formMxst r) r = true ∧ mapped.me.scalarsBusy [4] = false ∧ (mapped.me.sreg 4).pois = false ∧
     (match mapped.readMap 64 false (kindOfType 3 false) with | .ok _ => true | _ => false) = true ∧ mapped.runsMatrix (formMxld r) r = true ∧
     (withS (demo 4) 4 1000).runsMatrix (formMxst r) r = true ∧ (withS (demo 4) 4 1000).readMap 1000 false (kindOfType 3 false) = .trap 0x14 2 ∧
     (poisonS (demo 4) 4).runsMatrix (formMxst r) r = true) ∧
    (let r := sh 2 255 0 120; tiles (formMxrw true r) r = true ∧ r.b + 8 ≤ 128) ∧ (let r := ln 0 252 121 60 2 3; tiles (formMxrw false r) r = true ∧ 128 < r.b + 8) ∧
    (let r := ln 0 193 120 0 2 62; tiles (formMxrw false r) r = true ∧
      (lanesOf ((demo 4).lanes r)).any (fun l => (demo 4).runPois (formMxrw false r) r 1 r.mxCount l) = false) ∧
    (let r := ln 0 4 0 4 0 0x5D
     (withS (demo 4) 4 992).runsMatrix (formMxep { r with x := 0x4D }) { r with x := 0x4D } = true ∧ demoBlock.scratch.inside 992 32 = true ∧
     (withS (demo 4) 4 1024).runsMatrix (formMxep { r with x := 0x4D }) { r with x := 0x4D } = true ∧ demoBlock.scratch.inside 1024 32 = false) ∧
    (let r := ln 0 4 5 3 0 0x68
     mapped.runsMatrix (formMxa 8 mapped.me.latch.valid r) r = true ∧ mapped.me.scalarsBusy [4, 5] = false ∧ mapped.me.latch.valid = false ∧ r.asrc = false ∧
     mapped.me.latch.pending = false ∧ (match mapped.readMap 64 true .f16 with | .ok _ => true | _ => false) = true) ∧
    (let r := ln 0 0 0x25 0 0 0x69
     mapped.runsMatrix (formMxa 8 false r) r = true ∧ r.asrc = true ∧ mxaRunOk 8 r = true ∧ mapped.me.mxaPois r = 0 ∧
     (({ mapped with me := (poisonV mapped 63).me } : State).me.mxaPois r ≠ 0) ∧ (({ mapped with me := (poisonV mapped 63).me } : State).runsMatrix (formMxa 8 false r) r = true)) ∧
    (let x := demoEntry (.matrix 0x70 0 0 0 0)
     let w : Entry := { x with w0 := 0xF0000025, w1 := 0x00F80069, busy := [] }
     let r := ln 0 0 0x25 0 0 0x69
     let s : State := { mapped with me := { mapped.me with entries := [w, { w with order := 1 }], nextOrder := 2 } }
     s.runsMatrix (formMxa 8 false r) r = true ∧ s.me.scalarsBusy [5] = false ∧ r.asrc = true ∧
     (s.me.entries.filter (fun x => x.regA && !x.dropped)).length = 2 ∧ (x.regA = false) ∧
     (poisonS mapped 5).runsMatrix (formMxa 8 false r) r = true ∧ ((poisonS mapped 5).me.sreg 5).pois = true ∧ (poisonS mapped 5).me.scalarsBusy [5] = false) ∧
    (let r := ln 0 200 0x25 3 0 0x6A; mapped.runsMatrix (formMxa 8 false r) r = true ∧ r.asrc = true ∧ mxaRunOk 8 r = false) ∧
    (let r := ln 0 0 0x25 0 0 0x68
     let s : State := { mapped with me := { mapped.me with latch := { valid := true, asrc := true, a := 0, afmt := 0, m := 0, c := 0, vals := [0] } } }
     let q := ln 0 0 0x25 1 0 0x68
     s.runsMatrix (formMxa 8 true r) r = true ∧ s.me.latch.fits r = true ∧ s.runsMatrix (formMxa 8 true q) q = true ∧ s.me.latch.fits q = false) := by
  refine ⟨?_, ?_, ?_, ?_, ?_, ?_, ?_, ?_, ?_, ?_, ?_⟩ <;> decide +kernel

theorem witness_AccumulatorsAllocated :
    (let r := ln 31 0 1 0 0 0x40; tiles (formMxal false r) r = true ∧ (demo 4).block (demo 4).me.block = some demoBlock) ∧
    (let r := sh 0 23 0 3; tiles (formMxal false r) r = true ∧ (demo 4).me.scalarsBusy [23] = false ∧ demoBlock.acc.length + r.b ≤ demoBlock.accMax) ∧
    (let r := sh 0 23 0 4; tiles (formMxal false r) r = true ∧ demoBlock.accMax < demoBlock.acc.length + r.b) ∧
    (let r := ln 23 0 1 0 0 1; tiles (formMxal true r) r = true ∧ r.b ≤ demoBlock.acc.length ∧ (demoBlock.acc.drop (1 - r.b)).any (fun a => a.busy) = false) ∧
    (let r := ln 23 0 2 0 0 1; tiles (formMxal true r) r = true ∧ demoBlock.acc.length < r.b) ∧
    (let r := { ln 31 0 1 0 0 0x40 with g := 23 }; (demo 4).refusal 4 ((formMxal false r).ok r) (formMxal false r).rnd (formMxal false r).sat = none ∧ r.g ≠ 31) ∧
    (let r := ln 31 0 1 0 0 0x40
     let s : State := { demo 4 with grp := 0x7F }
     s.refusal 4 ((formMxal false r).ok r) (formMxal false r).rnd (formMxal false r).sat = none ∧ r.g = 31 ∧ ¬ (s.grp = fullMask s.me.width ∧ s.me.live = s.grp)) := by decide +kernel

theorem witness_SystemRegistersReadAndWrite :
    (let r := sh 0 31 31 0; meets (formCsr 0 r) r = true ∧ (demo 6).me.converged (demo 6).grp = true ∧ (demo 6).me.scalarsBusy [] = false) ∧
    (let r := sh 0 31 31 0
     let s : State := { demo 6 with grp := 0x0F }
     s.runs (formCsr 0 r) r = true ∧ s.me.converged s.grp = false) ∧
    (let r := ln 22 22 6 0 0 5; meets (formCsr 1 r) r = true ∧ r.csrNum < 0x100 ∧ (demo 6).me.scalarsBusy [22, 23, 22, 23] = false) ∧
    (let r := ln 23 23 1 0 0 3; meets (formCsr 3 r) r = true ∧ r.csrNum = 1 ∧ (poisonS (demo 6) 23).runs (formCsr 3 r) r = true) ∧
    (let r := ln 31 23 0x15 1 0 2; meets (formCsr 2 r) r = true ∧ 0x100 ≤ r.csrNum) := by decide +kernel

/-- A privileged team in its handler with one entry suspended in its frame; the frame's page is mapped. -/
def inHandler (e : Entry) : State :=
  { demo 6 with me := { (demo 6).me with entries := [e], nextOrder := 1, frame := some { frameOf (demo 6).me { cause := 1, sub := 0, tpc := 0, thdr := 0, lanes := 0, info := 0, faddr := 0, next := false } 0 0 with nrq := 1, inHandler := true } } }

theorem witness_QueueEntriesEditedInHandlers :
    (let s := inHandler (demoEntry (.matrix 0x70 0 0 3 0))
     let r := sh 0 23 0 15
     s.runs (formRqa 0 s.me.agent r) r = true ∧ s.me.converged s.grp = true ∧ s.me.scalarsBusy ([r.a] ++ [r.d] ++ []) = false ∧ (s.me.sreg r.a).pois = false ∧
     (s.rqEntry (s.me.sreg r.a).val.toNat).isSome = true) ∧
    (let s := withS (inHandler (demoEntry (.matrix 0x70 0 0 3 0))) 0 1
     let r := sh 0 23 0 15
     s.runs (formRqa 0 s.me.agent r) r = true ∧ s.rqEntry (s.me.sreg r.a).val.toNat = none) ∧
    (let s := withS (inHandler (demoEntry (.matrix 0x70 0 0 3 0))) 23 3
     let r := ln 0 0 10 23 0 1
     s.runs (formRqa 1 s.me.agent r) r = true ∧ s.me.scalarsBusy ([r.a] ++ [] ++ [r.c]) = false ∧ (s.me.sreg r.c).pois = false ∧
     (match s.writePieces s.me s.me.frameVa.toNat [(0x480, entryBytes { demoEntry (.matrix 0x70 0 0 3 0) with progress := 3 } 0)] with | .ok _ => true | _ => false) = true) ∧
    (let s := inHandler (demoEntry (.load (word4 .global)))
     let r := ln 0 0 0 0 0 2
     let x := demoEntry (.load (word4 .global))
     s.runs (formRqa 2 s.me.agent r) r = true ∧ x.final = false ∧ s.me.id ≠ 0 ∧ s.me.frame.isSome = true ∧
     (match s.writePieces s.me s.me.frameVa.toNat [(0x480, entryBytes { x with dropped := true, final := true } (s.me.frameVa.toNat + captureOff s.me.width 0))] with
      | .ok _ => true | _ => false) = true) ∧
    (let s := inHandler { demoEntry (.load (word4 .global)) with final := true }
     let r := ln 0 0 0 0 0 2
     s.runs (formRqa 2 s.me.agent r) r = true) := by decide +kernel

/-- A handler with nothing suspended, last in its clause; the lane records of its frame are zero. -/
def returning : State := { inHandler (demoEntry (.load (word4 .global))) with
  me := { (inHandler (demoEntry (.load (word4 .global)))).me with entries := [], frame := (inHandler (demoEntry (.load (word4 .global)))).me.frame.map (fun f => { f with nrq := 0 }) } }

theorem witness_HandlersReturn :
    (demo 6).runs (formTret (demo 6).ctx false (sh 0 0 0 0)) (sh 0 0 0 0) = true ∧ (demo 6).me.frame = none ∧
    returning.runs (formTret returning.ctx returning.me.agent (sh 0 0 0 0)) (sh 0 0 0 0) = true ∧ returning.me.converged returning.grp = true ∧ returning.me.frame.isSome = true ∧
    (returning.me.frame.map (fun f => f.nrq)) = some 0 ∧ returning.me.id ≠ 0 ∧ returning.me.entries = [] ∧ returning.me.threads.length = returning.me.width ∧
    returning.me.kids = [] ∧
    (match (returning.releaseBy 5 returning.me returning.grp).readOwn returning.me (returning.me.frameVa.toNat + 0x80) 1024 with
     | .ok card => (List.range 8).all (fun l => !bit (BitVec.ofNat 64 (fieldAt card (16 * l) 8)) 58 && !bit (BitVec.ofNat 64 (fieldAt card (16 * l) 8)) 63)
     | _ => false) = true ∧ (List.range 8).all (fun l => !(returning.me.thread l).exited) = true ∧
    (match returning.me.frame with
     | some f => (match (returning.releaseBy 5 returning.me returning.grp).readLatch returning.me f.latch with | .ok _ => true | _ => false) &&
         (match (returning.releaseBy 5 returning.me returning.grp).restore returning.me f false f.pcls 0 with | .ok _ => true | _ => false)
     | none => false) = true ∧
    (let s : State := { returning with me := { returning.me with entries := [demoEntry (.load (word4 .global))] } }
     s.runs (formTret s.ctx s.me.agent (sh 0 0 0 0)) (sh 0 0 0 0) = true ∧ s.me.converged s.grp = true ∧
     (s.me.entries.drop s.me.suspended).any (fun x => !x.dropped) = true) ∧
    (let s : State := { returning with me := { returning.me with kids := [{ lseq := 2, fla := 0, flb := 15, held := false }] } }
     s.runs (formTret s.ctx s.me.agent (sh 0 0 0 0)) (sh 0 0 0 0) = true ∧ s.me.converged s.grp = true ∧ s.me.kids.any (fun k => !k.held) = true) := by decide +kernel

/-- An illegal instruction. -/
def demoTrap : Trap := { cause := 1, sub := 0, tpc := 0x10004, thdr := 0x10000, lanes := 0xFF, info := 0, faddr := 0, next := false }

theorem witness_ThreadsEndYieldAndTrap :
    formMeets formExit [sh 0 0 0 0, ln 0 0 0 0 0 0] = true ∧ (demo 0).me.id ≠ 0 ∧ (List.range 12).all (fun n => decide ((demo 0).me.mreg n = 0)) = true ∧
    formMeets formYield [sh 0 0 0 0] = true ∧ formMeets formCode [sh 0 0 255 255, ln 0 1 0x23 0 0 0] = true ∧
    (demo 2).refusal 7 (decide ((0 : BitVec 24) = 0)) false false = none ∧ (demo 2).refusal 7 (decide ((0 : BitVec 24) = 0) && decide ((0 : Word) = 0)) false false = none ∧
    (let s : State := { demo 0 with me := { (demo 0).me with handler := 0x40000 } }
     let k := { demoTrap with cause := 0x0F, info := 0xFFFF, next := true }
     let t0 := s.me.stepPast s.grp s.ctx
     s.runs (formCode (sh 0 0 255 255)) (sh 0 0 255 255) = true ∧ s.me.agent = false ∧ s.me.pend = none ∧ s.me.frame = none ∧ s.me.priv = false ∧ s.me.handler ≠ 0 ∧
     s.stopsOn s.me 0x0F = false ∧ s.stopsOn s.me 0x0E = false ∧
     (match ({ s with me := t0 } : State).writePieces t0 s.me.frameVa.toNat (framePieces t0 k 0) with | .ok _ => true | _ => false) = true ∧
     (match ({ s with me := t0 } : State).writePieces t0 s.me.frameVa.toNat (framePieces t0 { k with cause := 0x0E } 0) with | .ok _ => true | _ => false) = true) ∧
    (let s : State := { demo 1 with ctx := { demoCtx 1 with last := false, w1 := 0x420C0D0E } }; s.ctx.last = false ∧ bits s.ctx.w1 24 8 ≠ 0x1E) := by decide +kernel

theorem witness_DecodeAndEncodeAgree :
    (Instr.encoded (.leaLong (lo 4 6 8 0 0 3)) = true ∧ rowBits (.leaLong (lo 4 6 8 0 0 3)) = true) ∧ decodeWords 0x420C0D0E 0 = .ok (.fmul ⟨12, 13, 14⟩) := by
  refine ⟨by decide +kernel, rfl⟩

theorem witness_ReservedWordsRefused :
    bits (0x1F000000 : Word) 24 7 ∈ ([0x1F, 0x3B, 0x3C, 0x3D, 0x3E, 0x3F, 0x5D, 0x5E, 0x5F, 0x7F] : List (BitVec 7)) ∧ bits (0x7F000000 : Word) 24 7 = 0x7F ∧
    (bits (0x180000E0 : Word) 24 7 = 0x18 ∧ bit (0x180000E0 : Word) 31 = false ∧ 14 ≤ bitsN (0x180000E0 : Word) 4 5) ∧
    (bits (0x980000B0 : Word) 24 7 = 0x18 ∧ bit (0x980000B0 : Word) 31 = true ∧ 11 ≤ bitsN (0x980000B0 : Word) 4 5) ∧
    (bits (0x9C000000 : Word) 24 7 = 0x1C ∧ bit (0x9C000000 : Word) 31 = true) ∧ (bits (0x9E000000 : Word) 24 7 = 0x1E ∧ bit (0x9E000000 : Word) 31 = true) ∧
    (bits (0x6600E000 : Word) 24 7 = 0x66 ∧ bit (0x6600E000 : Word) 31 = false ∧ bits (0x6600E000 : Word) 13 3 = 7 ∧ bits (0x6600C000 : Word) 13 3 = 6) ∧
    (bits (0x6700C000 : Word) 24 7 = 0x67 ∧ bits (0x6700C000 : Word) 13 3 = 6 ∧ bits (0x6700E000 : Word) 24 7 = 0x67 ∧ bits (0x6700E000 : Word) 13 3 = 7) ∧
    (bits (0xFE000000 : Word) 24 7 = 0x7E ∧ bit (0xFE000000 : Word) 31 = true ∧ bits (3 : Word) 0 2 = 3) := by decide +kernel

theorem witness_IssueChecksInOrder :
    (let F := formIadd (ln 4 5 6 0 0 0)
     ¬ (F.cls = 7 ∨ F.cls = (demo 2).ctx.cls) ∧ F.cls = (demo 1).ctx.cls ∧
     (F.ok (ln 4 5 6 0 2 0) && (demo 1).ctx.pfxOk F.rnd F.sat) = false ∧ (F.ok (ln 4 5 6 0 0 0) && (demo 1).ctx.pfxOk F.rnd F.sat) = true) ∧
    (let F := formCsr 0 (sh 0 31 31 0)
     let s : State := { demo 6 with me := (demo 0).me }
     F.cls = s.ctx.cls ∧ ¬ (F.cls = 6 → s.me.priv = true)) ∧
    ({ ln 4 5 6 0 0 0 with g := 23 }.guardPois (poisonP (demo 1) 23 0x80).me 0xFF ≠ 0) ∧
    ({ ln 4 5 6 0 0 0 with g := 23 }.guardPois (demo 1).me 0xFF = 0 ∧ (demo 1).lanes { ln 4 5 6 0 0 0 with g := 23 } = 0) ∧
    decodeWords (words (demo 0) 0x7F000000 0).ctx.w0 (words (demo 0) 0x7F000000 0).ctx.w1 = .error .reserved ∧
    (let s : State := { demo 0 with grp := 0x0F }; s.me.converged s.grp = false ∧ s.refusal 0 (sopOk ⟨0, 0, 31, 0⟩) false false = none ∧
      s.refusal 0 (smovOk ⟨0, 0, 0, 0⟩) false false = none ∧ s.refusal 0 (decide ((0 : BitVec 5).toNat < 24) && decide ((0 : BitVec 19) = 0)) false false = none) ∧
    (let s : State := { demo 3 with grp := 0x0F }; s.me.converged s.grp = false ∧ s.refusal 3 (scalarMemOk false ⟨0, 0, 0, 0, false, false, 0⟩) false false = none) := by
  refine ⟨by decide +kernel, by decide +kernel, by decide +kernel, by decide +kernel, rfl, by decide +kernel, by decide +kernel⟩

theorem witness_TrapsSaveTheTeam :
    ((demo 0).me.agent = false ∧ (demo 0).me.pend = none ∧ (demo 0).me.frame = none ∧ (demo 0).me.priv = false ∧ (demo 0).me.threads.length = (demo 0).me.width ∧
     (demo 0).stopsOn (demo 0).me demoTrap.cause = false ∧ demoTrap.cause ≠ 0 ∧
     (match (demo 0).writePieces (demo 0).me (demo 0).me.frameVa.toNat (framePieces (demo 0).me demoTrap 1) with | .ok _ => true | _ => false) = true) ∧
    (returning.me.agent = false ∧ returning.me.frame.isSome = true ∧ returning.me.pend = none ∧
     (match returning.writeVirt returning.me.die returning.me.core returning.me.proc true (returning.me.frameVa.toNat + 0x31) [BitVec.ofNat 8 demoTrap.cause] with
      | .ok _ => true | _ => false) = true) ∧ demoTrap.cause < 2 ^ 8 ∧ demoTrap.sub < 2 ^ 8 := by decide +kernel

/-- The machine that the host places FMUL in. -/
def placed : State := State.reset.withFetchWord 32 0x420C0D0E

theorem witness_StepRunsTheDecodedInstruction :
    placed.tripped = false ∧ placed.agenda = [] ∧ (placed.turn + 1) % 8 ≠ 0 ∧
    ∃ c cs, ({ placed with turn := placed.turn + 1 } : State).choices = c :: cs ∧
      (let p := ({ placed with turn := placed.turn + 1 } : State).prepare c
       p.ctx.pc ≠ p.ctx.hdr ∧ ∃ cl x, p.clauseAt p.me p.ctx.hdr = .ok cl ∧ cl.items[0]? = some x ∧ x.start = p.ctx.pc ∧ x.pfx = none ∧ x.w0 = 0x420C0D0E) := by
  refine ⟨rfl, rfl, by decide, _, _, rfl, by decide +kernel, _, _, rfl, rfl, by decide +kernel, by decide +kernel, by decide +kernel⟩

/-- The same with a PFX before FMUL in the clause. -/
def prefixed : State := placed.homeWrite 0x10004 (leBytes 4 0x1E500000 ++ leBytes 4 0x420C0D0E)

theorem witness_StepRunsTheDecodedInstruction_prefix :
    prefixed.tripped = false ∧ prefixed.agenda = [] ∧ (prefixed.turn + 1) % 8 ≠ 0 ∧
    ∃ c cs, ({ prefixed with turn := prefixed.turn + 1 } : State).choices = c :: cs ∧
      (let p := ({ prefixed with turn := prefixed.turn + 1 } : State).prepare c
       p.ctx.pc ≠ p.ctx.hdr ∧ ∃ cl x, p.clauseAt p.me p.ctx.hdr = .ok cl ∧ cl.items[0]? = some x ∧ x.start = p.ctx.pc ∧ x.pfx = some 0x1E500000 ∧ x.w0 = 0x420C0D0E ∧
         ∃ q, exec (.pfx 2 true 0) { p with ctx := { (cl.ctx p.ctx.hdr 0 x) with last := false, w1 := x.w0 } } = .next q ∧ q.ctx.pfxw ≠ 0) := by
  refine ⟨rfl, rfl, by decide, _, _, rfl, by decide +kernel, _, _, rfl, rfl, by decide +kernel, by decide +kernel, by decide +kernel, _, rfl, by decide +kernel⟩

theorem test_step_runs_placed_word : (match step placed with | .next t => (t.me.thread 0).pc | _ => 0) = 0x10008 := by decide +kernel

theorem witness_ClausesComeFromMemory :
    (match placed.clauseAt placed.me 0x10000 with | .ok c => decide (c.items.length = 1) | _ => false) = true ∧
    (match placed.codeWord placed.me 0x10004 with | .ok w => decide (w = 0x420C0D0E) | _ => false) = true := by decide +kernel

theorem witness_StepKeepsTheMemoryForm : Memory.wf placed.mem = true ∧ ∃ t, step placed = .next t := ⟨by decide +kernel, _, rfl⟩

/-! ## Hypotheses met: events -/

/-- A large page that process 1 of die 0's core 0 writes its context pool to, and the pool: 2 MiB at 0x200000. -/
def pooled : State :=
  let s := (State.reset.tlbPut 0 0 { demoPage with va := 0x200000, log2 := 21, pa := 0x200000 })
  let s := s.setCore 0 0 ((s.core 0 0).setReg 0x110 0x30000)
  { s.homeWrite 0x30028 (leBytes 8 0x200000 ++ leBytes 8 0x200000) with grids := [demoGrid], nextId := 5, bootState := 3 }

/-- The same with a block of the grid at the head of core 0's queue. -/
def queued : State := pooled.setCore 0 0 { pooled.core 0 0 with queue := [{ grid := 1, lin := 0, movable := true }] }

/-- The block is admitted. -/
def admits (s : State) (g : Grid) (lin d c tm : Nat) : Bool := match s.admitBlock g lin d c tm with | .ok _ => true | _ => false

/-- Two cores of die 0. -/
def twoCores (n m : Nat) : State :=
  let s : State := { State.reset with harvest := [(0, 3)] }
  let e : BlockEntry := { grid := 1, lin := 0, movable := true }
  (s.setCore 0 0 { s.core 0 0 with queue := List.replicate n e }).setCore 0 1 { s.core 0 1 with queue := List.replicate m e }

set_option maxRecDepth 200000 in
theorem witness_admission : admits (queued.setCore 0 0 { queued.core 0 0 with queue := [] }) demoGrid 0 0 0 0 = true := by decide +kernel

/-- The demonstration's team before a clause whose header waits on f0, which a child counts on; the child's block is queued. -/
def childWaiting : State :=
  let s := ({ demo 0 with
    me := { demoTeam with kids := [{ lseq := 2, fla := 0, flb := 15, held := false }], threads := List.replicate 8 { Thread.reset with pc := 0x24000, hdr := 0x24000 } }
    grids := [demoGrid, { demoGrid with lseq := 2, origin := .child 1 1 0 15 }] } : State)
  let s := s.homeWrite 0x24000 (leBytes 4 0xA20007FC ++ leBytes 4 0x07000000)
  s.setCore 0 0 { s.core 0 0 with queue := [{ grid := 2, lin := 0, movable := true }] }

/-- A team whose group of a mask is ready, not yet raised, and raised. -/
theorem witness_SchedulingAndAdmissionEvents_ready :
    placed.team placed.me.id = some placed.me ∧ (∃ m, placed.groupReady placed.me m = true ∧ m &&& ~~~ placed.me.raised ≠ 0) ∧ placed.groupReady placed.me 0 = false ∧
    (∃ m, ({ placed with me := { placed.me with raised := m } } : State).groupReady { placed.me with raised := m } m = true ∧
      m &&& ~~~ ({ placed.me with raised := m } : Team).raised = 0) := by
  refine ⟨by decide +kernel, ⟨fullMask placed.me.width, by decide +kernel, by decide +kernel⟩, by decide +kernel, ⟨fullMask placed.me.width, by decide +kernel, by decide +kernel⟩⟩

theorem witness_SchedulingAndAdmissionEvents :
    (let s : State := { demo 0 with ctx := { demoCtx 0 with hdr := 0x20000 } }; match s.clauseAt s.me s.ctx.hdr with | .bad => true | _ => false) = true ∧
    (let s : State := { placed with ctx := { placed.ctx with hdr := 0x10000 } }
     let f : State := { s with me := { s.me with flags := 15 :: List.replicate 11 0 } }
     (match s.clauseAt s.me s.ctx.hdr with | .ok c => s.me.clauseReady c.h | _ => false) = true ∧
     (match f.clauseAt f.me f.ctx.hdr with | .ok c => !f.me.clauseReady c.h | _ => false) = true) ∧
    ((demo 0).team 1 = some (demo 0).me) ∧
    (let t := { demoTeam with image := 0x20000, threads := List.replicate 8 Thread.gone }
     let s : State := { demo 0 with me := t }
     let o : State := { s with teams := [{ t with id := 2 }] }
     t.mayRetire = true ∧ (match s.writeImage t with | .ok _ => true | _ => false) = true ∧ s.block t.block = some demoBlock ∧ t.agent = false ∧
     demoBlock.run = .resident ∧ demoBlock.acc.all (fun a => !a.busy) = true ∧ demoBlock.tags.all (fun x => !x.busy) = true ∧
     (∃ w ∈ o.allTeams, w.id ≠ 1 ∧ w.block = t.block ∧ w.agent = false) ∧ ∀ w ∈ s.allTeams, w.id ≠ 1 → w.block ≠ t.block ∨ w.agent = true) ∧
    (queued.grid 1 = some demoGrid ∧ (queued.lead 0).isSome = true ∧ queued.reserving 0 = false ∧ demoGrid.lseq = 1 ∧ demoGrid.kd.cluster = 1 ∧ demoGrid.linearOf (demoGrid.clusterOf 0).1 0 = 0 ∧
     (queued.logical 0).find? (fun k => (queued.core 0 k).queue.any (fun x => decide (x.grid = 1 ∧ x.lin = 0))) = some 0 ∧
     ({ queued.core 0 0 with queue := [] } : Core).queue = []) ∧
    ((twoCores 9 0).tidy = true ∧ (twoCores 9 0).logical 0 = [0, 1] ∧ ((twoCores 9 0).core 0 0).queue.length = 9 ∧ ((twoCores 9 0).core 0 1).queue.length = 0 ∧
     ((twoCores 9 0).core 0 0).queue.all (fun e => e.movable) = true ∧ ((twoCores 8 0).core 0 0).queue.length ≤ ((twoCores 8 0).core 0 1).queue.length + 8) ∧
    (childWaiting.block 1 = some demoBlock ∧ childWaiting.grid demoBlock.grid = some demoGrid ∧
     childWaiting.blocks.filter (fun x => decide (x.grid = demoBlock.grid)) = [demoBlock] ∧ childWaiting.teamsOf 1 = [childWaiting.me] ∧
     demoBlock.run = .resident ∧ childWaiting.massOf demoBlock.grid = none ∧ childWaiting.childLacksRoom = true ∧
     childWaiting.waitsOnChild childWaiting.me = true ∧ childWaiting.blocks = [demoBlock]) ∧
    (15 < 16 ∧ (State.reset.core 0 0).banking = [] ∧ bitsN ((State.reset.core 0 0).reg 0x108) 30 2 = 0) ∧
    ((State.reset.setCore 0 0 { State.reset.core 0 0 with banking := [(15, 3)] }).core 0 0).banking = [(15, 3)] := by
  refine ⟨by decide +kernel, by decide +kernel, by decide +kernel, ?_, by decide +kernel, by decide +kernel, by decide +kernel, by decide +kernel, by decide +kernel⟩
  refine ⟨by decide +kernel, by decide +kernel, by decide +kernel, rfl, rfl, by decide, by decide, ?_, ?_⟩
  · exact ⟨{ demoTeam with image := 0x20000, threads := List.replicate 8 Thread.gone, id := 2 }, by decide +kernel, by decide, rfl, rfl⟩
  · decide +kernel

/-- Tables of process 1 on die 0 that map virtual 0 with a page of 2 GiB: the root entry, and three tables from 0x40000 on. -/
def tabled : State :=
  let s := State.reset.setDie 0 (((State.reset.die 0).setReg 0x210 0x38000).setReg 0x211 2)
  ((s.homeWrite 0x38020 (leBytes 8 0x40001)).homeWrite 0x40000 (leBytes 8 0x42001)).homeWrite 0x42000 (leBytes 8 0x44001) |>.homeWrite 0x44000 (leBytes 8 0xF)

/-- A write of one byte held at a controller of die 0. -/
def demoHeld : HeldWrite :=
  { team := 1, entry := 0, lane := 0, grid := 1, proc := 1, core := some (0, 0), va := 1024, pa := 1024, data := [7], irq := none }

/-- A fault record of process 1 in the ring. -/
def demoFault : FaultRec := { proc := 1, va := 0x50000, vpage := 5, kind := 0, level := 4, source := 0, core := 0, ty := 0, written := true }

theorem witness_TranslationEvents :
    (((demo 0).tlbFind 0 0 1 0x20000).isSome = true ∧ tabled.tlbFind 0 0 1 0x7FFF0000 = none ∧
     tabled.walk 0 1 0x7FFF0000 = .leaf { proc := 1, va := 0, log2 := 31, pa := 0, w := true, x := true, prv := false, cmp := false }) ∧
    (let e := { demoEntry (.load (word4 .global)) with waits := [5], addr := List.replicate 8 0x50000 }
     let t : Team := { demoTeam with entries := [e] }
     let s : State := { State.reset.setDie 0 { State.reset.die 0 with faults := [demoFault] } with me := t, bootState := 3 }
     s.tidy = true ∧ s.bootState = 3 ∧ s.teams = [] ∧ t.id ≠ 0 ∧ t.die = 0 ∧ t.proc = 1 ∧ t.entries = [e] ∧ e.waits = [5] ∧ e.refused = 0 ∧ t.stall = [] ∧
     5 ∈ ((s.die 0).faults.filter (fun f => decide (f.ty = 0 ∧ f.proc = 1))).map (fun f => f.vpage) ∧
     e.lanesIn [5] ≠ 0 ∧ (s.die 0).reg 0x21A = 0) ∧
    (State.reset.faultRoom 0 = false ∧ [demoFault].all (fun f => f.written) = true) ∧ (State.reset.die 0).tlbq.length < 16 ∧
    ((State.reset.setDie 0 { State.reset.die 0 with tlbq := [(1, 1, 0, 56, 1)] }).die 0).tlbq = [(1, 1, 0, 56, 1)] ∧
    (let s := (State.reset.setCtl 0 0 { Ctl.reset with held := [demoHeld] })
     let t := s.setDie 0 { s.die 0 with tlbq := [(1, 1, 0, 56, 1)] }
     (t.die 0).tlbq = [(1, 1, 0, 56, 1)] ∧ t.dies.any (fun x => x.2.ctls.any (fun c => c.held.any (fun h => decide (h.proc = 1 ∧ 0 ≤ h.va ∧ h.va < 0 + 2 ^ 56)))) = true ∧
     (State.reset.setDie 0 { State.reset.die 0 with tlbq := [(1, 1, 0, 56, 1)] }).dies.any
       (fun x => x.2.ctls.any (fun c => c.held.any (fun h => decide (h.proc = 1 ∧ 0 ≤ h.va ∧ h.va < 0 + 2 ^ 56)))) = false) := by
  refine ⟨?_, ?_, ?_, ?_, ?_, ?_⟩ <;> decide +kernel

/-- A block's chunks, one to eight, fit eight free ones and do not fit none. -/
theorem store_chunks (blk : Nat) (bs : List Byte) (h : List HeldWrite) :
    ({ Ctl.reset with free := 8, held := h, low := true } : Ctl).store blk (chunksFor bs) ≠ none ∧ ({ Ctl.reset with held := h, low := true } : Ctl).store blk (chunksFor bs) = none := by
  have h1 : 1 ≤ chunksFor bs := by unfold chunksFor; omega
  have h8 : chunksFor bs ≤ 8 := by unfold chunksFor; omega
  have hd : defGet 0 ([] : List (Nat × Nat)) blk = 0 := rfl
  constructor
  · simp only [Ctl.store, Ctl.reset, hd]
    rw [if_neg (by omega), if_pos (by omega)]; exact Option.some_ne_none _
  · simp only [Ctl.store, Ctl.reset, hd]
    rw [if_neg (by omega), if_neg (by omega), if_neg (by omega)]

/-- Controller 0 of die 0 as given. -/
def withCtl (c : Ctl) : State := { demo 3 with dies := (State.reset.setCtl 0 0 c).dies }

theorem witness_CompressionAndSpillEvents_merge :
    ((withCtl { Ctl.reset with free := 8, held := [demoHeld] }).mergeBlock [{ demoHeld with pa := 1024, data := [7] }] 2).isSome = true ∧
    (withCtl { Ctl.reset with held := [demoHeld] }).mergeBlock [{ demoHeld with pa := 1024, data := [7] }] 2 = none := by
  have ht : State.reset.target (2 * 512) = .hbm 0 := by decide +kernel
  have hp : ∀ c, (withCtl c).ctlOf (2 * 512) = (0, 0) := fun c => by
    have h : (withCtl c).target (2 * 512) = .hbm 0 := ht
    simp [State.ctlOf, h]
  have h8 : (withCtl { Ctl.reset with free := 8, held := [demoHeld] }).ctl 0 0 = { Ctl.reset with free := 8, held := [demoHeld], low := true } := by decide +kernel
  have h0 : (withCtl { Ctl.reset with held := [demoHeld] }).ctl 0 0 = { Ctl.reset with held := [demoHeld], low := true } := by decide +kernel
  constructor
  · simp only [State.mergeBlock, hp, h8]
    split
    · rfl
    · rename_i hn; exact absurd hn (store_chunks 2 _ [demoHeld]).1
  · simp only [State.mergeBlock, hp, h0, (store_chunks 2 _ [demoHeld]).2]

theorem witness_CompressionAndSpillEvents :
    ((withCtl Ctl.reset).ctl 0 0).held = [] ∧ ((withCtl { Ctl.reset with held := [demoHeld], stall := true }).ctl 0 0).held = [demoHeld] ∧
    ((withCtl { Ctl.reset with free := 8 }).tidy = true ∧ ((withCtl { Ctl.reset with free := 8 }).ctl ((withCtl { Ctl.reset with free := 8 }).ctlOf 0).1 0).low = true) ∧
    (({ Ctl.reset with free := 3, reserve := 2 } : Ctl).store 1 5).isSome = true ∧ (({ Ctl.reset with chunks := [(1, 5)], reserve := 2048 } : Ctl).store 1 1).isSome = true ∧
    (({ Ctl.reset with free := 5 } : Ctl).store 1 5).isSome = true ∧
    (State.reset.target (0 * 65536) = .hbm 0 ∧ State.reset.target (0x200000 * 65536) = .capacity 0) ∧
    (let s := withCtl { Ctl.reset with held := [demoHeld], stall := true }
     let late := s.setDie 0 { s.die 0 with rclk := 0xF4240 }
     (late.ctl 0 0).stall = true ∧ (late.ctl 0 0).since + ((late.die 0).reg 0x21B).toNat ≤ (late.die 0).rclk.toNat ∧ (late.ctl 0 0).held = [demoHeld] ∧
     late.team 1 = some late.me ∧ ({ late with me := Team.reset } : State).team 1 = none) ∧
    (0 < 2 ^ 64 ∧ ((State.reset.die 0).reg 0x21D).toNat ≤ 0) ∧
    (0 < (((State.reset.setDie 0 ((State.reset.die 0).setReg 0x21D 1)).die 0).reg 0x21D).toNat) ∧
    (let e := demoEntry (.redDet 2 0); (holding [e]).team 1 = some (holding [e]).me ∧ (holding [e]).me.activeEntry 0 = some e) := by decide +kernel

/-- A copy of the block's tag 3. -/
def demoJob : Job :=
  { id := 9, proc := 1, die := 0, core := 0, priv := false, pc := 0, block := 1, tag := 3, qid := 0, index := 0, stat := 0, form := 0, ssp := 1, dsp := 1, src := 0, dst := 960,
    len := 64, desc := [], misdesc := false, waits := [], refuse := false }

/-- The demonstration with a copy at work. -/
def working (j : Job) : State := { demo 3 with jobs := [j] }

/-- The copy is due. -/
def due (j : Job) : Bool :=
  decide ((working j).jobs.find? (fun x => decide (x.id = j.id)) = some j) && decide (j.waits = []) && !(working j).engHeld 0 j.id && decide (j.block ≠ 0) &&
  decide ((working j).block j.block = some demoBlock) && decide (demoBlock.run ≠ .away)

/-- A tile that has been evicted, its image at 0x20000, and a core whose 128 slots are taken. -/
theorem witness_EngineWorkCompletes_slots :
    (let e := demoEntry (.matrix 0x71 0 0 0 0)
     let b := { demoBlock with acc := [{ AccTile.zero with out := true }], accBase := 0x20000 }
     let s : State := { holding [e] with blocks := [b] }
     s.slotWaits 0 0 = [(s.launchOf b, 1, 0)] ∧ s.block 1 = some b ∧ s.me.entries.find? (fun y => decide (y.order = 0)) = some e ∧ (s.resident 0 0).length < 128 ∧
     (match s.readVirt 0 0 1 true 0x20000 32768 with | .ok _ => true | _ => false) = true) ∧
    (let e := demoEntry (.matrix 0x71 0 0 0 0)
     let b := { demoBlock with acc := AccTile.zero :: List.replicate 128 { AccTile.zero with slot := true } }
     let s : State := { holding [e] with blocks := [b] }
     s.slotWaits 0 0 = [(s.launchOf b, 1, 0)] ∧ b.acc[0]? = some AccTile.zero ∧ 128 ≤ (s.resident 0 0).length ∧ (s.victim 0 0 (s.launchOf b)).isSome = true) := by
  decide +kernel

theorem witness_EngineWorkCompletes_unstopped :
    (let e := demoEntry (.matrix 0x75 0 2 63 0)
     (holding [e]).pfsHolds 0 0 (BitVec.ofNat 4 (2 ^ (holding [e]).me.part)) = false) ∧ (demo 0).pfsHolds demoJob.die demoJob.core 0xF = false ∧
    ((demo 0).setCore 0 0 (((demo 0).core 0 0).setReg 0x119 1)).pfsHolds 0 0 0xF = true := by decide +kernel

theorem witness_EngineWorkCompletes :
    mayPerform [demoEntry (.copy 0 3 0)] 0 (demoEntry (.copy 0 3 0)) = true ∧
    (due { demoJob with len := 0 } = true ∧ due { demoJob with form := 1, misdesc := true } = true ∧ due { demoJob with form := 3, misdesc := true } = true) ∧
    (let j := { demoJob with form := 3, desc := List.replicate 64 (0 : Byte) }
     due j = true ∧ j.misdesc = false ∧ fieldAt j.desc 0x1C 4 = 0 ∧ fieldAt j.desc 0x18 4 ≤ 65536 ∧ ((j.desc.drop 0x28).take 0x18).all (fun x => decide (x = 0)) = true ∧
     fieldAt j.desc 0x10 4 = 0) ∧
    (due demoJob = true ∧ tabWf demoBlock.scratch.bytes = true ∧ demoJob.dst.toNat + demoJob.len ≤ demoBlock.scratch.size ∧
     demoJob.src.toNat + demoJob.len ≤ demoJob.dst.toNat ∧ demoBlock.scratch.poisoned 0 64 = false ∧ demoJob.tag < demoBlock.tags.length) ∧
    (let e := demoEntry (.twait 0 4 8)
     (holding [e]).team 1 = some (holding [e]).me ∧ (holding [e]).me.activeEntry 0 = some e ∧ (holding [e]).block 1 = some demoBlock ∧
     twaitAnswer demoBlock 0 8 = none ∧ twaitAnswer demoBlock 0 0 = some 0) ∧
    ((8 : Mask) &&& ~~~ fullMask demoBlock.tags.length = 0 ∧ demoBlock.tags.length ≤ 64 ∧ (∃ n, (8 : Mask).getLsbD n = true ∧ (demoBlock.tags.getD n CopyTag.reset).done = false)) ∧
    (let e := { demoEntry (.matrix 0x75 0 2 63 0) with addr := List.replicate 8 120 }
     let b := { demoBlock with acc := [{ AccTile.zero with busy := true, slot := true }] }
     let s : State := { holding [e] with blocks := [b] }
     s.team 1 = some s.me ∧ s.me.activeEntry 0 = some e ∧ s.me.entries.find? (fun y => decide (y.order = 0)) = some e ∧ e.waits = [] ∧ e.refused = 0 ∧ e.progress = 0 ∧
     s.block 1 = some b ∧ s.me.width ≤ 64 ∧ 63 + 0 % 64 + 1 ≤ 64 ∧ (e.addr.getD 0 0).toNat + s.me.width ≤ 128) ∧
    (let e := demoEntry (.matrix 0x71 0 0 0 0)
     (holding [e]).slotWaits 0 0 = [((holding [e]).launchOf demoBlock, 1, 0)] ∧ demoBlock.acc[0]? = some AccTile.zero ∧ AccTile.zero.out = false ∧
     ((holding [e]).resident 0 0).length < 128) := by
  refine ⟨by decide +kernel, by decide +kernel, by decide +kernel, by decide +kernel, by decide +kernel, ⟨by decide +kernel, by decide, 3, by decide, by decide⟩,
    by decide +kernel, by decide +kernel⟩

/-- A pass of 2 × 1 tiles with one binning grid, its arena and spill slots in the first 2 GiB of process 1. -/
def demoPass : Pass :=
  { lseq := 9, qid := 1, index := 0, proc := 1, cls := 3, fragK := Grid.none.kd, tileK := some Grid.none.kd, arena := 0x300000, arenaSize := 0x10000, spill := 0x400000,
    stride := 0x10000, tw := 2, th := 1, units := 6, depthPlane := 0, visPlane := 2, cull := 0, greater := false, d24 := false, samples4 := false, clear := 0x3F800000,
    blend := 0, tileArgs := 0, ngrid := 1, grids := [1], place := { mode := 0, die := 0, mask := 1, units := 2, dies := [] }, started := true, prims := [], used := [],
    flushing := false, final := false, segment := 0, tiles := [] }

/-- A tile of it at a stage. -/
def demoTile (k stage : Nat) : TileSt := { TileSt.fresh k with stage := stage, tmem := 4 }

/-- The demonstration under a pass, its grid launched so. -/
def passing (o : Origin) (p : Pass) (s : State) : State := { s with grids := [{ demoGrid with origin := o }], passes := [p] }

/-- A triangle that covers tile 0: the words of a BIN run after the first. -/
def triangle : List Word := [1, 0, 0, 0, 0x4000, 0, 0, 0, 0x4000, 0, 0, 0, 0]

/-- A BIN in the queue: lane 7 alone, with the words given. -/
def binEntry (ws : List Word) : Entry :=
  { demoEntry .bin with lmask := 0x80, emask := 0x80, addr := List.replicate 8 0, data := List.replicate 8 ws }

theorem witness_BinningAndTileQueries :
    (let s := passing (.binning 9 0) demoPass (demo 2)
     let r := sh 0 255 242 0
     s.myGrid.binning.isSome = true ∧ s.runs (formBin true r) r = true ∧ s.queueRoom r.fsel = true ∧
     (List.range 8).all (fun l => !s.runPois (formBin true r) r 1 14 l) = true ∧
     (let q := { ln 255 242 0 0 0 0 with g := 23 }; s.refusal 2 ((formBin true q).ok q) false false = none ∧ q.guardPois s.me s.grp = 0 ∧ s.lanes q = 0)) ∧
    (let s := passing (.fragment 9 1) { demoPass with tiles := [demoTile 1 3] } (demo 2)
     let r := ln 255 0 0 0 0 8
     s.tileqLegal (r.xf 0 4) = true ∧ s.runs (formTileq true r) r = true ∧ s.queueRoom r.fsel = true) ∧
    (let e := { binEntry triangle with lmask := 0 }
     let s := passing (.binning 9 0) demoPass (holding [e])
     s.ready 1 0 = some (s.me, e) ∧ s.binOf s.me = some (demoBlock, demoPass, 0)) ∧
    (let e := binEntry triangle
     let p := { demoPass with used := [(0, 0x2000 - 71)] }
     let s := passing (.binning 9 0) p (holding [e])
     s.ready 1 0 = some (s.me, e) ∧ s.binOf s.me = some (demoBlock, p, 0) ∧ e.lmask ≠ 0 ∧ s.binFull p 0 e (lowLane e.lmask) = true ∧ s.lceAccepts 0 = true) ∧
    (let p := { demoPass with flushing := true }
     let s := passing (.binning 9 0) p (holding [binEntry triangle])
     s.ready 1 0 = some (s.me, binEntry triangle) ∧ s.binOf s.me = some (demoBlock, p, 0) ∧ s.lceAccepts 0 = false ∧ ∃ q ∈ s.passes, q.flushing = true) ∧
    (let e := binEntry (List.replicate 13 0x7FC00000)
     let s := passing (.binning 9 0) demoPass (holding [e])
     (s.ready 1 0 = some (s.me, e) ∧ s.lceAccepts 0 = true) ∧ onlyLane e.lmask 7 ∧ e.emask = e.lmask ∧ 7 < s.me.width ∧ e.data.length = s.me.width ∧
     shapeOf (bits (e.addr.getD 7 0) 0 32 :: e.data.getD 7 []) = none) ∧
    (let e := binEntry triangle
     let s := passing (.binning 9 0) demoPass tabled
     (shapeOf (bits (e.addr.getD 7 0) 0 32 :: e.data.getD 7 [])).isSome = true ∧ (match s.binAccept demoTeam e demoBlock demoPass 0 7 with | .ok _ => true | _ => false) = true ∧
     (match s.binAccept demoTeam (binEntry (List.replicate 13 0)) demoBlock demoPass 0 7 with | .ok _ => true | _ => false) = true) ∧
    (let e := demoEntry (.tileq 8)
     let s := passing (.fragment 9 1) { demoPass with tiles := [demoTile 1 3] } (holding [e])
     s.ready 1 0 = some (s.me, e) ∧ s.block 1 = some demoBlock ∧ (s.tileOf demoBlock).isSome = true) := by
  refine ⟨by decide +kernel, by decide +kernel, by decide +kernel, by decide +kernel, ⟨by decide +kernel, by decide +kernel, by decide +kernel, _, .head _, rfl⟩,
    ⟨by decide +kernel, only_lane_seven, rfl, by decide, by decide, by decide +kernel⟩, by decide +kernel, by decide +kernel⟩

/-- A primitive that covers tile 0. -/
def demoPrim : Prim := { key := [0, 0, 0, 0, 0], run := 0 :: triangle, blend := false, die := 0, tiles := [0] }

/-- A fragment team of it. -/
def demoFragment : Frag := { prim := demoPrim, px := [(0, 1)], launched := false, retired := false, block := 0 }

set_option maxRecDepth 200000 in
theorem witness_TilesRenderedInSegments_admission :
    (let p := { demoPass with tiles := [{ demoTile 0 2 with frags := [demoFragment] }] }
     let s : State := { pooled with passes := [p] }
     let g := p.blockGrid s.nextId p.fragK 0 (.fragment 9 0)
     s.pass 9 = some p ∧ p.fragK.teams = 1 ∧ p.fragK.width ≤ 64 ∧ admits { s with grids := s.grids ++ [g] } g 0 0 0 4 = true) ∧
    (let p := { demoPass with tiles := [demoTile 0 2], final := true }
     let s : State := { pooled with passes := [p] }
     let g := p.blockGrid s.nextId Grid.none.kd 0 (.tileKernel 9 0)
     p.tileK = some Grid.none.kd ∧ (demoTile 0 2).fragsDone = true ∧ admits { s with grids := s.grids ++ [g] } g 0 0 0 4 = true) := by decide +kernel

/-- A raster unit runs where no partition of its core is stopped, and halts where one is; no mass start reserves. -/
theorem witness_TilesRenderedInSegments_halts :
    State.reset.rasterHalts 0 0 = false ∧ pooled.rasterHalts 0 0 = false ∧ tabled.rasterHalts 0 0 = false ∧ pooled.reserving 0 = false ∧
    (State.reset.setCore 0 0 { State.reset.core 0 0 with stopping := 1 }).rasterHalts 0 0 = true := by decide +kernel

theorem witness_TilesRenderedInSegments :
    (let s : State := { State.reset with passes := [demoPass] }; s.pass 9 = some demoPass ∧ demoPass.started = true ∧ demoPass.final = false ∧ s.shareFull demoPass = false) ∧
    (let p := { demoPass with used := [(0, 0x2000 - 71)] }
     let s := passing (.binning 9 0) p (holding [binEntry triangle])
     s.pass 9 = some p ∧ s.shareFull p = true) ∧
    (let p := { demoPass with flushing := true, prims := [demoPrim], tiles := [demoTile 0 5] }
     (∀ y ∈ p.tiles, p.list y.tile = [] ∨ y.stage = 5) ∧ ∃ y ∈ [demoTile 0 4], p.list y.tile ≠ [] ∧ y.stage ≠ 5) ∧
    ((∀ g ∈ demoPass.grids, State.reset.grid g = none) ∧ (∃ g ∈ demoPass.grids, ((demo 0).grid g).isSome = true)) ∧
    (let p := { demoPass with flushing := true, prims := [demoPrim], tiles := [demoTile 0 0], place := { demoPass.place with dies := [] } }
     let s : State := { State.reset with passes := [p] }
     s.pass 9 = some p ∧ s.setPass p = s ∧ p.toDeal 0 = [demoTile 0 0] ∧ (s.logical 0).find? (fun c => s.tileRoom 0 c p.units) = some 0 ∧
     s.banksHold 0 0 0 p.units 0 = false ∧
     (let u := s.setCore 0 0 ((s.core 0 0).setReg 0x108 2); (u.logical 0).find? (fun c => u.tileRoom 0 c p.units) = some 0 ∧ u.banksHold 0 0 0 p.units 0 = true) ∧
     (let n : State := { s with harvest := [(0, 0)] }; (n.logical 0).find? (fun c => n.tileRoom 0 c p.units) = none)) ∧
    (let p := { demoPass with tiles := [demoTile 0 1, demoTile 1 0] }
     let s : State := { State.reset with passes := [p] }
     s.pass 9 = some p ∧ p.tileAt 0 = some (demoTile 0 1) ∧ p.tileAt 1 = some (demoTile 1 0) ∧ (demoTile 0 1).segs = 0 ∧ p.list 0 = [] ∧ (demoTile 1 0).stage ≠ 1) ∧
    ((0x3F800000 : Word).toNat ≤ 0x3F800000) ∧
    (let y := { demoTile 0 2 with frags := [{ demoFragment with launched := true }, demoFragment] }
     y.frags[1]? = some demoFragment ∧ demoFragment.launched = false ∧ ∀ j, j < 1 → (y.frags.getD j demoFragment).launched = true) ∧
    (let b := Bank.zero 256
     let p := { demoPass with flushing := true, tiles := [demoTile 0 2] }
     let s : State := { tabled with passes := [p], tmems := [(4, b)] }
     s.pass 9 = some p ∧ p.tileAt 0 = some (demoTile 0 2) ∧ tabGet s.tmems 4 = some b ∧ (demoTile 0 2).fragsDone = true ∧
     (match s.writeVirt 0 0xFF 1 false (p.spill.toNat + 0 * p.stride) (spillBytes b) with | .ok _ => true | _ => false) = true) ∧
    (Bank.zero (8192 * 6)).size = 8192 * 6 ∧
    (let p := { demoPass with final := true, tiles := [demoTile 0 4, demoTile 1 6] }
     let s : State := { State.reset with passes := [p] }
     s.pass 9 = some p ∧ p.tileK.isSome = true ∧ s.block (demoTile 0 4).block = none ∧ (∀ z ∈ (p.putTile { demoTile 0 4 with stage := 6, tmem := 0 }).tiles, z.stage = 6) ∧
     ∃ z ∈ ({ p with tiles := [demoTile 0 4, demoTile 1 4] } : Pass).tiles, z.stage ≠ 6) := by decide +kernel

/-- A block that a core is moving away, its team saved or to be saved at 0x20000. -/
def moving (b : Block) (t : Team) : State :=
  { demo 0 with me := t, blocks := [b], cores := ((demo 0).setCore 0 0 { (demo 0).core 0 0 with moving := [b.id] }).cores }

/-- The demonstration's frame as the device keeps it. -/
def demoFrame : Frame := frameOf (demo 0).me { cause := 0, sub := 0, tpc := 0, thdr := 0, lanes := 0, info := 0, faddr := 0, next := false } 0 0

/-- Its team with room for its image and frame. -/
def savable : Team := { (demo 0).me with image := 0x2C000 }

/-- The mark of a stepped copy with tag 0 that has been issued at 0x10004. -/
def demoMark : StepMark := { pc := 0x10004, hdr := 0x10000, mask := 0xFF, entry := some 5, kid := none, tag := some 0 }

set_option maxRecDepth 200000 in
theorem witness_PreemptionStopsAndSteps :
    ((demo 0).blockIn 0 0 0 = some demoBlock ∧ demoBlock.run = .resident ∧ (demo 0).asked demoBlock = false ∧ (demo 0).unitOf demoBlock = [demoBlock] ∧ (State.reset.blockIn 0 0 0 = none) ∧
     (moving demoBlock savable).asked demoBlock = true) ∧
    (let b := { demoBlock with bsave := 0x28000 }
     let b' := { b with run := .saving }
     let s := moving b savable
     (s.blocksOn 0 0).find? (fun x => s.asked x && s.leaving x) = some b ∧ s.unitOf b = [b] ∧ s.massOf b.grid = none ∧ s.blocks = [b] ∧ (s.teamsOf 1).map (fun t => t.id) = [1] ∧
     (match (s.setBlock b').forTeams kindWrite (fun s t => s.saveTeam t) [1] with
      | .ok u => (match u.forTeams kindWrite (fun u t => u.writePieces t b.bsave.toNat (bsavePieces u b')) [1] with | .ok _ => true | _ => false)
      | _ => false) = true ∧ (s.core 0 0).moving = [1] ∧
     (let f := { savable with run := .frozen }
      (moving b f).asked b = true ∧ b.run ≠ .saving ∧ f ∈ (moving b f).teamsOf b.id)) ∧
    (let b := { demoBlock with run := .away, hold := .saved, bsave := 0x28000 }
     let t := { savable with run := .away, frame := some { demoFrame with nested := 0 } }
     let s := moving b t
     b.hold ≠ .held ∧ demoBlock.hold = .held ∧ s.block b.id = some b ∧ (s.grid b.grid).isSome = true ∧
     (match s.readOwn ((s.teamsOf b.id).headD Team.reset) b.bsave.toNat (bsaveSize demoGrid.kd) with | .ok _ => true | _ => false) = true ∧
     s.blockIn 0 0 0 = some b ∧ s.teamsOf 1 = [t] ∧ s.freeTags 0 0 b.tags.length = some 0 ∧ s.banksBack b = true ∧
     placeTeams 1 t.width ((List.range 4).map (s.partLoad 0 0)) = some [0] ∧
     (match s.unsave b with
      | .ok r => (match r.team 1 with
          | some o => decide (o.run = .away) && o.frame.isSome &&
              (match (r.setTeam { o with part := 0 }).resumeTeam { o with part := 0 } with | .ok _ => true | _ => false)
          | none => false)
      | _ => false) = true) ∧
    (let t := { savable with frame := some { demoFrame with inHandler := true } }
     let s : State := { demo 0 with me := t }
     let l := s.setDie 0 { s.die 0 with rclk := 0x1000000 }
     s.team 1 = some t ∧ ¬ (0 + 2 ^ bitsN ((s.core 0 0).reg 0x115) 0 5 ≤ (s.die 0).rclk.toNat) ∧ 0 + 2 ^ bitsN ((l.core 0 0).reg 0x115) 0 5 ≤ (l.die 0).rclk.toNat) ∧
    (let s : State := { demo 0 with cores := ((demo 0).setCore 0 0 (((demo 0).core 0 0).setReg 0x502 1)).cores }
     s.stepped s.me = true ∧ s.me.run = .running ∧ s.me.frame = none ∧ s.me.live ≠ 0 ∧ bit ((s.core 0 0).reg 0x502) 1 = false ∧ s.me.id = 1 ∧ (demo 0).stepped (demo 0).me = false) ∧
    (let s := State.reset.setCore 0 0 ((State.reset.core 0 0).setReg 0x119 1)
     (s.core 0 0).reg 0x119 = 1 ∧ ((s.core 0 0).reg 0x118).toNat ≤ (s.die 0).rclk.toNat ∧ (State.reset.core 0 0).reg 0x119 ≠ 1) ∧
    (let s : State := { demo 0 with me := { savable with run := .frozen }, cores := ((demo 0).setCore 0 0 { (demo 0).core 0 0 with stopping := 1 }).cores }
     (s.core 0 0).stopping ≠ 0 ∧ s.me.pend = none ∧ (match s.forTeams kindWrite (fun s t => s.saveTeam t) [1] with | .ok _ => true | _ => false) = true ∧ (State.reset.core 0 0).stopping = 0) ∧
    (let t := { savable with run := .frozen, frame := some { demoFrame with inHandler := true } }
     let s : State := { demo 0 with me := t, cores := ((demo 0).setCore 0 0 { (demo 0).core 0 0 with stopped := 1 }).cores }
     s.allTeams.filter (fun t => decide (t.die = 0 ∧ t.core = 0 ∧ t.run = .frozen) && ((1 : BitVec 4) &&& (s.core 0 0).stopped).getLsbD t.part) = [t] ∧ s.team 1 = some t) ∧
    (bit ((State.reset.core 0 0).reg 0x503) 2 = false ∧
     (let s := State.reset.setCore 0 0 ((State.reset.core 0 0).setReg 0x503 0x10004); bit ((s.core 0 0).reg 0x503) 2 = true ∧ bitsN ((s.core 0 0).reg 0x503) 16 24 = 1 ∧
      (match s.replayOne 0 0 0 0 with | .ok _ => true | .error _ => false) = true)) ∧
    (let s : State := { tabled with csr := [(0x580, 0x100000001), (0x581, 0x50000)] }
     bit (defGet 0 s.csr 0x580) 0 = true ∧ s.rerun.mode = 0 ∧ s.runningPacket 1 = false ∧
     (match s.rerunRanges 1, s.fwRead 0 1 0x50000 32 with
      | .ok _, .ok h => (match s.writeVirt 0 0xFF 1 true (fieldAt h 8 8) [] with
          | .ok u => (match u.writeVirt 0 0xFF 1 true 0x50000 (List.replicate 8 0) with | .ok _ => true | _ => false) | _ => false) | _, _ => false) = true) ∧
    (let s : State := { tabled with csr := [(0x580, 0x100000002), (0x581, 0x50000)], rerun := { mode := 2, count := 0 } }
     bit (defGet 0 s.csr 0x580) 1 = true ∧ bit (defGet 0 s.csr 0x580) 0 = false ∧ (match s.fwRead 0 1 0x50000 32 with | .ok h => decide (s.rerun.count = fieldAt h 0 8) | _ => false) = true) := by
  refine ⟨?_, ?_, ?_, ?_, ?_, ?_, ?_, ?_, ?_, ?_, ?_⟩ <;> decide +kernel

set_option maxRecDepth 200000 in
/-- The writes and reads that the clauses above rest on: the save area's tag and slot words, NESTED of a handler past its limit, a step that has
ended, and an image read back as a stop ends. -/
theorem witness_PreemptionStopsAndSteps_ends :
    (let s := (demo 0).setCore 0 0 (((demo 0).core 0 0).setReg 0x502 1)
     bit ((s.core 0 0).reg 0x502) 1 = false ∧ (∀ e ∈ s.me.entries, some e.order ≠ demoMark.entry) ∧ s.stepWaits s.me demoMark = false) ∧
    (let s := (demo 0).setCore 0 0 (((demo 0).core 0 0).setReg 0x502 3)
     bit ((s.core 0 0).reg 0x502) 1 = true ∧ s.me.entries = [] ∧ s.me.kids = [] ∧ demoMark.tag = some 0 ∧ (demoBlock.tags.getD 0 CopyTag.reset).busy = false ∧ s.block 1 = some demoBlock) ∧
    (let t := { savable with entries := [demoEntry (.cps (word4 .global) 0 0)] }
     ({ demo 0 with me := t } : State).banksBusy 1 = true ∧ (demo 0).banksBusy 1 = false) := by decide +kernel

theorem witness_PreemptionStopsAndSteps_writes :
    (let b := { demoBlock with run := .away, hold := .saved, bsave := 0x28000 }
     let t := { savable with run := .away, frame := some { demoFrame with nested := 0 } }
     let s := moving b t
     (match s.unsave b with
      | .ok r => (match r.team 1 with
          | some o => !o.agent && (match (r.setTeam { o with part := 0 }).resumeTeam { o with part := 0 } with
              | .ok u => (match (u.setBlock { (u.block b.id).getD b with run := .resident, tb := 0, hold := .held, away := 0 }).writePieces t b.bsave.toNat
                  [(0x10, leBytes 4 (0 + b.tags.length * 2 ^ 8 + b.slot * 2 ^ 16))] with | .ok _ => true | _ => false)
              | _ => false)
          | none => false)
      | _ => false) = true) ∧
    (let t := { savable with frame := some { demoFrame with inHandler := true } }
     let s : State := { demo 0 with me := t }
     let l := s.setDie 0 { s.die 0 with rclk := 0x1000000 }
     t.run = .running ∧ t.pend = none ∧
     (match (l.checkOut 1).writeVirt t.die t.core t.proc true (t.frameVa.toNat + 0x31) [255] with | .ok _ => true | _ => false) = true) ∧
    (let s : State := { demo 0 with cores := ((demo 0).setCore 0 0 (((demo 0).core 0 0).setReg 0x502 1)).cores, me := { (demo 0).me with stepAt := some demoMark } }
     s.team 1 = some s.me ∧ s.stepped s.me = true ∧ s.me.run = .running ∧ s.me.frame = none ∧ s.me.live ≠ 0 ∧ bit ((s.core 0 0).reg 0x502) 1 = false ∧ s.me.id = 1 ∧
     s.me.stepAt.isSome = true ∧ s.teams = []) ∧
    (let t := { savable with run := .frozen, frame := some { demoFrame with inHandler := true } }
     let s : State := { demo 0 with me := t, cores := ((demo 0).setCore 0 0 { (demo 0).core 0 0 with stopped := 1 }).cores }
     (match s.reload t .running with | .ok _ => true | _ => false) = true) ∧
    ((demo 0).allTeams.filter (fun t => decide (t.die = 0 ∧ t.core = 0 ∧ t.run = .frozen) && ((1 : BitVec 4) &&& ((demo 0).core 0 0).stopped).getLsbD t.part) = []) := by
  refine ⟨?_, ?_, ?_, ?_, ?_⟩ <;> decide +kernel

/-- A firmware image of one code page with every field in order and no signature: 128 bytes of header, 128 of code, 5357 of manifest. -/
def demoImage : List Byte :=
  leBytes 4 0x57465641 ++ leBytes 4 1 ++ leBytes 8 1 ++ leBytes 4 0x80 ++ leBytes 4 0x80 ++ leBytes 4 0x40 ++ leBytes 4 0x100 ++ List.replicate (0x60 + 0x80 + 5357) (0 : Byte)

/-- Every field of the image is in order, so that its keys and signatures alone decide: the model leaves their functions open, and whichever of the
checks of R391 is the first to fail, or none, is the answer. -/
theorem witness_BootServicesAndPowerDown_image :
    let t := trailerOf demoImage 256
    let bad := fun (k : Nat) => if k = 2 then sha384 (t.1 ++ t.2.1) ≠ Config.keyDigest else if k = 3 then edVerify t.1 (demoImage.take 256) t.2.2.1 = false
      else if k = 4 then mlVerify t.2.1 (demoImage.take 256) t.2.2.2 = false else fieldAt demoImage 8 8 < State.reset.floor.toNat
    ((bad 2 ∧ State.reset.checkImage demoImage = 2) ∨ (bad 3 ∧ ¬ bad 2 ∧ State.reset.checkImage demoImage = 3) ∨
      (bad 4 ∧ ¬ bad 2 ∧ ¬ bad 3 ∧ State.reset.checkImage demoImage = 4) ∨ ((∀ k, 2 ≤ k → k ≤ 5 → ¬ bad k) ∧ State.reset.checkImage demoImage = 0)) := by
  intro t bad
  have hl : demoImage.length = 5613 := by decide +kernel
  have f0 : fieldAt demoImage 0 4 = 0x57465641 := by decide +kernel
  have f4 : fieldAt demoImage 4 4 = 1 := by decide +kernel
  have f8 : fieldAt demoImage 8 8 = 1 := by decide +kernel
  have f10 : fieldAt demoImage 0x10 4 = 0x80 := by decide +kernel
  have f14 : fieldAt demoImage 0x14 4 = 0x80 := by decide +kernel
  have f18 : fieldAt demoImage 0x18 4 = 0x40 := by decide +kernel
  have f1c : fieldAt demoImage 0x1C 4 = 0x100 := by decide +kernel
  have fz : zeroFrom demoImage 0x20 0x80 = true := by decide +kernel
  have hf : State.reset.floor.toNat = 0 := by decide +kernel
  have hb5 : ¬ bad 5 := by simp [bad, f8, hf]
  have e : State.reset.checkImage demoImage = if bad 2 then 2 else if bad 3 then 3 else if bad 4 then 4 else 0 := by
    simp [State.checkImage, hl, f0, f4, f8, f10, f14, f18, f1c, fz, hf, bad, t]
  rw [e]
  by_cases h2 : bad 2
  · exact .inl ⟨h2, if_pos h2⟩
  · by_cases h3 : bad 3
    · exact .inr (.inl ⟨h3, h2, by rw [if_neg h2, if_pos h3]⟩)
    · by_cases h4 : bad 4
      · exact .inr (.inr (.inl ⟨h4, h2, h3, by rw [if_neg h2, if_neg h3, if_pos h4]⟩))
      · refine .inr (.inr (.inr ⟨fun k h k5 => ?_, by rw [if_neg h2, if_neg h3, if_neg h4]⟩))
        obtain rfl | rfl | rfl | rfl : k = 2 ∨ k = 3 ∨ k = 4 ∨ k = 5 := by omega
        · exact h2
        · exact h3
        · exact h4
        · exact hb5

/-- The service ring at 0x60000 with one entry given. -/
def serving (e : List Byte) : State :=
  { (State.reset.setDie 0 (((State.reset.die 0).setReg 0x201 0x60000).setReg 0x202 1)).homeWrite 0x60000 e with bootState := 3 }

/-- The ring's entry stands next. -/
def served (e : List Byte) : Bool := match (serving e).nextService with | some (a, b) => decide (a = 0x60000) && decide (b = (e ++ List.replicate 64 0).take 64) | none => false

/-- A queue control block at 0x61000: ring at 0x62000 of 16 packets, home die 0, process 1, QID given. -/
def qcbBytes (qid : Nat) : List Byte := leBytes 8 0 ++ leBytes 8 0x62000 ++ leBytes 8 (2 ^ 32 + 4) ++ leBytes 8 qid

theorem witness_BootServicesAndPowerDown :
    (Memory.wf State.reset.mem = true ∧ State.reset.hasDie 0 = true ∧ State.reset.memFails = false ∧ ({ State.reset with memFails := true } : State).memFails = true ∧
      ({ State.reset with present := 2 } : State).hasDie 0 = false) ∧ ({ State.reset with bootState := 4 } : State).bootState = 4 ∧
    (let s : State := { State.reset with bootState := 2, bootSrc := 64 }; s.bootState = 2 ∧ s.bootSrc.toNat % 128 ≠ 0) ∧
    (let s : State := { State.reset with bootState := 2, bootSrc := 0x3FFFFFFFFFF80, bootLen := 128 }; s.bootSrc.toNat % 128 = 0 ∧ 2 ^ 50 ≤ s.bootSrc.toNat + s.bootLen.toNat) ∧
    (let s : State := { State.reset with bootState := 2, bootSrc := 0, bootLen := 128 }
     let m := s.bytesAt .home (0x8000000000000 + s.bootSrc.toNat) s.bootLen.toNat
     s.bootSrc.toNat + s.bootLen.toNat < 2 ^ 50 ∧ (s.homeWrite 0 m).checkImage m ≠ 0) ∧
    State.reset.nextService = none ∧ State.reset.enabled 7 35 = true ∧
    (served [6] = true ∧ fieldAt ([6] ++ List.replicate 63 (0 : Byte)) 0 1 = 6) ∧ (served [1, 1] = true ∧ zeroFrom ([1, 1] ++ List.replicate 62 (0 : Byte)) 1 8 = false) ∧
    (served ([1, 0, 0, 0, 0, 0, 0, 0] ++ leBytes 8 0x61000) = true ∧ (((serving [1]).homeWrite 0x61000 (qcbBytes 4095)).createQueue 0x61000 0).2 = 1 ∧
      0x61001 % 256 ≠ 0 ∧ State.reset.firmwareReach (2 ^ 52) 256 = false ∧ (4095 : Nat) < 4096) ∧
    (let b := leBytes 8 0x10000 ++ leBytes 8 (2 ^ 48 + 0x10000) ++ List.replicate 48 (0 : Byte)
     served (3 :: List.replicate 7 0) = true ∧ (parseFmt b).isSome = true ∧ 31 < 32 ∧ (match parseFmt b with | some r => r.en | none => false) = true ∧ (serving [3]).firmwareReach 0 64 = true ∧
     parseFmt (List.replicate 16 1) = none) ∧
    (served (2 :: List.replicate 7 0) = true ∧ (serving [2]).queue 0 = none) ∧
    (served (4 :: List.replicate 7 0) = true ∧ (State.reset.homeWrite 0x4000000 []).checkImage [] ≠ 0 ∧ (serving [4]).firmwareReach 0x100000 (max 1 5613) = true ∧
     (serving [4]).firmwareReach (2 ^ 52) (max 1 0) = false ∧ (serving [4]).fwSel.toNat / 2 < fieldAt demoImage 8 8) ∧
    (served (5 :: List.replicate 7 0) = true ∧ (0 / 2 ≤ State.reset.floor.toNat) ∧ (State.reset.floor.toNat < 2 / 2) ∧ State.reset.fuses.length < 16) := by
  refine ⟨?_, ?_, ?_, ?_, ?_, ?_, ?_, ?_, ?_, ?_, ?_, ?_, ?_, ?_⟩ <;> decide +kernel

/-- A queue of process 1 on die 0, its ring at 0x62000. -/
def demoQueue : Queue :=
  { qid := 7, qcb := 0x61000, ring := 0x62000, proc := 1, vec := 0, home := 0, log2 := 4, wi := 0, claim := 0, read := 0, doneIx := 0, state := 0, err := 0, errIx := 0,
    lseqLast := 0, seq := 0, pend := false, resetting := false, staged := [] }

/-- A packet of 64 bytes. -/
def pkt (index : Nat) (bs : List Byte) : Packet :=
  { index := index, bytes := (bs ++ List.replicate 64 0).take 64, started := false, done := false, plan := [], pass := 0, job := 0, mass := 0, stage := 0, clock := 0, order := 0 }

/-- A device that runs, with one partition of die 0 for processes 1 to 9 and the queue given. -/
def running (q : Queue) : State := { tabled with bootState := 3, parts := [(0, 0x8000000900010001)], queues := [q] }

/-- A NOP, a SIGNAL, a WAIT and a MARKER, at signal 0x63000. -/
def nopPkt : Packet := pkt 0 [0]
def signalPkt : Packet := pkt 0 ([5] ++ List.replicate 23 0 ++ leBytes 8 0x63000 ++ leBytes 8 3 ++ leBytes 8 1)
def waitPkt : Packet := pkt 0 ([6] ++ List.replicate 23 0 ++ leBytes 8 0x63000 ++ leBytes 8 0 ++ leBytes 8 0)
def markPkt : Packet := pkt 0 ([8] ++ List.replicate 23 0 ++ leBytes 8 0x63000)

/-- A packet stands at the head of its queue and may start. -/
def startable (p : Packet) : Bool :=
  let q := { demoQueue with staged := [p], claim := 1, wi := 1 }
  decide ((running q).queue 7 = some q) && decide (q.head = some p) && !(running q).serial 1 &&
  (match (running q).canStart q p with | .ok b => b | _ => false) && (match (running q).beginWork q p with | .ok _ _ => true | _ => false) && (running q).dieActs 0 && decide ((running q).rerun.mode ≠ 1)

/-- A mass start that has begun, at a stage, with its start count. -/
def massPkt (stage start : Nat) : Packet :=
  { pkt 0 [2] with started := true, stage := stage, mass := start, plan := [({ demoGrid with lseq := 2 }, { mode := 0, die := 0, mask := 1, units := 1, dies := [] })] }

/-- A device with such a packet. -/
def massing (stage start : Nat) : State := running { demoQueue with staged := [massPkt stage start], claim := 1, wi := 1 }

set_option maxRecDepth 200000 in
theorem witness_QueuesServedInOrder_gang :
    let h := { demoGrid with lseq := 2, left := 1, start := 4096 }
    (match ({ pooled with grids := [demoGrid, h] } : State).admitGang h { mode := 0, die := 0, mask := 1, units := 1, dies := [] } h.units 0 [] with | .ok _ => true | _ => false) = true ∧
    demoGrid.units * demoGrid.kd.cluster = 1 := by decide +kernel

/-- The agent's loop on die 0 core 0 (R384): not up; serving a queue; its ticket before its arrival, at one of a queue that is free, of one that is held
and of none; about to draw; disabled. -/
theorem witness_QueuesServedInOrder_claims :
    let q := { demoQueue with wi := 1 }
    let s := running { q with pend := true }
    let base := ((s.die 0).reg 0x200).toNat
    let with_ := fun (u : State) (k : Core) => u.setCore 0 0 k
    let arrived := (s.homePut (base + 0x80 + 8) 8 7).homePut (base + 0x80) 8 1
    let held := arrived.setCore 0 1 { arrived.core 0 1 with serving := some 7 }
    let gone := (s.homePut (base + 0x80 + 8) 8 9).homePut (base + 0x80) 8 1
    (s.bootState = 3 ∧ s.enabled 0 0 = true ∧ s.agentActs 0 0 = true ∧ State.reset.bootState ≠ 3) ∧ (with_ s { s.core 0 0 with serving := some 7 }).queue 7 = some { q with pend := true } ∧
    s.tidy = true ∧ (s.core 0 0).serving = none ∧ (s.core 0 0).ticket = none ∧ (s.core 0 0).dead = false ∧ s.homeNum (base + 0x80) 8 ≠ 0 + 1 ∧
    (arrived.homeNum (base + 0x80) 8 = 0 + 1 ∧ arrived.homeNum (base + 0x80 + 8) 8 = 7 ∧ arrived.queue 7 = some { q with pend := true } ∧
      ((arrived.setQueue q).putQst q).owner q = 0 ∧ ((held.setQueue q).putQst q).owner q = 2) ∧
    (gone.homeNum (base + 0x80) 8 = 0 + 1 ∧ gone.homeNum (base + 0x80 + 8) 8 = 9 ∧ gone.queue 9 = none) ∧
    (({ s.core 0 1 with dead := true } : Core).dead = true ∧ (s.setCore 0 1 { s.core 0 1 with dead := true }).agentActs 0 1 = true) := by
  refine ⟨?_, ?_, ?_, ?_, ?_, ?_, ?_, ?_, ?_, ?_⟩ <;> decide +kernel

/-- A partial sum of process 1 that grid 5, ended, holds a share of. -/
def demoRed : RedAcc :=
  { proc := 1, pa := 0x20000, ty := 2, va := 0x20000, cmp := false, sum := 0, nan := false, pinf := false, ninf := false, count := 1, grids := [5], spilled := false }

/-- A claim that takes its packet, one that waits, an agent of the old image, and a share of ended work (R379, R385, R392). -/
theorem witness_QueuesServedInOrder_serves :
    (let q := { demoQueue with wi := 1 }
     let s := running q
     s.queue 7 = some q ∧ q.state = 0 ∧ q.resetting = false ∧ q.wi = q.claim + 1 ∧
     (match s.claimOne q with | some u => (match u.queue 7 with | some x => decide (x.claim = x.wi) | none => false) | none => false) = true) ∧
    (let q := { demoQueue with wi := 1, ring := 0x80000000 }
     let s := running q
     s.queue 7 = some q ∧
     (match s.claimOne q with
      | some u => (match u.queue 7 with | some x => decide (x.claim = q.claim ∧ x.state = 0 ∧ x.wi = q.wi) && !x.resetting | none => false) | none => false) = true) ∧
    ((running demoQueue).queue 9 = none ∧ demoQueue.wi ≤ demoQueue.claim ∧ (running demoQueue).tidy = true ∧ ({ running demoQueue with fwSel := 2 } : State).fwSel ≠ ((running demoQueue).core 0 0).image) ∧
    ((running demoQueue).endedShare 1 = false ∧
     ({ running demoQueue with reds := [demoRed] } : State).endedShare 1 = true) ∧
    (let p := massPkt 4 0
     (massing 4 0).massAt 7 0 1 = none ∧ (massing 4 0).massAt 7 0 4 = some ({ demoQueue with staged := [p], claim := 1, wi := 1 }, p) ∧ (massing 4 0).blocks = [] ∧
     (∀ g ∈ p.plan, g.1.lseq = 2) ∧ (∃ b ∈ ([{ demoBlock with grid := 2, run := .away }] : List Block), b.grid = 2 ∧ b.run ≠ .resident)) ∧
    (∀ g ∈ (massPkt 0 0).plan, g.1.isEmpty = false) ∧ ({ demoGrid with gx := 0 } : Grid).isEmpty = true := by
  refine ⟨?_, ?_, ?_, ?_, ?_, ?_, ?_⟩ <;> decide +kernel

theorem witness_QueuesServedInOrder :
    ((State.reset.bootState ≠ 3) ∧ (running demoQueue).queue 8 = none) ∧
    ((running demoQueue).bootState = 3 ∧ (running demoQueue).queue 7 = some demoQueue ∧ (2 ^ 63 - 1 < 2 ^ 63) ∧ demoQueue.state ≠ 2 ∧ demoQueue.state ≠ 3 ∧ demoQueue.wi ≤ 16 ∧
     16 ≤ demoQueue.read + 2 ^ demoQueue.log2 ∧ demoQueue.read + 2 ^ demoQueue.log2 < 17 ∧ (running { demoQueue with state := 2 }).queue 7 = some { demoQueue with state := 2 } ∧
     (running { demoQueue with state := 1 }).queue 7 = some { demoQueue with state := 1 } ∧
     (running { demoQueue with resetting := true }).queue 7 = some { demoQueue with resetting := true }) ∧
    ((running demoQueue).tidy = true ∧ demoQueue.pend = false) ∧ [nopPkt, signalPkt, waitPkt, markPkt].all startable = true ∧ demoQueue.head = none ∧
    (let q := { demoQueue with pend := true, wi := 1 }
     let s := running q
     let base := ((s.die 0).reg 0x200).toNat
     let u := (s.homePut (base + 0x80 + 8) 8 7).setDie 0 { s.die 0 with arrivals := 1 }
     u.bootState = 3 ∧ u.homeNum base 8 < (u.die 0).arrivals ∧ (u.homePut base 8 1).homeNum (base + 0x80 + 16 * (u.homeNum base 8 % 4096) + 8) 8 = 7 ∧
     (u.homePut base 8 1).queue 7 = some q ∧ (s.die 0).arrivals ≤ s.homeNum base 8) ∧
    (let s := running { demoQueue with wi := 1 }
     (match s.fwRead 0 1 (0x62000 + 64 * (0 % 2 ^ 4)) 64 with
      | .ok bs => (match s.checkPacket demoQueue { nopPkt with bytes := bs } with | .ok (gs, o) => decide (gs = []) && o.isNone | _ => false) &&
          (match s.checkPacket { demoQueue with home := 1 } { nopPkt with bytes := bs } with | .err n => decide (n = 4) | _ => false)
      | _ => false) = true) ∧
    (nopPkt.type = 0 ∧ signalPkt.type = 5 ∧ (match (running demoQueue).signal demoQueue (signalPkt.q 0x18) with | .ok v => decide (v = 0) | _ => false) = true ∧
     (match (running demoQueue).putSignal demoQueue (signalPkt.q 0x18) 3 with | .ok _ => true | _ => false) = true ∧ markPkt.type = 8 ∧
     (pkt 0 [4]).type = 4 ∧ bitsN ((pkt 0 [4]).q 0x18) 0 2 = 0 ∧ (massPkt 1 0).type = 2 ∧ (pkt 0 [1]).type = 1 ∧ demoGrid.isEmpty = false ∧
     (pkt 1 [0, 1]).flag 8 = true ∧ ({ demoQueue with staged := [nopPkt], claim := 1 } : Queue).doneBelow 1 = false ∧ nopPkt.flag 8 = false ∧ nopPkt.q 8 = 0 ∧
     (pkt 0 (List.replicate 8 0 ++ [8])).q 8 ≠ 0 ∧ waitPkt.type = 6 ∧ waitPkt.q 8 = 0) ∧
    ((massing 1 0).massAt 7 0 1 = some ({ demoQueue with staged := [massPkt 1 0], claim := 1, wi := 1 }, massPkt 1 0) ∧ (massing 1 0).massBefore 2 = false ∧
     ((massing 1 0).die 0).rclk.toNat + 1024 ≤ 4096 ∧ (massing 1 1023).massAt 7 0 1 = some ({ demoQueue with staged := [massPkt 1 1023], claim := 1, wi := 1 }, massPkt 1 1023) ∧
     1023 < ((massing 1 0).die 0).rclk.toNat + 1024 ∧ (massing 1 0).massBefore 3 = true) ∧
    ((massing 2 0).massAt 7 0 2 = some ({ demoQueue with staged := [massPkt 2 0], claim := 1, wi := 1 }, massPkt 2 0) ∧ 0 ≤ ((massing 2 0).die 0).rclk.toNat ∧
     (massing 2 1).massAt 7 0 2 = some ({ demoQueue with staged := [massPkt 2 1], claim := 1, wi := 1 }, massPkt 2 1) ∧ ((massing 2 0).die 0).rclk.toNat < 1) ∧
    (let p := { nopPkt with started := true }
     let q := { demoQueue with staged := [p], claim := 1, wi := 1 }
     (running q).queue 7 = some q ∧ q.staged.find? (fun k => decide (k.index = 0)) = some p ∧ (running q).workEnded q p = true ∧ (running q).rerun.mode = 0 ∧ p.q 16 = 0 ∧
     (running { q with staged := [nopPkt] }).workEnded { q with staged := [nopPkt] } nopPkt = false) := by
  refine ⟨?_, ?_, ?_, ?_, ?_, ?_, ?_, ?_, ?_, ?_, ?_⟩ <;> decide +kernel

/-- Rerun of one logged NOP of queue 7 (R431): the area at 0x50000 gives one packet and the log at 0x50100. -/
theorem witness_rerunStartsALoggedPacket :
    let r := (running demoQueue).homeWrite 0x50000 (wordsBytes [1, 0x51000, 0x50100, 4])
    let s : State := { r.homeWrite 0x50140 (wordsBytes [7, 0]) with csr := [(0x580, 0x100000002), (0x581, 0x50000)], rerun := { mode := 2, count := 0 } }
    s.runningPacket 1 = false ∧ s.queue 7 = some demoQueue ∧ (match s.rerunRanges 1 with | .ok rs => decide (rs = []) | _ => false) = true ∧
    (match s.fwRead 0 1 0x50000 32, s.fwRead 0 1 0x50100 80 with
     | .ok h, .ok b => decide (fieldAt h 0 8 = 1 ∧ fieldAt b 64 8 = 7) &&
         (match s.checkPacket demoQueue (.fresh 0 (b.take 64)) with | .ok (gs, ps) => gs.isEmpty && ps.isNone | _ => false)
     | _, _ => false) = true ∧
    s.rerunHolds demoQueue nopPkt = true ∧ (running demoQueue).rerunHolds demoQueue nopPkt = false := by
  refine ⟨?_, ?_, ?_, ?_, ?_, ?_⟩ <;> decide +kernel

theorem witness_ErrorsPowerAndWatchdog_header :
    (let s : State := { demo 0 with me := savable }
     s.team 1 = some savable ∧ savable.agent = false ∧ savable.run ≠ .away ∧ savable.pend = none ∧ savable.frame = none ∧
     (match s.writePieces savable savable.frameVa.toNat (framePieces savable Trap.header 8) with | .ok _ => true | _ => false) = true) ∧
    (let t := { savable with frame := some { demoFrame with inHandler := true } }
     let s : State := { demo 0 with me := t }
     s.team 1 = some t ∧ t.frame.isSome = true ∧ (match s.writeVirt 0 0 1 true (t.frameVa.toNat + 0x31) [8] with | .ok _ => true | _ => false) = true) ∧
    ((∀ q ∈ State.reset.queues, q.home = 0 → q.staged = [] ∧ (q.state = 0 → q.wi ≤ q.claim)) ∧ demoQueue.busy = false ∧
     ({ demoQueue with state := 0, wi := 5, claim := 4 } : Queue).busy = true) := by decide +kernel

theorem witness_ErrorsPowerAndWatchdog :
    (let s : State := { State.reset with bootState := 3 }
     let l := s.setDie 0 { s.die 0 with rclk := 0x100001 }
     let l : State := { l with teams := [{ Team.reset with id := 3, agent := true }] }
     l.bootState = 3 ∧ l.enabled 0 0 = true ∧ (∃ t ∈ l.allTeams, t.agent = true ∧ t.die = 0 ∧ t.core = 0) ∧ (l.core 0 0).dead = false ∧ (l.core 0 0).lastKick + 2 ^ bitsN ((l.core 0 0).reg 0x10A) 0 5 < (l.die 0).rclk.toNat ∧
     ¬ ((s.core 0 0).lastKick + 2 ^ bitsN ((s.core 0 0).reg 0x10A) 0 5 < (s.die 0).rclk.toNat) ∧ ([] : List Nat).length < 3) ∧
    (State.reset.splNext = [] ∧ State.reset.barReg 0x2000 = .dieCsr 0 0x400 ∧ (let s : State := { State.reset with splNext := [(0x8000000A, 0), (0, 1)] }
     s.splNext = [] ++ ((0x8000000A : Word), 0) :: [((0 : Word), 1)] ∧ 0 ≤ (s.die 0).rclk.toNat ∧ ∀ y ∈ [((0 : Word), 1)], (s.die 0).rclk.toNat < y.2)) ∧
    (let s : State := { State.reset with csr := [(0x400, 0x8000000A)] }
     10 ≤ bitsN (s.splAt 1024) 0 5 ∧ 1024 ∈ s.ticksDue 1024 1025 ∧ 1024 ∉ s.ticksDue 1023 1024) ∧
    (let s := State.reset.setDie 0 { ((State.reset.die 0).setReg 0x248 0x70000).setReg 0x249 1 with latched := [(1024, 10, 5, [])] }
     let z := State.reset.setDie 0 { State.reset.die 0 with latched := [(1024, 10, 5, [])] }
     s.tidy = true ∧ (s.die 0).latched = (1024, 10, 5, []) :: [] ∧ (s.neighbours 0).length ≤ 2 ∧ s.enabled 0 35 = true ∧
     ¬ (((s.die 0).reg 0x249).toNat ≤ ringFill ((s.die 0).reg 0x24A) ((s.die 0).reg 0x24B) ∨ (s.die 0).reg 0x248 = 0) ∧ z.tidy = true ∧ (z.die 0).reg 0x248 = 0 ∧
     (State.reset.die 0).latched = []) ∧
    ((demo 0).team 1 = some (demo 0).me ∧ (demo 0).block 1 = some demoBlock ∧ (demo 0).me.agent = false ∧ demoBlock.fifos[1]? = some [] ∧ demoBlock.acc[0]? = some AccTile.zero ∧
     tabWf AccTile.zero.elems = true ∧ (let a := { Team.reset with id := 3, agent := true }; ({ State.reset with teams := [a] } : State).team 3 = some a)) ∧
    (let x := ((State.reset.die 0).setReg 0x240 0x70000).setReg 0x241 6
     (1 ≠ 0) ∧ ringOk (x.reg 0x240) (x.reg 0x241) = true ∧ ringFill (x.reg 0x242) (x.reg 0x243) < 2 ^ bitsN (x.reg 0x241) 0 5 ∧
     ringOk ((State.reset.die 0).reg 0x240) ((State.reset.die 0).reg 0x241) = false) ∧
    (joined 0 5 = false ∧ joined 3 7 = true ∧ ({ State.reset with down := [(3, 7)] } : State).connected = true ∧ ({ State.reset with present := 3, down := [(0, 1)] } : State).connected = false ∧
     1 ∉ ({ State.reset with present := 3, down := [(0, 1)] } : State).reach 8 [0]) ∧
    (let s : State := { State.reset with csr := [(0x408, 500)] }
     exitLatency 1 ≤ (defGet 0 s.csr 0x408).toNat ∧ s.coreIdle 0 35 = true ∧ ¬ (exitLatency 1 ≤ (defGet 0 State.reset.csr 0x408).toNat) ∧ (demo 0).coreIdle 0 0 = false) ∧
    (let s : State := { State.reset.setCore 0 0 { State.reset.core 0 0 with power := 1 } with harvest := [(0, 1)], csr := [(0x408, 20)] }
     exitLatency 2 ≤ (defGet 0 s.csr 0x408).toNat ∧ (∀ k ∈ s.logical 0, 1 ≤ (s.core 0 k).power ∧ (s.core 0 k).queue = []) ∧ s.queues = [] ∧ s.passes = []) ∧
    (let s : State := { State.reset with present := 1, csr := [(0x408, 500)], dies := (State.reset.setDie 0 { State.reset.die 0 with power := 2 }).dies }
     exitLatency 3 ≤ (defGet 0 s.csr 0x408).toNat ∧ (∀ k ∈ diesIn s.present, 2 ≤ (s.die k).power ∧ (s.die k).reg 0x214 = (s.die k).reg 0x215 ∧ (s.die k).reg 0x242 = (s.die k).reg 0x243)) ∧
    (let s := State.reset.setDie 0 { State.reset.die 0 with rclk := 100000 }
     (s.die 0).lastUpdate + 100000 ≤ (s.die 0).rclk.toNat ∧ (State.reset.die 0).rclk.toNat < (State.reset.die 0).lastUpdate + 100000) ∧
    (State.reset.tidy = true ∧ ([0] : List Nat).sum ≤ (defGet 0 State.reset.csr 0x409).toNat ∧ (defGet 0 State.reset.csr 0x409).toNat < ([2801] : List Nat).sum) ∧ State.reset.connected = true := by
  refine ⟨?_, ?_, ?_, ?_, ?_, ?_, ?_, ?_, ?_, ?_⟩ <;> decide +kernel

theorem witness_HostAccessesAndNothingRefused :
    (State.reset.target 0 ≠ .none ∧ State.reset.isWindow 0 = false ∧ Memory.wf State.reset.mem = true) ∧
    (∃ pa, State.reset.target pa = .bar0 0) ∧ (∃ pa, (running demoQueue).target pa = .doorbell 56 ∧ (running demoQueue).queue (56 / 8) = some demoQueue) ∧
    (({ State.reset with relayUp := 0x8000 } : State).relayUp.getLsbD 15 = true ∧ State.reset.relayUp.getLsbD 15 = false ∧ (15 : Nat) < 16) ∧
    (State.reset.barReg 1 = .none ∧ 1 % 8 ≠ 0 ∧ State.reset.barReg (7 * 0x100000 + 8 * 0x200) = .dieCsr 7 0x200 ∧
     State.reset.barReg (7 * 0x100000 + 0x80000 + 35 * 0x1000 + 8 * (0x10A - 0x100)) = .coreCsr 7 35 0x10A ∧ State.reset.hasDie 7 = true ∧ State.reset.enabled 7 35 = true ∧
     (wideCsr 0x200 = true ∨ narrowCsr 0x200 = true) ∧ (wideCsr 0x10A = true ∨ narrowCsr 0x10A = true)) ∧
    (State.reset.host4 = true ∧ State.reset.hasDie 4 = true ∧ (0x800100 : Nat) ≤ 0x800118 ∧ (0x8000F8 : Nat) < 2 ^ 24 ∧ ((0x8000F8 : Nat) < 0x800100 ∨ 0x800118 < 0x8000F8) ∧
     (5 : Nat) ≠ 0 ∧ ¬ ((5 : Nat) = 4 ∧ State.reset.host4 = true ∧ State.reset.hasDie 4 = true)) ∧
    (let s := State.reset
     let w : DWord := 0x8000000900010001
     ¬ (bit (s.part 7) 63 = true) ∧ bit w 63 = true ∧ ¬ (bitsN w 16 16 = 0 ∨ bitsN w 32 16 < bitsN w 16 16 ∨ bits w 0 8 = 0 ∨ bits w 0 8 &&& ~~~ s.present ≠ 0) ∧
     bit ((running demoQueue).part 0) 63 = true ∧ (∃ q ∈ (running demoQueue).queues, bitsN ((running demoQueue).part 0) 16 16 ≤ q.proc ∧ q.proc ≤ bitsN ((running demoQueue).part 0) 32 16 ∧ (q.state = 0 ∨ q.state = 1))) ∧
    State.reset.target (2 ^ 52) = .none := by
  refine ⟨by decide +kernel, ⟨0xD000000000000, by decide +kernel⟩, ⟨0xD000001000038, by decide +kernel⟩, by decide +kernel, by decide +kernel, by decide +kernel, by decide +kernel, by decide +kernel⟩

/-! ## Hypotheses met: the other clauses -/

/-- The traps of control, mask, lane and index instructions: a poisoned scalar, target, pair, predicate or source; a misaligned and a far target. -/
theorem witness_ControlTraps :
    (let s := poisonS (demo 0) 23
     s.refusal 7 (decide ((23 : BitVec 5).toNat < 24) && decide ((5 : BitVec 3).toNat < 6)) false false = none ∧
     s.refusal 7 (decide ((0 : BitVec 16) = 0) && decide ((23 : BitVec 5).toNat < 24) && decide ((5 : BitVec 3).toNat < 6)) false false = none ∧
     s.me.scalarsBusy [23] = false ∧ (s.me.sreg 23).pois = true) ∧
    (let r := sh 0 0 254 0
     let dest := fun (s : State) (l : Nat) => (s.opndAt (formJump r) r 1 1 l).val ++ (s.opndAt (formJump r) r 1 0 l).val
     let bad := fun (s : State) => maskOf s.me.width (fun l => (s.lanes r).getLsbD l && ((s.opndAt (formJump r) r 1 0 l).pois || (s.opndAt (formJump r) r 1 1 l).pois))
     let mis := fun (s : State) => maskOf s.me.width (fun l => (s.lanes r).getLsbD l && decide ((dest s l).toNat % 8 ≠ 0))
     let far := fun (s : State) => maskOf s.me.width (fun l => (s.lanes r).getLsbD l && decide (2 ^ 57 ≤ (dest s l).toNat))
     let p := poisonV (demo 1) 254
     let m := withV (demo 1) 254 [4]
     let f := withV (withV (demo 1) 254 [0]) 255 [0x02000000]
     (p.runs (formJump r) r = true ∧ bad p = 0x80) ∧ (m.runs (formJump r) r = true ∧ bad m = 0 ∧ mis m = 0xFF) ∧
     (f.runs (formJump r) r = true ∧ bad f = 0 ∧ mis f = 0 ∧ far f = 0xFF)) ∧
    (let r := ln 11 22 0 0 0 1
     let s := poisonS (demo 0) 23
     s.runs (formMset r) r = true ∧ s.me.scalarsBusy [r.a, r.a + 1] = false ∧ ((s.me.sreg r.a).pois || (s.me.sreg (r.a + 1)).pois) = true) ∧
    (let r := ln 11 23 0 0 0 3
     let s := poisonP (at_ (formCensus r)) 23 0x80
     r.xf 0 3 = 3 ∧ s.runs (formCensus r) r = true ∧ (List.range s.me.width).any (fun l => (s.lanes r).getLsbD l && s.me.predPois r.a l) = true) ∧
    ([formXset, formXadd].all (fun form =>
      let r := sh 0 7 255 0
      let s := poisonV (at_ (form r)) 255
      s.runs (form r) r && !(r.xb 3 || (List.range s.me.width).all (fun l => !(s.lanes r).getLsbD l || !(s.opnd (form r) r 1 l).pois)))) = true := by
  refine ⟨?_, ?_, ?_, ?_, ?_⟩ <;> decide +kernel

/-- The values of the float functions: each premise at a boundary of its range. -/
theorem witness_FloatValues :
    (fmtF32 ∈ formats ∧ (scale2 1 1 0).2 ≤ (scale2 1 1 0).1 ∧ (scale2 1 1 0).1 < 2 * (scale2 1 1 0).2 ∧ (scale2 5 3 0).2 ≤ (scale2 5 3 0).1 ∧
      (scale2 5 3 0).1 < 2 * (scale2 5 3 0).2) ∧ 2 * (1 % 2) = 2 ∧
    (0x7F7FFFFF < 2 ^ fmtF32.width ∧ (match fmtF32.decode 0x7F7FFFFF with | .fin _ _ => true | _ => false) = true ∧ (match fmtF32.decode 0 with | .fin _ _ => true | _ => false) = true) ∧
    (FV.fin false 1).int ≠ (FV.fin true 1).int ∧ ((0xFFFFFFFF : Nat) < 2 ^ fmtF32.width ∧ 0xFFFF < 2 ^ fmtF16.width) ∧
    (let o : Rnd := { f := fmtF32, mode := 1, sat := false, fo := false }
     let f := fun (q : Nat) => (((3 * 2 ^ q + 2 ^ 30 : Nat) : Int), -(q : Int))
     precisions.find? (fun q => (o.ends false ((f q).1 - encErr) ((f q).1 + encErr) (f q).2).isSome) = some 256) ∧
    (2 ^ 148 % 2 ^ 148 = 0 ∧ 2 ^ 147 % 2 ^ 149 = 2 ^ 147 ∧ 3 * 2 ^ 147 % 2 ^ 149 = 3 * 2 ^ 147 ∧ 2 ^ 147 % 2 ^ 148 = 2 ^ 147 ∧ 2 ^ 149 % 2 ^ 149 = 0 ∧ 2 ^ 148 % 2 ^ 149 = 2 ^ 148) ∧
    ([FV.inf false].any (fun v => !v.isFin) = true ∧ [FV.fin false 1].all (fun v => v.isFin) = true ∧ finiteEntries [0x3C00] ≠ [] ∧ finiteEntries [0x7C00] = []) ∧
    (15 < 16 ∧ (15 : Nat) ≠ 8) ∧ (∃ q, q ∈ finiteEntries [0x3C00]) := by
  refine ⟨by decide +kernel, by decide, by decide +kernel, by decide, by decide, by decide +kernel, by decide, by decide +kernel, by decide, _, .head _⟩

/-- A ray along z from the origin that meets its shapes, and shapes that it misses. -/
theorem witness_RayValues :
    let f := fun (l : List Word) => l.map (fun w => FV.of 2 false (Elem.ofWord w))
    let one : Word := 0x3F800000
    let neg : Word := 0xBF800000
    let ray := f [0, 0, 0, 0, 0, one, 0, 0x42C80000]
    let box := f [neg, neg, one, one, one, 0x40000000]
    let tri := f [neg, neg, one, one, neg, one, 0, one, one]
    let seg := f [neg, 0, one, one, one, 0, one, one]
    (match rayOf ray with
     | some (o, d, a, b) =>
       (boxNear o d a b box).isSome && (boxNear o d a b (f [one, neg, one, 0x40000000, one, 0x40000000])).isNone && (boxNear o d a b (box.take 5)).isNone &&
       (boxNear o d a b (f [neg, neg, neg, one, one, 0xBF000000])).isNone &&
       decide (((v3At tri 3).sub (v3At tri 0)).dot (d.cross ((v3At tri 6).sub (v3At tri 0))) ≠ 0) &&
       decide (((v3At tri 3).sub (v3At tri 0)).dot (d.cross ((v3At tri 3).sub (v3At tri 0))) = 0) && tri.all (fun v => v.isFin)
     | none => false) = true ∧
    (tritWords ray tri).getD 3 0 ≠ 0 ∧ (segtWords ray seg).getD 3 0 = 1 ∧ (segtWords ray (seg.take 7)).getD 3 0 = 0 ∧
    (0xFFFFFFFF < 2 ^ 32 ∧ (fmtF32.decode 0x7F800000).isNan = false) := by decide +kernel

/-- BAR.arrive with a lane behind an earlier load and one that completes the phase; BAR.wait of lanes that have and have not passed it. -/
theorem witness_BarriersCountArrivals_phases :
    let behind := fun (s : State) (l : Nat) => (s.me.entries.drop s.me.suspended).any (fun x => decide (x.order < s.me.nextOrder) && !x.dropped && x.openFor l)
    let due := fun (s : State) (r : Reg) => maskOf s.me.width (fun l => (s.lanes r).getLsbD l && !behind s l)
    let common := fun (s : State) (r : Reg) => s.runs (formBar s.barCount r) r && s.queueRoom r.fsel && decide (s.me.id ≠ 0) && decide (s.block s.me.block = some demoBlock) &&
      decide (demoBlock.bars[r.d]? = some Barrier.reset) && s.me.entries.all (fun y => decide (y.order < s.me.nextOrder)) && decide (s.lanes r = 0xFF)
    let late := holding [{ demoEntry (.load (word4 .global)) with lmask := 0x80, emask := 0x80 }]
    let r := ln 1 0 1 0 0 1
    let w := ln 1 0 0 0 0 2
    let last := fun (n : Word) => { demo 3 with me := (demo 3).me.mapThreads 0xFF (fun th => { th with last := [(1, n)] }) }
    (common late r = true ∧ r.xf 0 2 = 1 ∧ due late r = 0x7F ∧ 0 + popMask (due late r) < 8 * 1) ∧
    (common (demo 3) r = true ∧ due (demo 3) r = (demo 3).lanes r ∧ Barrier.reset.cps = 0 ∧ 0 + popMask ((demo 3).lanes r) = 8 * Barrier.reset.code.getD r.b) ∧
    (common (last 0) w = true ∧ w.xf 0 2 = 2 ∧ Barrier.reset.phase = 0 ∧ wrapAfter 0 0 = false ∧ (List.range 8).all (fun l => decide (((last 0).me.thread l).lastAt w.d = some 0)) = true) ∧
    Barrier.reset.code = none ∧ ({ Barrier.reset with code := some 0 } : Barrier).code = some 0 := by
  refine ⟨?_, ?_, ?_, ?_, ?_⟩ <;> decide +kernel

/-- A load of global memory and of constants, and a scalar load, whose lanes read plain memory. -/
theorem witness_LoadsReturnBytes_global :
    let plain := fun (e : Entry) (m : MemOp) (l n : Nat) => decide ((holding [e]).place (holding [e]).me e m kindRead l = .mem 0x20010 false) &&
      !(holding [e]).heldAt (.mem 0x20010 false) && !(holding [e]).isWindow 0x20010 && (linesIn 0x20010 n).all (fun ln => !(holding [e]).lineBad (128 * ln))
    let ready := fun (e : Entry) => (holding [e]).tidy && mayPerform [e] 0 e && decide (((holding [e]).core (holding [e]).me.die (holding [e]).me.core).bad = [])
    ([word4 .global, word4 .const].all (fun m => let e := demoEntry (.load m)
      ready e && decide (m.fmt = false) && (lanesOf e.lmask).all (fun l => plain e m l (m.esz * m.cnt)))) = true ∧
    (let e := { demoEntry (.sload 22 true 5 false) with lmask := 1, emask := 1 }
     ready e = true ∧ plain e { word4 .global with cnt := 2 } (lowLane e.lmask) 8 = true) := by
  refine ⟨?_, ?_⟩ <;> decide +kernel

theorem witness_AtomicsReadModifyWrite_floats : (4 : Nat) = 2 ∨ (4 : Nat) = 3 ∨ (4 : Nat) = 4 := by decide

/-- Accesses that the memory system refuses in their eight lanes: beyond the scratchpad, and beyond the address space. -/
theorem witness_RefusedWritesTrap_accesses :
    let refused := fun (e : Entry) (at_ : State → Nat → At) (cause : Nat) =>
      decide ((holding [e]).me.entries.find? (fun x => decide (x.order = e.order)) = some e) && decide (e.refused = 0) && mayPerform [e] 0 e &&
      !(holding [e]).waitsHeld (holding [e]).me.id e.order none &&
      decide (maskOf 64 (fun l => e.lmask.getLsbD l && (match at_ (holding [e]) l with | .refuse _ => true | _ => false)) = 0xFF) &&
      decide (at_ (holding [e]) 0 = .refuse cause)
    let far := fun (w : Work) => { demoEntry w with addr := List.replicate 8 (BitVec.ofNat 64 (2 ^ 57)) }
    let out := fun (w : Work) => { demoEntry w with addr := List.replicate 8 1024 }
    let m := word4 .scratch
    (refused (out (.store m)) (fun s l => s.place s.me (out (.store m)) m kindWrite l) 8 = true ∧
     refused (far (.store (word4 .global))) (fun s l => s.place s.me (far (.store (word4 .global))) (word4 .global) kindWrite l) 7 = true) ∧
    refused (far (.sstore false 5 false)) (fun s l => s.place s.me (far (.sstore false 5 false)) (word4 .global) kindWrite l) 7 = true ∧
    refused (out (.atomic m .cas 0)) (fun s l => s.atomPlace s.me (out (.atomic m .cas 0)) m l) 8 = true := by
  refine ⟨?_, ?_, ?_⟩ <;> decide +kernel

/-- FENCE.acq, .rel and .ar with and without an access before them; CCTL.wb and .inv, and PREF.l1. -/
theorem witness_FencesAndCaches_forms :
    (let a := demoEntry (.load (word4 .global))
     ([1, 2, 3].all (fun k => let e := { demoEntry (.fence k 5) with order := 1 }
        mayPerform [a, e] 1 e && ((holding [a, e]).me.before e).any (fun x => x.work.reads) && ((holding [a, e]).me.before e).any (fun x => x.work.accesses) &&
        decide ((holding [a, e]).me.entries.find? (fun x => decide (x.order = e.order)) = some e))) = true) ∧
    ([1, 3].all (fun k => let e := demoEntry (.fence k 5)
        mayPerform [e] 0 e && !((holding [e]).me.before e).any (fun x => x.work.reads) && !((holding [e]).me.before e).any (fun x => x.work.accesses))) = true ∧
    ([Work.cctl 0, .cctl 1, .pref 0].all (fun w => mayPerform [demoEntry w] 0 (demoEntry w) && (holding [demoEntry w]).tidy &&
        decide ((holding [demoEntry w]).linesOf (holding [demoEntry w]).me (demoEntry w) = [0x400]))) = true := by
  refine ⟨?_, ?_, ?_⟩ <;> decide +kernel

/-- A CPS whose source lane is refused. -/
theorem witness_FifoAndCopies_refused :
    let e := { demoEntry (.cps (word4 .global) 1 0) with lmask := 0x80, emask := 0x80, data := List.replicate 8 [1020], addr := List.replicate 8 (BitVec.ofNat 64 (2 ^ 57)) }
    mayPerform [e] 0 e = true ∧ e.refused = 0 ∧ onlyLane e.lmask 7 ∧ (holding [e]).block (holding [e]).me.block = some demoBlock ∧ tabWf demoBlock.scratch.bytes = true ∧
    demoBlock.bars[1]? = some Barrier.reset ∧ Barrier.reset.code = none ∧ (holding [e]).me.entries.find? (fun y => decide (y.order = e.order)) = some e ∧
    1020 + 4 * 1 ≤ demoBlock.scratch.size ∧ (holding [e]).place (holding [e]).me e (word4 .global) kindRead 7 = .refuse 7 := by
  refine ⟨by decide +kernel, rfl, only_lane_seven, by decide +kernel, rfl, by decide, rfl, by decide +kernel, by decide, by decide +kernel⟩

/-- The count that MXAL writes into the save area: done, a page that faults, and one that is refused. -/
theorem witness_AccumulatorsAllocated_saves :
    let saved := fun (va : Nat) => let b := { demoBlock with bsave := BitVec.ofNat 64 va }
      (({ demo 4 with blocks := [b] } : State).setBlock { b with acc := [] }).writePieces (demo 4).me b.bsave.toNat [(0x14, leBytes 4 0)]
    (match saved 0x20000 with | .ok u => decide (u.me = (demo 4).me) | _ => false) = true ∧ (demo 4).unlogged = true ∧
    (match (({ tabled with me := (demo 4).me, blocks := [{ demoBlock with bsave := 0x80000000 }] } : State).setBlock demoBlock).writePieces (demo 4).me 0x80000000 [(0x14, leBytes 4 0)] with
      | .fault .. => true | _ => false) = true ∧
    (match saved (2 ^ 57) with | .refuse .. => true | _ => false) = true := by
  refine ⟨?_, ?_, ?_, ?_⟩ <;> decide +kernel

/-- A handler whose saved latch was dropped returns without one. -/
theorem witness_HandlersReturn_unlatched :
    (let s : State := { returning with me := { returning.me with frame := returning.me.frame.map (fun f => { f with unlatched := true }) } }
     s.runs (formTret s.ctx s.me.agent (sh 0 0 0 0)) (sh 0 0 0 0) && s.me.frame.any (fun f => f.unlatched && decide (f.nrq = 0))) = true := by decide +kernel

/-- The ray tests, the copy and the two loads meet each check of R123. -/
theorem witness_IssueChecksInOrder_rays :
    [(formRay 5 24, sh 2 4 16 48, 5), (formRay 4 9, sh 2 4 16 48, 4), (formRay 4 8, sh 2 4 16 48, 4)].all (fun (p : (Reg → Form) × Reg × Nat) =>
      let F := p.1 p.2.1
      let q := { ln 4 16 48 0 2 0 with g := 23 }
      let G := p.1 q
      decide (F.cls = 2) && !decide (F.cls = (demo 1).ctx.cls) && !((p.1 { p.2.1 with t := 3 }).ok { p.2.1 with t := 3 } && (demo 2).ctx.pfxOk F.rnd F.sat) &&
        (F.ok p.2.1 && (demo 2).ctx.pfxOk F.rnd F.sat) && (G.ok q && (demo 2).ctx.pfxOk G.rnd G.sat) && decide (q.guardPois (poisonP (demo 2) 23 0x80).me 0xFF ≠ 0) &&
        decide (q.guardPois (demo 2).me 0xFF = 0) && decide ((demo 2).lanes q = 0)) = true := by decide +kernel

theorem witness_TrapsSaveTheTeam_header :
    demoTeam.flags.length = 12 ∧ 255 < 2 ^ 8 ∧ (List.replicate 32 (demoEntry .bin)).length ≤ 32 ∧
    (let s : State := { demo 0 with me := { (demo 0).me with handler := 0x40000 } }
     (match s.writePieces s.me s.me.frameVa.toNat (framePieces s.me demoTrap 0) with | .ok _ => true | _ => false) = true) := by decide +kernel

/-- A group that has stood ready and not chosen for 256 and for 1024 cycles. -/
theorem witness_SchedulingAndAdmissionEvents_waited :
    (let m := fullMask placed.me.width
     let u := { placed.me with readySince := [(m, 0)] }
     let s : State := { placed with me := u, turn := 1024 }
     s.groupReady u m = true ∧ u.waited m s.turn 1024 = true ∧ u.waited m 256 256 = true ∧ u.waited m 255 256 = false ∧ u.waited m 1023 1024 = false) ∧
    (queued.agentActs 0 0 = true ∧ queued.awake 0 0 = true ∧ childWaiting.asked demoBlock = false ∧
     (∀ x ∈ childWaiting.blocks, x.die = demoBlock.die → childWaiting.unitWaits x = true → childWaiting.launchOf x ≤ childWaiting.launchOf demoBlock)) ∧
    (let u := fun (va : Nat) => { (withV (demo 0) 5 [1]).me with absent := [5], image := BitVec.ofNat 64 va }
     5 ∈ (u 0x20000).absent ∧ 6 ∉ (u 0x20000).absent ∧ (match (demo 0).readReg (u 0x20000) 5 with | .ok v => decide (v.tag ≠ .unset) | _ => false) = true ∧
     (match tabled.readReg (u 0x80000000) 5 with | .fault .. => true | _ => false) = true ∧
     (match (demo 0).readReg (u (2 ^ 57)) 5 with | .refuse .. => true | _ => false) = true) := by
  refine ⟨?_, ?_, ?_⟩ <;> decide +kernel

/-- Page walks that fault and are refused, with and without an access that needs the page; a fault that is known and one that is not. -/
theorem witness_TranslationEvents_walks :
    (let e := { demoEntry (.load (word4 .global)) with addr := List.replicate 8 0x80000000 }
     let s : State := { tabled with me := { demoTeam with entries := [e] } }
     s.tlbFind 0 0 1 0x80000000 = none ∧ (match s.walk 0 1 0x80000000 with | .fault _ => true | _ => false) = true ∧
     s.seeks s.me e = true ∧ e.lanesIn [pageOf 0x80000000] ≠ 0 ∧ s.me.die = 0 ∧ s.me.core = 0 ∧ s.me.proc = 1 ∧ s.teams = [] ∧ tabled.allTeams.all (fun u => u.entries.isEmpty) = true) ∧
    (let e := demoEntry (.load (word4 .global))
     let s : State := { State.reset with me := { demoTeam with entries := [e] } }
     s.tlbFind 0 0 1 0x20010 = none ∧ (match s.walk 0 1 0x20010 with | .refuse _ => true | _ => false) = true ∧ s.teams = [] ∧ s.me.id ≠ 0 ∧ s.me.die = 0 ∧ s.me.core = 0 ∧
     s.me.proc = 1 ∧ s.me.frame = none ∧ s.seeks s.me e = true ∧ e.refused = 0 ∧ (s.die 0).reg 0x21A = 0 ∧ s.refusedIn 0 1 e (e.lanesIn [pageOf 0x20010]) ≠ 0) ∧
    (demoFault.ty = 0 ∧ demoFault.proc = 1 ∧ demoFault.vpage = pageOf 0x50000 ∧ (State.reset.die 0).faults = []) := by
  refine ⟨?_, ?_, ?_⟩ <;> decide +kernel

/-- A one-row machine for the matrix engine: its entry stands in the queue, its tile has a slot, its maps are all zeros, so that every element lies at
the start of the scratchpad. -/
def engine (op x ty c : Nat) (cap : List Byte) : State × Entry :=
  let e := { demoEntry (.matrix op x ty c 0) with cap := cap, busy := [], data := [] }
  ({ holding [e] with blocks := [{ demoBlock with acc := [{ AccTile.zero with busy := true, slot := true }] }] }, e)

/-- What every clause of MATRIX_COMPLETE asks of it. -/
def engineReady (p : State × Entry) : Bool :=
  let s := p.1
  let a := (s.myBlock.acc.getD 0 AccTile.zero)
  decide (s.team 1 = some s.me) && decide (s.me.activeEntry 0 = some p.2) && decide (s.me.entries.find? (fun y => decide (y.order = 0)) = some p.2) &&
  decide (p.2.waits = [] ∧ p.2.progress = 0 ∧ p.2.kept = []) && !s.pfsHolds s.me.die s.me.core (BitVec.ofNat 4 (2 ^ s.me.part)) && decide (s.block 1 = some s.myBlock) &&
  a.slot && tabWf a.elems && decide (s.mxOld = [])

/-- A view's elements of a range lie in the block's memory, none poisoned. -/
def viewReads (s : State) (v : View) (m n : Nat) : Bool :=
  decide (v.m.space ≠ 2) && (List.range m).all (fun i => (List.range n).all (fun k => (s.bankOf s.myBlock v.m.sel).inside (v.m.plainAt v.k.es i k) v.k.es &&
    !(s.bankOf s.myBlock v.m.sel).poisoned (v.m.plainAt v.k.es i k) v.k.es))

theorem witness_EngineWorkCompletes_matrix :
    (let p := engine 0x70 0 0 0 (List.replicate 0x90 0)
     engineReady p = true ∧ (p.1.myBlock.acc.getD 0 AccTile.zero).bad = false ∧ bit (p.2.cap.getD 0x64 0) 0 = false ∧ p.2.regA = false ∧
     (p.2.view false true .f16).k ≠ .auto ∧ (p.2.view true true .f16).k ≠ .auto ∧ (p.2.view false true .f16).k.eb = 0 ∧
     viewReads p.1 (p.2.view false true .f16) 32 16 = true ∧ viewReads p.1 (p.2.view true true .f16) 16 16 = true ∧
     ({ valid := true, asrc := false, a := 0, afmt := 0, m := 0, c := 0, vals := [] } : Latch).pending = true) ∧
    (let p := engine 0x70 0 0 0 (List.replicate 0x90 0)
     let b := { p.1.myBlock with acc := p.1.myBlock.acc.map (fun a => { a with bad := true }) }
     engineReady ({ p.1 with blocks := [b] }, p.2) = true ∧ (b.acc.getD 0 AccTile.zero).bad = true ∧
     (let q := { p.2 with refused := 0xFF, refCause := 7 }; engineReady ({ p.1 with me := { p.1.me with entries := [q] } }, q) = true ∧ q.refused ≠ 0)) ∧
    ([2, 3, 4].all (fun ty => let p := engine 0x72 0 ty 0 (List.replicate 0x90 0)
      engineReady p && viewReads p.1 (p.2.view false false (kindOfType ty false)) 32 16)) = true ∧
    ([2, 5].all (fun ty => let p := engine 0x73 0 ty 0 (List.replicate 0x90 0)
      engineReady p && !p.1.engHeld 1 0 && tabWf p.1.myBlock.scratch.bytes && viewReads p.1 (p.2.view false false (kindOfType ty false)) 32 16)) = true ∧
    (let p := engine 0x73 0 2 0 (leBytes 8 0x20000 ++ leBytes 4 0 ++ leBytes 4 0x20 ++ List.replicate 0x80 0)
     let v := p.2.view false false (kindOfType 2 false)
     engineReady p = true ∧ v.m.space = 2 ∧ p.1.tidy = true ∧ p.1.reds = [] ∧ (List.range 16).all (fun j => let y := v.m.plainAt v.k.es 0 j
       decide (p.1.translate 0 0 1 p.2.priv kindWrite (BitVec.ofNat 64 y) = .ok y false ∧ y % 65536 + 4 ≤ 65536 ∧ p.1.target (y + 3) ≠ .none ∧ p.1.isWindow y = false ∧
         p.1.pointAt 0 0 0 y = p.1.pointAt 0 0 0 0x20000)) = true) ∧
    (let p := engine 0x77 3 0 0 (List.replicate 0x90 0)
     engineReady p = true ∧ 3 % 4 ≠ 4 ∧ demoBlock.scratch.inside 0 256 = true ∧ demoBlock.scratch.inside 256 256 = true ∧ demoBlock.scratch.poisoned 0 512 = false) := by
  refine ⟨?_, ?_, ?_, ?_, ?_, ?_⟩ <;> decide +kernel

/-- One slice: a NaN product, an infinite one, a sum that is zero, one that is not, and the bits it meets. -/
theorem witness_EngineWorkCompletes_slices :
    (none ∈ [mulExact (.nan false) (.fin false 1)]) ∧ (some (FV.inf false) ∈ [mulExact (.inf false) (.fin false (2 ^ 149))]) ∧
    ((FV.fin false 1).int * (FV.fin false 0).int = 0 ∧ (FV.fin false 1).int * (FV.fin true 1).int ≠ 0) ∧ (fmtF32.decode 0x7FC00000).isNan = true ∧
    (fmtF32.decode 0).isFin = true ∧ fmtF32.decode 0xFF800000 = .inf true := by decide +kernel

/-- Where the agent of the core acts and it is awake, teams are admitted. -/
theorem witness_TilesRenderedInSegments_acts :
    pooled.agentActs 0 0 = true ∧ pooled.awake 0 0 = true ∧ tabled.agentActs 0 0 = true ∧
    (let a := { Team.reset with id := 3, agent := true, run := .frozen }; ({ State.reset with teams := [a] } : State).agentActs 0 0 = false) := by decide +kernel

set_option maxRecDepth 200000 in
/-- A resume that faults, an agent and a page that faults in a thaw, and a log of two records. -/
theorem witness_PreemptionStopsAndSteps_faults :
    (let b := { demoBlock with run := .away, hold := .saved, bsave := 0x80000000 }
     let t := { savable with run := .away, frame := some { demoFrame with nested := 0 } }
     let s : State := { tabled with me := t, blocks := [b], grids := [demoGrid] }
     s.blockIn 0 0 0 = some b ∧ s.freeTags 0 0 b.tags.length = some 0 ∧ s.banksBack b = true ∧
     placeTeams (s.teamsOf 1).length ((s.teamsOf 1).headD Team.reset).width ((List.range 4).map (s.partLoad 0 0)) = some [0] ∧
     (match s.bringBack b 0 [0] with | .fault .. => true | _ => false) = true) ∧
    (let a := { savable with run := .frozen, agent := true }
     let s : State := { demo 0 with me := a, cores := ((demo 0).setCore 0 0 { (demo 0).core 0 0 with stopped := 1 }).cores }
     s.allTeams.filter (fun t => decide (t.die = 0 ∧ t.core = 0 ∧ t.run = .frozen) && ((1 : BitVec 4) &&& (s.core 0 0).stopped).getLsbD t.part) = [a] ∧ s.team 1 = some a) ∧
    (let t := { savable with run := .frozen, image := 0x80000000 }
     let s : State := { tabled with me := t, cores := (tabled.setCore 0 0 { tabled.core 0 0 with stopped := 1 }).cores }
     s.allTeams.filter (fun t => decide (t.die = 0 ∧ t.core = 0 ∧ t.run = .frozen) && ((1 : BitVec 4) &&& (s.core 0 0).stopped).getLsbD t.part) = [t] ∧ s.team 1 = some t ∧
     (match s.thaw t with | .fault .. => true | _ => false) = true) ∧
    (let s := State.reset.setCore 0 0 ((State.reset.core 0 0).setReg 0x503 0x20004)
     bitsN ((s.core 0 0).reg 0x503) 16 24 = 2 ∧ (match s.replayOne 0 0 0 0 with | .ok u => (match u.replayOne 0 0 0 1 with | .ok _ => true | .error _ => false) | .error _ => false) = true) ∧
    State.reset.barReg 0xC0018 = .dbgCsr 0 0 0x503 := by
  refine ⟨?_, ?_, ?_, ?_, ?_⟩ <;> decide +kernel

/-- An agent that finds its queue not running goes on with it; a flush write that a reset waits for; no agent that acts. -/
theorem witness_QueuesServedInOrder_waits :
    (let q := { demoQueue with state := 1, wi := 1 }
     (running q).queue 7 = some q ∧ q.claim < q.wi ∧ q.state ≠ 0) ∧
    ((running { demoQueue with state := 3 }).queue 7 = some { demoQueue with state := 3 } ∧ demoQueue.wi ≤ 16 ∧ 16 ≤ demoQueue.read + 2 ^ demoQueue.log2) ∧
    ((running { demoQueue with resetting := true }).flushHeld 1 = false ∧ ((running demoQueue).setCtl 0 0 { Ctl.reset with held := [{ demoHeld with flush := true }] }).flushHeld 1 = true) ∧
    (let s := running demoQueue
     s.dieActs 0 = true ∧ ({ s with teams := [{ Team.reset with id := 3, agent := true, run := .frozen }], harvest := [(0, 1)] } : State).dieActs 0 = false) := by
  refine ⟨?_, ?_, ?_, ?_⟩ <;> decide +kernel

/-- A host write into a block that stands compressed. -/
theorem witness_HostAccessesAndNothingRefused_compressed :
    let s := State.reset.setCtl 0 0 { Ctl.reset with chunks := [(2, 1)] }
    s.target 1024 ≠ .none ∧ s.isWindow 1024 = false ∧ 1024 / 512 = (1024 + 512 - 1) / 512 ∧ s.isCompressed 1024 = true ∧ s.isCompressed 1023 = false := by decide +kernel

end Sys2Proof.Tests
end

section
/-! What accesses to memory, fault records and logs leave alone: the teams, the blocks, the grids and the latch of the instruction at issue. -/

namespace Sys2Proof.Machine

/-- The part of the machine that an access to memory leaves alone: the teams and the issuing group, the latch, the blocks and the grids, and
the straps that say what a physical address names (R457). -/
def State.work (s : State) : Team × Mask × Ctx × List Team × List Block × List Grid × Nat × BitVec 8 × List (Nat × Word) × BitVec 16 :=
  (s.me, s.grp, s.ctx, s.teams, s.blocks, s.grids, s.nextLseq, s.present, s.memCfg, s.relayUp)

/-- Two states with the same work have the same parts. -/
theorem work_inj {s t : State} (h : s.work = t.work) : s.me = t.me ∧ s.grp = t.grp ∧ s.ctx = t.ctx ∧ s.teams = t.teams ∧ s.blocks = t.blocks ∧
    s.grids = t.grids ∧ s.nextLseq = t.nextLseq ∧ s.present = t.present ∧ s.memCfg = t.memCfg ∧ s.relayUp = t.relayUp := by
  simpa only [State.work, Prod.mk.injEq] using h

theorem ctx_of_work {s t : State} (h : s.work = t.work) : s.ctx = t.ctx := (work_inj h).2.2.1

/-! ## Writes -/

@[simp] theorem State.setCore_work (s : State) (d c : Nat) (k : Core) : (s.setCore d c k).work = s.work := rfl
@[simp] theorem State.setDie_work (s : State) (d : Nat) (x : Die) : (s.setDie d x).work = s.work := rfl
@[simp] theorem State.irq_work (s : State) (v : Nat) : (s.irq v).work = s.work := rfl

@[simp] theorem State.putByte_work (s : State) (p : Point) (pa : Nat) (b : Byte) : (s.putByte p pa b).work = s.work := by
  cases p <;> rfl

@[simp] theorem State.putBytes_work (s : State) (p : Point) (pa : Nat) (bs : List Byte) : (s.putBytes p pa bs).work = s.work :=
  foldl_same State.work _ _ s (fun s ib => s.putByte_work p (pa + ib.1) ib.2)

@[simp] theorem State.homeWrite_work (s : State) (pa : Nat) (bs : List Byte) : (s.homeWrite pa bs).work = s.work := s.putBytes_work .home pa bs

@[simp] theorem State.homePut_work (s : State) (pa n v : Nat) : (s.homePut pa n v).work = s.work := s.homeWrite_work pa _

@[simp] theorem State.homeWords_work (s : State) (pa : Nat) (ws : List Nat) : (s.homeWords pa ws).work = s.work :=
  foldl_same State.work _ _ s (fun s iw => s.homePut_work (pa + 8 * iw.1) 8 iw.2)

@[simp] theorem State.poisonLines_work (s : State) (pa n : Nat) : (s.poisonLines pa n).work = s.work :=
  foldl_same State.work _ _ s (fun _ _ => rfl)

@[simp] theorem State.mergePoison_work (s : State) (ws : List HeldWrite) : (s.mergePoison ws).work = s.work :=
  foldl_same State.work (fun (s : State) (x : HeldWrite) => s.poisonLines x.pa x.data.length) _ _ (fun s x => s.poisonLines_work x.pa x.data.length)

/-! ## Caches -/

@[simp] theorem State.flushLine_work (s : State) (d c ln : Nat) : (s.flushLine d c ln).work = s.work :=
  foldl_same State.work (fun (s : State) (p : Nat × Byte) => s.putDie d p.1 p.2) _ _ (fun _ _ => rfl)

@[simp] theorem State.flushCore_work (s : State) (d c : Nat) : (s.flushCore d c).work = s.work :=
  foldl_same State.work (fun (s : State) (p : Nat × Byte) => s.putDie d p.1 p.2) _ _ (fun _ _ => rfl)

@[simp] theorem State.flushDieLine_work (s : State) (d ln : Nat) : (s.flushDieLine d ln).work = s.work :=
  foldl_same State.work (fun (s : State) (p : Nat × Byte) => s.moveHome d p.1 p.2) _ s (fun _ _ => rfl)

@[simp] theorem State.flushDie_work (s : State) (d : Nat) : (s.flushDie d).work = s.work :=
  foldl_same State.work (fun (s : State) (p : Nat × Byte) => s.moveHome d p.1 p.2) _ s (fun _ _ => rfl)

@[simp] theorem State.release_work (s : State) (scope d c : Nat) : (s.release scope d c).work = s.work := by
  unfold State.release
  split
  · rfl
  · split
    · rw [State.flushCore_work]
    · rw [State.flushDie_work, State.flushCore_work]

@[simp] theorem State.acquire_work (s : State) (scope d c : Nat) : (s.acquire scope d c).work = s.work := by
  unfold State.acquire
  split
  · rfl
  · exact s.flushCore_work d c

/-! ## Fault records, logs and controllers -/

@[simp] theorem State.writeFault_work (s : State) (d : Nat) (r : FaultRec) : (s.writeFault d r).work = s.work := by
  simp only [State.writeFault]
  split
  · rw [State.irq_work, State.setDie_work, State.homeWords_work]
  · rw [State.setDie_work, State.homeWords_work]

@[simp] theorem State.drainFaults_work (d : Nat) (rs : List FaultRec) (s : State) : (s.drainFaults d rs).work = s.work := by
  induction rs generalizing s with
  | nil => rfl
  | cons r rs ih =>
    unfold State.drainFaults
    split
    · exact ih s
    · split
      · rw [ih, State.setDie_work, State.writeFault_work]
      · rfl

@[simp] theorem State.raiseFault_work (s : State) (d : Nat) (r : FaultRec) : (s.raiseFault d r).work = s.work := by
  simp only [State.raiseFault]
  split
  · rfl
  · rw [State.drainFaults_work, State.setDie_work]

@[simp] theorem State.pageFault_work (s : State) (d c p va kind level source : Nat) : (s.pageFault d c p va kind level source).work = s.work :=
  s.raiseFault_work d _

@[simp] theorem State.devFault_work (s : State) (d c p va kind level source : Nat) : (s.devFault d c p va kind level source).work = s.work := by
  unfold State.devFault
  dsimp only
  split <;> exact s.pageFault_work d c p va kind level source

@[simp] theorem State.logViolation_work (s : State) (d c va pc p cause kind source lane : Nat) :
    (s.logViolation d c va pc p cause kind source lane).work = s.work := by
  simp only [State.logViolation]
  split
  · rfl
  · split
    · rw [State.homePut_work]
    · rw [State.homePut_work, State.homeWords_work]

@[simp] theorem State.recordError_work (s : State) (d kind addr core sev : Nat) : (s.recordError d kind addr core sev).work = s.work := by
  simp only [State.recordError]
  split
  · rw [State.homePut_work]
  · split
    · split
      · rw [State.irq_work, State.setDie_work, State.homeWords_work]
      · rw [State.setDie_work, State.homeWords_work]
    · rw [State.setDie_work]

@[simp] theorem State.setCtl_work (s : State) (d k : Nat) (c : Ctl) : (s.setCtl d k c).work = s.work := by
  simp only [State.setCtl]
  split
  · rw [State.raiseFault_work, State.setDie_work]
  · rw [State.setDie_work]

@[simp] theorem State.dropBlock_work (s : State) (d c pa : Nat) : (s.dropBlock d c pa).work = s.work := by
  unfold State.dropBlock
  split <;> rfl

@[simp] theorem State.hold_work (s : State) (x : HeldWrite) : (s.hold x).work = s.work := by
  simp only [State.hold]
  split
  · rw [State.dropBlock_work, State.setCtl_work]
  · rw [State.setCtl_work]

theorem State.mergeBlock_work {s t : State} {ws : List HeldWrite} {blk : Nat} (h : s.mergeBlock ws blk = some t) : t.work = s.work := by
  simp only [State.mergeBlock] at h
  split at h
  · obtain rfl := Option.some.inj h
    rw [State.setCtl_work, foldl_same State.work _ _ _ (fun s o => s.mergePoison_work _),
      foldl_same State.work _ _ s (fun s w => s.putBytes_work _ _ _)]
  · cases h

/-! ## The latch of the instruction at issue: no trap and no containment touches it -/

theorem State.dropBlock_ctx (s : State) (d c pa : Nat) : (s.dropBlock d c pa).ctx = s.ctx := ctx_of_work (s.dropBlock_work d c pa)

@[simp] theorem State.heldDone_ctx (s : State) (x : HeldWrite) : (s.heldDone x).ctx = s.ctx := by
  unfold State.heldDone
  dsimp only
  repeat' split
  all_goals simp only [State.setTeam_ctx, State.irq_ctx, State.dropBlock_ctx]

theorem State.mergeHeld_ctx {s t : State} {d k blk : Nat} (h : s.mergeHeld d k blk = some t) : t.ctx = s.ctx := by
  simp only [State.mergeHeld, Option.map_eq_some_iff] at h
  obtain ⟨u, hu, rfl⟩ := h
  rw [foldl_same State.ctx _ _ _ (fun s x => s.heldDone_ctx x), ctx_of_work (u.setCtl_work _ _ _), ctx_of_work (State.mergeBlock_work hu)]

@[simp] theorem State.writeBlocks_ctx (s : State) (proc va pa : Nat) (bs : List Byte) : (s.writeBlocks proc va pa bs).ctx = s.ctx := by
  refine foldl_same State.ctx _ _ s (fun s p => ?_)
  dsimp only
  split
  · generalize hx : (State.mergeHeld _ _ _ _) = o
    cases o with
    | none =>
      rw [Option.getD_none]
      exact ctx_of_work (s.hold_work _)
    | some t =>
      rw [Option.getD_some]
      exact (State.mergeHeld_ctx hx).trans (ctx_of_work (s.hold_work _))
  · exact ctx_of_work (s.hold_work _)

theorem State.writeVirt_ctx {s t : State} {d c p : Nat} {prv : Bool} {va : Nat} {bs : List Byte} (h : s.writeVirt d c p prv va bs = .ok t) :
    t.ctx = s.ctx := by
  unfold State.writeVirt at h
  split at h
  · obtain rfl := Acc.ok.inj h
    refine foldl_same (fun a : State × Nat × List Byte => a.1.ctx) _ _ (s, va, bs) (fun a q => ?_)
    dsimp only
    split
    · exact a.1.writeBlocks_ctx _ _ _ _
    · exact ctx_of_work (a.1.homeWrite_work _ _)
  · cases h
  · cases h

theorem State.writePieces_ctx {s t : State} {w : Team} {base : Nat} {ps : List (Nat × List Byte)} (h : s.writePieces w base ps = .ok t) :
    t.ctx = s.ctx := by
  have key : ∀ (ps : List (Nat × List Byte)) (a : Acc State), (∀ u, a = .ok u → u.ctx = s.ctx) →
      ∀ u, ps.foldl (fun (a : Acc State) p => match a with | .ok s => s.writeVirt w.die w.core w.proc true (base + p.1) p.2 | e => e) a = .ok u →
        u.ctx = s.ctx := by
    intro ps
    induction ps with
    | nil => exact fun a ha => ha
    | cons p ps ih =>
      intro a ha
      refine ih _ (fun u hu => ?_)
      cases a with
      | ok v => exact (State.writeVirt_ctx hu).trans (ha v rfl)
      | fault => cases hu
      | refuse => cases hu
  exact key ps (.ok s) (fun u hu => by rw [Acc.ok.inj hu]) t h

@[simp] theorem State.flipQcb_ctx (s : State) (q : Queue) : (s.flipQcb q).ctx = s.ctx := by
  rw [State.flipQcb, State.setQueue_ctx, ctx_of_work (State.homePut_work _ _ _ _), ctx_of_work (State.homeWords_work _ _ _)]

@[simp] theorem State.contain_ctx (s : State) (proc err : Nat) (at_ : Option (Nat × Nat)) : (s.contain proc err at_).ctx = s.ctx := by
  unfold State.contain
  refine (foldl_same State.ctx _ _ _ (fun s q => ?_)).trans rfl
  dsimp only
  split
  · exact s.flipQcb_ctx _
  · rfl

@[simp] theorem State.refusedTeam_ctx (s : State) (t : Team) (va cause kind : Nat) : (s.refusedTeam t va cause kind).ctx = s.ctx := by
  rw [State.refusedTeam, State.containTeam, State.contain_ctx, ctx_of_work (State.logViolation_work _ _ _ _ _ _ _ _ _ _)]

@[simp] theorem State.devFault_ctx (s : State) (d c p va kind level source : Nat) : (s.devFault d c p va kind level source).ctx = s.ctx :=
  ctx_of_work (s.devFault_work d c p va kind level source)

@[simp] theorem State.acquire_ctx (s : State) (scope d c : Nat) : (s.acquire scope d c).ctx = s.ctx := ctx_of_work (s.acquire_work scope d c)

@[simp] theorem State.recordError_ctx (s : State) (d kind addr core sev : Nat) : (s.recordError d kind addr core sev).ctx = s.ctx :=
  ctx_of_work (s.recordError_work d kind addr core sev)

@[simp] theorem State.restartAgent_ctx (s : State) (d c : Nat) : (s.restartAgent d c).ctx = s.ctx := by
  simp only [State.restartAgent]
  split
  · rw [State.recordError_ctx]; rfl
  · rfl

@[simp] theorem State.countPark_ctx (s : State) (d c : Nat) : (s.countPark d c).ctx = s.ctx := by
  rw [State.countPark, State.recordError_ctx]; rfl

@[simp] theorem State.freeTile_ctx (s : State) (blk tile : Nat) : (s.freeTile blk tile).ctx = s.ctx := by
  unfold State.freeTile
  split
  · split <;> rfl
  · rfl

@[simp] theorem State.dropSide_ctx (s : State) (t : Team) (e : Entry) : (s.dropSide t e).ctx = s.ctx := by
  simp only [State.dropSide]
  split
  · split
    · rw [State.freeTile_ctx, State.setTeam_ctx]
    · rw [State.freeTile_ctx]
  · split <;> rfl
  · split <;> rfl
  · rfl

theorem State.parkNested_ctx (s : State) (k : Trap) : (s.parkNested k).ctx = s.ctx := by
  simp only [State.parkNested]
  split
  · exact s.devFault_ctx _ _ _ _ _ _ _
  · rw [State.refusedTeam_ctx]
  next u hu =>
    rw [State.countPark_ctx]
    change (List.foldl _ u _).ctx = s.ctx
    exact (foldl_same State.ctx _ _ u (fun u e => u.dropSide_ctx s.me e)).trans (State.writeVirt_ctx hu)

/-- A trap leaves the latch as it was. -/
theorem State.takeTrap_ctx (s : State) (k : Trap) : (s.takeTrap k).ctx = s.ctx := by
  unfold State.takeTrap
  extract_lets t t' park nested s'
  split
  · exact s.restartAgent_ctx _ _
  · split
    · split <;> rfl
    · split
      · exact s.parkNested_ctx k
      · split
        · exact State.devFault_ctx _ _ _ _ _ _ _ _
        · exact State.refusedTeam_ctx _ _ _ _ _
        next u hu =>
          have hw : (u.acquire 5 t'.die t'.core).ctx = s.ctx := (State.acquire_ctx u 5 _ _).trans (State.writePieces_ctx (s := s') hu)
          extract_lets v w w'
          split
          · exact hw
          · split
            · exact (State.countPark_ctx _ _ _).trans hw
            · exact hw

theorem State.trapNow_ctx (s : State) (cause : Nat) (lanes : Mask) (info faddr : DWord) (sub : Nat) :
    (s.trapNow cause lanes info faddr sub).ctx = s.ctx := s.takeTrap_ctx _

end Sys2Proof.Machine
end

section
/-! The checks of R123 in their order, and what follows them at once (01_execution_model.md). -/

namespace Sys2Proof.Machine

/-! ## The refusal of R123, check by check -/

section Refusal
variable {s : State} {cls : Nat} {ok rnd sat : Bool}

theorem refusal_of_class_mismatch (h : ¬ (cls = 7 ∨ cls = s.ctx.cls)) : s.refusal cls ok rnd sat = some 0x04 := by
  rw [not_or] at h
  rw [State.refusal, if_pos h]

theorem refusal_of_unprivileged (hf : cls = 7 ∨ cls = s.ctx.cls) (hp : ¬ (cls = 6 → s.me.priv = true)) :
    s.refusal cls ok rnd sat = some 0x13 := by
  rw [State.refusal, if_neg (fun h => hf.elim h.1 h.2), if_pos (Classical.not_imp.1 hp)]

theorem refusal_of_fits_allowed (hf : cls = 7 ∨ cls = s.ctx.cls) (hp : cls = 6 → s.me.priv = true) :
    s.refusal cls ok rnd sat = if ok && s.ctx.pfxOk rnd sat then none else some 0x01 := by
  rw [State.refusal, if_neg (fun h => hf.elim h.1 h.2), if_neg (fun h => h.2 (hp h.1))]

end Refusal

/-! ## A register form that does not issue -/

/-- An instruction that issues whatever its team and group are like is one with no such condition. -/
theorem issue_eq_issueFit (s : State) (F : Form) (r : Reg) (body : State → Mask → List (List Nat) → Out) :
    s.issue F r body = s.issueFit F r true 0 body := by
  rw [State.issue, State.issueFit]
  cases s.refusal F.cls (F.ok r) F.rnd F.sat <;> simp

section Issue
variable {s : State} {F : Form} {r : Reg} {fit : Bool} {cause : Nat} {body : State → Mask → List (List Nat) → Out}

theorem issueFit_of_refusal {c : Nat} (h : s.refusal F.cls (F.ok r) F.rnd F.sat = some c) :
    s.issueFit F r fit cause body = .next (s.trapGroup c) := by
  rw [State.issueFit, h]

theorem issueFit_of_guard_poisoned (h : s.refusal F.cls (F.ok r) F.rnd F.sat = none) (hg : r.guardPois s.me s.grp ≠ 0) :
    s.issueFit F r fit cause body = .next (s.trapNow 0x08 (r.guardPois s.me s.grp) 0 0 0) := by
  simp only [State.issueFit, h, hg, false_and, if_false, State.issueLanes, ne_eq, not_false_eq_true, if_true]

theorem issueFit_of_no_lanes (h : s.refusal F.cls (F.ok r) F.rnd F.sat = none) (hg : r.guardPois s.me s.grp = 0) (hl : s.lanes r = 0) :
    s.issueFit F r fit cause body = .next s.advance := by
  have hl' : r.lanes s.me s.grp = 0 := hl
  simp only [State.issueFit, h, hg, hl', ne_eq, not_true_eq_false, false_and, and_false, if_false, State.issueLanes, if_true]

end Issue

/-- A group that moves on, and nothing else (R148). -/
theorem effect_advance (s : State) : Effect s s.advance plainReg noElem sameThread 0 where
  machine := rfl
  team := rfl
  elem _ _ _ := rfl
  thread _ hl := thread_mapThreads _ _ _ _ hl
  tag _ _ := rfl
  spread h := absurd h (fun ⟨_, _, _, _, hn, _⟩ => hn rfl)
  shape _ _ _ hn := absurd rfl hn
  sticky := (BitVec.or_zero).symm

/-- The checks of R123 in order for an instruction of a form, and what comes at once after them: the poisoned guard, and the empty E. -/
def ChecksInOrder (F : State → Form) (i : Instr) (r : Reg) : Prop := ∀ s : State,
  let fits := (F s).cls = 7 ∨ (F s).cls = s.ctx.cls
  let allowed := (F s).cls = 6 → s.me.priv = true
  let legal := ((F s).ok r && s.ctx.pfxOk (F s).rnd (F s).sat) = true
  (¬ fits → exec i s = .next (s.trapNow 0x04 s.grp 0 0 0)) ∧ (fits → ¬ allowed → exec i s = .next (s.trapNow 0x13 s.grp 0 0 0)) ∧
  (fits → allowed → ¬ legal → exec i s = .next (s.trapNow 0x01 s.grp 0 0 0)) ∧
  (fits → allowed → legal →
    (r.guardPois s.me s.grp ≠ 0 → exec i s = .next (s.trapNow 0x08 (r.guardPois s.me s.grp) 0 0 0)) ∧
    (r.guardPois s.me s.grp = 0 → s.lanes r = 0 → ∃ t, exec i s = .next t ∧ Effect s t plainReg noElem sameThread 0))

/-- Every instruction that goes through the one issue of register forms makes the checks in order. -/
theorem checksInOrder_of_issueFit {F : State → Form} {i : Instr} {r : Reg}
    (hi : ∀ s, ∃ fit cause body, exec i s = s.issueFit (F s) r fit cause body) : ChecksInOrder F i r := by
  intro s
  obtain ⟨fit, cause, body, hx⟩ := hi s
  refine ⟨fun hf => ?_, fun hf hp => ?_, fun hf hp hl => ?_, fun hf hp hl => ⟨fun hg => ?_, fun hg hn => ⟨s.advance, ?_, effect_advance s⟩⟩⟩
  · rw [hx, issueFit_of_refusal (refusal_of_class_mismatch hf)]; rfl
  · rw [hx, issueFit_of_refusal (refusal_of_unprivileged hf hp)]; rfl
  · rw [hx, issueFit_of_refusal ((refusal_of_fits_allowed hf hp).trans (if_neg hl))]; rfl
  · rw [hx, issueFit_of_guard_poisoned ((refusal_of_fits_allowed hf hp).trans (if_pos hl)) hg]
  · rw [hx, issueFit_of_no_lanes ((refusal_of_fits_allowed hf hp).trans (if_pos hl)) hg hn]

/-- The short and the long form of an instruction that issues under a condition on its team or group. -/
theorem both_of_issueFit {short : ShortOps → Instr} {long : LongOps → Instr} {T : Nat} (F : Reg → State → Form)
    (hs : ∀ o s, ∃ fit cause body, exec (short o) s = s.issueFit (F (Reg.ofShort T o) s) (Reg.ofShort T o) fit cause body)
    (hl : ∀ o s, ∃ fit cause body, exec (long o) s = s.issueFit (F (Reg.ofLong o) s) (Reg.ofLong o) fit cause body) :
    Both short long T (fun i r => ChecksInOrder (F r) i r) :=
  ⟨fun o => checksInOrder_of_issueFit (hs o), fun o => checksInOrder_of_issueFit (hl o)⟩

/-- The short and the long form of an instruction that issues whatever its team and group are like. -/
theorem both_of_issue {short : ShortOps → Instr} {long : LongOps → Instr} {T : Nat} (F : Reg → State → Form)
    (hs : ∀ o s, ∃ body, exec (short o) s = s.issue (F (Reg.ofShort T o) s) (Reg.ofShort T o) body)
    (hl : ∀ o s, ∃ body, exec (long o) s = s.issue (F (Reg.ofLong o) s) (Reg.ofLong o) body) :
    Both short long T (fun i r => ChecksInOrder (F r) i r) :=
  both_of_issueFit F
    (fun o s => (hs o s).elim fun body h => ⟨true, 0, body, h.trans (issue_eq_issueFit s _ _ _)⟩)
    (fun o s => (hl o s).elim fun body h => ⟨true, 0, body, h.trans (issue_eq_issueFit s _ _ _)⟩)

/-! ## Words that decode to nothing, and a team that is not converged -/

/-- Words that the decoder refuses trap for the whole group with the cause of R123. -/
theorem execWords_of_reject {s : State} {e : Reject} (h : decodeWords s.ctx.w0 s.ctx.w1 = .error e) :
    s.execWords = .next (s.trapGroup (s.rejectCause s.ctx.w0)) := by
  rw [State.execWords, h]

theorem rejectCause_eq (s : State) (w0 : Word) : s.rejectCause w0 =
    if rejectsFirst w0 then 0x01 else if classOf (bitsN w0 24 7) ≠ 7 ∧ classOf (bitsN w0 24 7) ≠ s.ctx.cls then 0x04
    else if classOf (bitsN w0 24 7) = 6 ∧ s.me.priv = false then 0x13 else 0x01 := by
  simp only [State.rejectCause, Bool.not_eq_true']

/-- A scalar-pipe instruction of a team that is not converged (R31, R165). -/
theorem traps_of_diverged {x : Res} {s : State} {cls : Nat} {ok : Bool} {regs : List Nat} {body : State → Out}
    (hx : x = s.issueScalar cls ok regs body) (h : s.refusal cls ok false false = none) (hc : s.me.converged s.grp = false) :
    x = .next (s.trapNow 0x05 s.grp 0 0 0) := by
  simp only [hx, State.issueScalar, h, hc, Bool.not_false, if_true, State.trapGroup]

/-- A scalar load or store of a team that is not converged. -/
theorem scalarMem_of_diverged {s : State} {store : Bool} {o : MemSOps} (off : Int)
    (h : s.refusal 3 (scalarMemOk store o) false false = none) (hc : s.me.converged s.grp = false) :
    s.scalarMem store o true off = .next (s.trapNow 0x05 s.grp 0 0 0) := by
  unfold State.scalarMem
  exact traps_of_diverged rfl h hc

/-- A scalar operation of a team that is not converged. -/
theorem sop_of_diverged {s : State} {p : Sop} {o : SOps} (h : s.refusal 0 (sopOk o) false false = none) (hc : s.me.converged s.grp = false) :
    s.sop p o = .next (s.trapNow 0x05 s.grp 0 0 0) := by
  unfold State.sop
  exact traps_of_diverged rfl h hc

/-- Settles O44: every register form goes through one issue, which makes the checks in order. -/
theorem issueChecksInOrder : Obligations.IssueChecksInOrder := by
  refine ⟨both_of_issue (fun r _ => formIadd r) (fun _ _ => ⟨_, rfl⟩) (fun _ _ => ⟨_, rfl⟩),
    both_of_issue (fun r _ => formF2 r) (fun _ _ => ⟨_, rfl⟩) (fun _ _ => ⟨_, rfl⟩),
    both_of_issue (fun r _ => formLd r) (fun _ _ => ⟨_, rfl⟩) (fun _ _ => ⟨_, rfl⟩),
    both_of_issue (fun r _ => formRay 5 24 r) (fun _ _ => ⟨_, rfl⟩) (fun _ _ => ⟨_, rfl⟩),
    both_of_issue (fun r _ => formRay 4 9 r) (fun _ _ => ⟨_, rfl⟩) (fun _ _ => ⟨_, rfl⟩),
    both_of_issue (fun r _ => formRay 4 8 r) (fun _ _ => ⟨_, rfl⟩) (fun _ _ => ⟨_, rfl⟩),
    both_of_issue (fun r s => formCpyL s.tagCount r) (fun _ _ => ⟨_, rfl⟩) (fun _ _ => ⟨_, rfl⟩),
    both_of_issueFit (fun r _ => formCsr 0 r) (fun _ _ => ⟨_, _, _, rfl⟩) (fun _ _ => ⟨_, _, _, rfl⟩),
    both_of_issueFit (fun r s => formTret s.ctx s.me.agent r) (fun _ _ => ⟨_, _, _, rfl⟩) (fun _ _ => ⟨_, _, _, rfl⟩),
    fun s e he => ?_, fun s hc => ⟨fun o h => ⟨?_, ?_⟩, fun o h => ?_, fun sd z w1 h => ?_, fun o h => ?_⟩⟩
  · rw [execWords_of_reject he, rejectCause_eq]; rfl
  · exact sop_of_diverged (p := .add) h hc
  · exact sop_of_diverged (p := .shr) h hc
  · exact traps_of_diverged (x := execSmov o s) rfl h hc
  · exact traps_of_diverged (x := execSmoviLong sd z w1 s) rfl h hc
  · exact scalarMem_of_diverged _ h hc

end Sys2Proof.Machine
end

section
/-! A step that issues: the first group in rank order, its clause read back, and the instruction at its PC (R23, R107, R122 to R124). -/

namespace Sys2Proof.Machine

/-! ## The item at a PC -/

/-- The first element that meets a test is found at its place. -/
theorem indexOf_eq_some {α : Type} (f : α → Bool) (l : List α) (n : Nat) (x : α) (hx : l[n]? = some x) (hf : f x = true)
    (hb : ∀ m y, m < n → l[m]? = some y → f y = false) : indexOf f l = some n := by
  induction l generalizing n with
  | nil => simp at hx
  | cons a l ih =>
    cases n with
    | zero =>
      obtain rfl : a = x := by simpa using hx
      simp [indexOf, hf]
    | succ n =>
      have ha : f a = false := hb 0 a (Nat.succ_pos n) rfl
      simp only [indexOf, ha, Bool.false_eq_true, if_false,
        ih n (by simpa using hx) (fun m y hm hy => hb (m + 1) y (Nat.succ_lt_succ hm) (by simpa using hy)), Option.map_some]

/-- A group inside a clause that reads back issues the item that starts at its PC (R124). -/
theorem issueAt_of_item {p : State} {cl : Clause} {n : Nat} {x : Item} (hpc : p.ctx.pc ≠ p.ctx.hdr) (hcl : p.clauseAt p.me p.ctx.hdr = .ok cl)
    (hx : cl.items[n]? = some x) (hs : x.start = p.ctx.pc) (hb : ∀ m y, m < n → cl.items[m]? = some y → y.start ≠ p.ctx.pc) :
    p.issueAt = p.execItem (cl.ctx p.ctx.hdr n x) x.pfx := by
  have hi : indexOf (fun (y : Item) => decide (y.start = p.ctx.pc)) cl.items = some n :=
    indexOf_eq_some _ _ n x hx (decide_eq_true hs) (fun m y hm hy => decide_eq_false (hb m y hm hy))
  simp only [State.issueAt, hpc, if_false, hcl, hi, List.getD_eq_getElem?_getD, hx, Option.getD_some]

/-- Latched words that decode are executed. -/
theorem execWords_of_decode {s : State} {i : Instr} (h : decodeWords s.ctx.w0 s.ctx.w1 = .ok i) : s.execWords = exec i s := by
  rw [State.execWords, h]

/-! ## A PFX before the instruction -/

theorem latchPrefix_w0 {s q : State} {x : Word} {rnd : Nat} {sat : Bool}
    (hx : (Host.Outcome.next { s with ctx := { s.ctx with pfxw := x, rnd := rnd, sat := sat } } : Res) = .next q) : q.ctx.w0 = s.ctx.w0 := by
  obtain rfl := Host.Outcome.next.inj hx
  rfl

/-- A PFX, latched or trapped, leaves the first word of the latch alone (R121, R122). -/
theorem exec_pfx_keeps_w0 {s q : State} {rnd : BitVec 3} {sat : Bool} {z : BitVec 20} (hx : exec (.pfx rnd sat z) s = .next q) :
    q.ctx.w0 = s.ctx.w0 := by
  replace hx : execPfx rnd sat z s = .next q := hx
  unfold execPfx at hx
  split at hx
  · obtain rfl := Host.Outcome.next.inj hx
    exact congrArg Ctx.w0 (State.trapNow_ctx _ _ _ _ _ _)
  · split at hx
    · obtain rfl := Host.Outcome.next.inj hx
      exact congrArg Ctx.w0 (State.trapNow_ctx _ _ _ _ _ _)
    · exact latchPrefix_w0 hx

theorem execItem_no_pfx (s : State) (c : Ctx) : s.execItem c none = ({ s with ctx := c } : State).execWords := by
  simp only [State.execItem]

/-- Behind a PFX that has latched, the instruction's own words are executed (R122). -/
theorem execItem_of_pfx {s q : State} {c : Ctx} {w w0 w1 : Word} (h0 : w0 = c.w0) (h1 : w1 = c.w1)
    (hx : exec (.pfx (bits w 21 3) (bit w 20) (bits w 0 20)) { s with ctx := { c with last := false, w1 := w0 } } = .next q) (hq : q.ctx.pfxw ≠ 0) :
    s.execItem c (some w) = ({ q with ctx := { q.ctx with last := c.last, w1 := w1 } } : State).execWords := by
  subst h0 h1
  simp only [State.execItem, hx, hq, if_false]

/-! ## The step -/

/-- With nothing tripped and nothing on the agenda, the device does what it does by itself (log entry 80). -/
theorem step_eq_cycle {s : State} (ht : s.tripped = false) (ha : s.agenda = []) : step s = s.cycle := by
  rw [step, if_neg (by rw [ht]; exact fun h => Bool.false_ne_true h.1), State.advanceAgenda.eq_def]
  split
  · rfl
  next i rest h => exact absurd (h.symm.trans ha) (List.cons_ne_nil i rest)

/-- A turn to issue on which the groups answer takes that answer. -/
theorem cycle_of_tryGroups {s : State} {o : Res} (hn : (s.turn + 1) % 8 ≠ 0)
    (h : ({ s with turn := s.turn + 1 } : State).tryGroups ({ s with turn := s.turn + 1 } : State).choices = some o) : s.cycle = o := by
  rw [State.cycle, if_neg hn, h]

/-- The first group answers when its issue changes its team (R28). -/
theorem tryGroups_of_issues {s t : State} {c : Choice} (cs : List Choice) (hx : (s.prepare c).issueAt = .next t)
    (hm : t.me ≠ (s.prepare c).me) : s.tryGroups (c :: cs) = some (.next ((s.prepare c).after t)) := by
  simp only [State.tryGroups, hx, hm, if_false]

/-! ## Where the group stands next (R107) -/

section After
variable {cl : Clause} {h : BitVec 57} {n : Nat} {x : Item}

theorem after_inside (hn : n + 1 < cl.items.length) : cl.after h n x = (x.next, h) := by
  simp [Clause.after, Nat.ne_of_lt hn]

theorem after_last_no_trail (hn : n + 1 = cl.items.length) (ht : cl.trail = none) : cl.after h n x = (cl.next, cl.next) := by
  simp [Clause.after, hn, ht]

theorem after_last_trail {a : BitVec 57} {w : Word} (hn : n + 1 = cl.items.length) (ht : cl.trail = some (a, w)) (hx : isTransfer x.w0 = false) :
    cl.after h n x = (a, h) := by
  simp [Clause.after, hn, ht, hx]

theorem after_transfer (hn : n + 1 = cl.items.length) (hx : isTransfer x.w0 = true) : cl.after h n x = (cl.next, cl.next) := by
  cases ht : cl.trail <;> simp [Clause.after, hn, ht, hx]

end After

/-- Settles O46: the step is the issue of the first group in rank order, whose item's words are executed in the latch of its place. -/
theorem stepRunsTheDecodedInstruction : Obligations.StepRunsTheDecodedInstruction := by
  intro s c cs cl n x i t ht ha hn hc p hpc hcl hx hs hb hd at_
  have hi : p.issueAt = p.execItem at_ x.pfx := issueAt_of_item hpc hcl hx hs hb
  have hstep : ∀ u, p.issueAt = .next u → u.me ≠ p.me → step s = .next (p.after u) := fun u hu hm =>
    (step_eq_cycle ht ha).trans (cycle_of_tryGroups hn (by rw [hc]; exact tryGroups_of_issues cs hu hm))
  have hnpc : at_.npc = (cl.after p.ctx.hdr n x).1 := rfl
  have hnhdr : at_.nhdr = (cl.after p.ctx.hdr n x).2 := rfl
  refine ⟨fun hp he hm => ?_, fun w q hp hq hw he hm => ?_, rfl, rfl, rfl, rfl, rfl, rfl, rfl, fun hl => ?_, fun hl htr => ?_,
    fun a w hl htr hnt => ?_, fun hl htr => ?_⟩
  · exact hstep t (hi.trans (by rw [hp, execItem_no_pfx]; exact (execWords_of_decode (s := { p with ctx := at_ }) hd).trans he)) hm
  · have hw0 : q.ctx.w0 = x.w0 := exec_pfx_keeps_w0 hq
    have hd' : decodeWords q.ctx.w0 x.w1 = .ok i := by rw [hw0]; exact hd
    have hi' : p.execItem at_ x.pfx = ({ q with ctx := { q.ctx with last := at_.last, w1 := x.w1 } } : State).execWords := by
      rw [hp]
      exact execItem_of_pfx (w0 := x.w0) (w1 := x.w1) rfl rfl hq hw
    exact hstep t (hi.trans (hi'.trans ((execWords_of_decode (s := { q with ctx := { q.ctx with last := at_.last, w1 := x.w1 } }) hd').trans he))) hm
  · rw [hnpc, hnhdr, after_inside hl]; exact ⟨rfl, rfl⟩
  · rw [hnpc, hnhdr, after_last_no_trail hl htr]; exact ⟨rfl, rfl⟩
  · rw [hnpc, hnhdr, after_last_trail hl htr hnt]; exact ⟨rfl, rfl⟩
  · rw [hnpc, hnhdr, after_transfer hl htr]; exact ⟨rfl, rfl⟩

end Sys2Proof.Machine
end

section
/-! LNCH: the child grid, its number and its count on the flags (R14, R17, R26, R27, R271, R272). -/

namespace Sys2Proof.Machine

/-! ## An engine's reads leave the work of the machine alone -/

@[simp] theorem State.touchLine_work (s : State) (d c ln : Nat) : (s.touchLine d c ln).work = s.work := by
  simp only [State.touchLine]
  split
  · rfl
  · split
    · rfl
    · split <;> rfl

@[simp] theorem State.touch_work (s : State) (p : Point) (pa n : Nat) : (s.touch p pa n).work = s.work := by
  cases p with
  | l1 d c => exact foldl_same State.work _ _ s (fun s ln => s.touchLine_work d c ln)
  | die d => rfl
  | home => rfl

@[simp] theorem State.ownLines_work (s : State) (p : Point) (d c pa n : Nat) : (s.ownLines p d c pa n).work = s.work := by
  have flushed : ∀ (s : State) (ln : Nat),
      (if p = .home then (s.flushLine d c ln).flushDieLine d ln else s.flushLine d c ln).work = s.work := by
    intro s ln
    split
    · rw [State.flushDieLine_work, State.flushLine_work]
    · rw [State.flushLine_work]
  cases p with
  | l1 _ _ => rfl
  | die _ => exact foldl_same State.work _ _ s flushed
  | home => exact foldl_same State.work _ _ s flushed

@[simp] theorem State.readGlobal_work (s : State) (scope d c pa n : Nat) : (s.readGlobal scope d c pa n).1.work = s.work := by
  simp only [State.readGlobal]
  split
  · rfl
  · rw [State.touch_work, State.ownLines_work]

@[simp] theorem State.pieceRead_work (s : State) (x : Eng) (scope : Nat) (p : Piece) : (s.pieceRead x scope p).1.work = s.work := by
  cases p with
  | bank sp o n => simp only [State.pieceRead]; split <;> rfl
  | mem pa n va cmp => exact s.readGlobal_work scope x.die x.core pa n

theorem engRead_work {s t : State} {x : Eng} {scope a n : Nat} {sp : Space} {bs : List Byte} (h : s.engRead x scope sp a n = .ok (t, bs)) :
    t.work = s.work := by
  simp only [State.engRead] at h
  split at h
  · cases h
  · split at h
    · cases h
    · obtain ⟨rfl, -⟩ := Prod.mk.inj (Except.ok.inj h)
      exact foldl_same (fun q : State × List Byte × Bool => q.1.work) _ _ (s, [], false) (fun q p => q.1.pieceRead_work x scope p)

@[simp] theorem State.releaseBy_work (s : State) (scope : Nat) (t : Team) (m : Mask) : (s.releaseBy scope t m).work = s.work := by
  simp only [State.releaseBy]
  split
  · rw [State.release_work]
  · exact State.release_work _ _ _ _

/-- What a state with the same work has of the issuing team's grid. -/
theorem myGrid_of_work {s t : State} (h : t.work = s.work) : t.myGrid = s.myGrid := by
  obtain ⟨hme, _, _, _, hb, hg, _⟩ := work_inj h
  unfold State.myGrid State.grid State.myBlock State.block
  rw [hme, hb, hg]

/-! ## The grid accepted -/

@[simp] theorem State.deal_work (s : State) (g : Grid) (die : Nat → Nat) (n cl : Nat) (seen : List (Nat × Nat)) :
    (s.deal g die n cl seen).work = s.work := by
  induction n generalizing s cl seen with
  | zero => rfl
  | succ n ih => exact (ih _ _ _).trans (foldl_same State.work _ _ s (fun s r => s.setCore_work _ _ _))

/-- A grid accepted joins the grids, with every block of its clusters to come (R14, R376). -/
theorem launch_work (s : State) (g : Grid) (die : Nat → Nat) :
    (s.launch g die).work = ({ s with grids := s.grids ++ [{ g with left := g.units * g.kd.cluster }] } : State).work := by
  simp only [State.launch, State.deal_work]

/-- The blocks of the clusters of a grid whose extents its kernel's cluster divides are all its blocks (R12). -/
theorem units_cluster {g : Grid} (h : extentsOk g.kd g.gx g.gy g.gz = true) (hx : g.gx ≠ 0) (hy : g.gy ≠ 0) (hz : g.gz ≠ 0) :
    g.units * g.kd.cluster = g.gx * g.gy * g.gz := by
  simp only [extentsOk, Bool.and_eq_true, Bool.or_eq_true, decide_eq_true_eq, hx, hy, hz, false_or] at h
  obtain ⟨⟨⟨_, dx⟩, dy⟩, dz⟩ := h
  calc g.units * g.kd.cluster
      = (g.gx / g.kd.cx * g.kd.cx) * (g.gy / g.kd.cy * g.kd.cy) * (g.gz / g.kd.cz * g.kd.cz) := by
        rw [Grid.units, KDesc.cluster, Nat.mul_mul_mul_comm, Nat.mul_mul_mul_comm (g.gx / g.kd.cx)]
    _ = g.gx * g.gy * g.gz := by
        rw [Nat.div_mul_cancel (Nat.dvd_of_mod_eq_zero dx), Nat.div_mul_cancel (Nat.dvd_of_mod_eq_zero dy),
          Nat.div_mul_cancel (Nat.dvd_of_mod_eq_zero dz)]

/-- The child that LNCH starts for the kernel and the record it has read. -/
def State.child (s : State) (r : Reg) (k : KDesc) (card : List Byte) : Grid :=
  { lseq := s.nextLseq, proc := s.me.proc, kd := k, args := BitVec.ofNat 64 (fieldAt card 0x10 8), gx := fieldAt card 8 4,
    gy := fieldAt card 0xC 2, gz := fieldAt card 0xE 2, depth := s.myGrid.depth + 1, cls := s.myGrid.cls,
    pin := decide (fieldAt card 0x18 1 = 1), origin := .child s.myGrid.lseq s.me.id (s.ctx.selA r.fsel) (s.ctx.selB r.fsel), pre := [],
    left := 0, start := 0 }

/-- The team of the LNCH with the child's number in its result pair. -/
def State.numbered (s : State) (r : Reg) : Team := if r.d = 31 then s.me else s.me.setSpair r.d (BitVec.ofNat 64 s.nextLseq) false

/-- The team of the LNCH that waits for a child: on its flags, and among its children. -/
def State.parent (s : State) (r : Reg) : Team :=
  { ((s.numbered r).incFlags (s.ctx.selA r.fsel) (s.ctx.selB r.fsel)) with
    kids := (s.numbered r).kids ++ [{ lseq := s.nextLseq, fla := s.ctx.selA r.fsel, flb := s.ctx.selB r.fsel, held := false }] }

/-- A child with a zero extent takes its number and has retired (R14, R17). -/
theorem lnchGo_work_of_empty {s : State} {r : Reg} {k : KDesc} {card : List Byte}
    (h : fieldAt card 8 4 = 0 ∨ fieldAt card 0xC 2 = 0 ∨ fieldAt card 0xE 2 = 0) :
    (s.lnchGo r k card).work = ({ s with nextLseq := s.nextLseq + 1, me := s.numbered r } : State).work := by
  obtain ⟨hme, hgrp, hctx, hteams, hblocks, hgrids, hseq, hpres, hcfg, hup⟩ := work_inj (s.releaseBy_work 5 s.me s.grp)
  simp only [State.lnchGo]
  rw [if_pos h, State.acquire_work]
  simp only [State.work, State.numbered, hme, hgrp, hctx, hteams, hblocks, hgrids, hseq, hpres, hcfg, hup]

/-- A child with blocks joins the grids and counts on the flags (R14, R17, R26). -/
theorem lnchGo_work_of_blocks {s : State} {r : Reg} {k : KDesc} {card : List Byte}
    (h : ¬ (fieldAt card 8 4 = 0 ∨ fieldAt card 0xC 2 = 0 ∨ fieldAt card 0xE 2 = 0)) :
    (s.lnchGo r k card).work = ({ s with
      nextLseq := s.nextLseq + 1
      me := s.parent r
      grids := s.grids ++ [{ s.child r k card with left := (s.child r k card).units * k.cluster }] } : State).work := by
  obtain ⟨hme, hgrp, hctx, hteams, hblocks, hgrids, hseq, hpres, hcfg, hup⟩ := work_inj (s.releaseBy_work 5 s.me s.grp)
  simp only [State.lnchGo]
  rw [if_neg h, launch_work]
  simp only [State.work, State.numbered, State.parent, State.child, hme, hgrp, hctx, hteams, hblocks, hgrids, hseq, hpres, hcfg, hup]

/-! ## LNCH issues -/

/-- An instruction that issues under a condition on its team or group closes with what its part answers, or traps. -/
theorem issueFit_runs {s : State} {F : Form} {r : Reg} {fit : Bool} {cause : Nat} (body : State → Mask → List (List Nat) → Out)
    (h : s.runs F r = true) :
    s.issueFit F r fit cause body =
      if fit then s.close (body (s.settled F r) (s.lanes r) (s.me.targets F r)) else .next (s.trapGroup cause) := by
  have hr := runs_refusal h
  have hi := issueLanes_runs body h
  simp only [State.runs, Bool.and_eq_true, decide_eq_true_eq] at h
  obtain ⟨⟨⟨⟨⟨_, hg⟩, hl⟩, _⟩, _⟩, _⟩ := h
  have hl' : r.lanes s.me s.grp ≠ 0 := hl
  cases fit with
  | false => simp only [State.issueFit, hr, hg, hl', ne_eq, not_false_eq_true, and_self, if_true, Bool.false_eq_true, if_false]
  | true => simp only [State.issueFit, hr, Bool.true_eq_false, and_false, if_false, hi, if_true]

/-- Nothing to settle where no operand is indirect and no vector register is read. -/
theorem settled_eq_self {s : State} {F : Form} {r : Reg} (hi : r.inds = []) (hu : s.unset F r = none) : s.settled F r = s := by
  simp only [State.settled, State.settle, hi, hu, List.any_nil, Bool.false_eq_true, if_false, Option.isSome_none]

/-- LNCH has no indirect operand. -/
theorem inds_formLnch {r : Reg} (h : (formLnch r).ok r = true) : r.inds = [] := by
  simp only [Form.ok, Form.fields, formLnch, Fld.ok, List.all_cons, Bool.and_eq_true, Bool.not_eq_true'] at h
  obtain ⟨⟨_, ⟨hd, _⟩, ⟨⟨ha, _⟩, _⟩, ⟨hb, _⟩, ⟨hc, _⟩, _⟩, _⟩ := h
  simp only [Reg.inds, hd, ha, hb, hc, List.filter_cons, Bool.false_eq_true, if_false, List.filter_nil, List.map_nil]

/-- LNCH reads no vector register. -/
theorem unset_formLnch (s : State) (r : Reg) : s.unset (formLnch r) r = none := by
  simp [State.unset, Form.reads, formLnch, Fld.width, Team.unsetRead]

theorem formOk_of_runs {s : State} {F : Form} {r : Reg} (h : s.runs F r = true) : F.ok r = true := by
  have hr := runs_refusal h
  rw [State.refusal] at hr
  split at hr
  · cases hr
  · split at hr
    · cases hr
    · split at hr
      next hok => exact (Bool.and_eq_true_iff.1 hok).1
      · cases hr

theorem settled_formLnch {s : State} {r : Reg} (h : s.runs (formLnch r) r = true) : s.settled (formLnch r) r = s :=
  settled_eq_self (inds_formLnch (formOk_of_runs h)) (unset_formLnch s r)

theorem issueLnch_outside_leader {s : State} {r : Reg} (h : s.runs (formLnch r) r = true) (hl : s.grp.getLsbD 0 = false) :
    s.issueLnch r = .next (s.trapGroup 0x06) := by
  rw [State.issueLnch, issueFit_runs _ h, hl, if_neg Bool.false_ne_true]

theorem issueLnch_of_leader {s : State} {r : Reg} (h : s.runs (formLnch r) r = true) (hl : s.grp.getLsbD 0 = true) :
    s.issueLnch r = s.close (lnchBody r s (s.lanes r) (s.me.targets (formLnch r) r)) := by
  rw [State.issueLnch, issueFit_runs _ h, hl, if_pos rfl, settled_formLnch h]

section Body
variable {s s1 s2 : State} {r : Reg} {e : Mask} {tg : List (List Nat)} {card desc : List Byte}

/-- Registers of the result pair; none under 31. -/
def Reg.numberPair (r : Reg) : List Nat := if r.d = 31 then [] else [r.d, r.d + 1]

theorem lnchBody_of_poisoned (hb : s.me.scalarsBusy ([r.a, r.a + 1] ++ r.numberPair) = false) (hp : s.me.spairPois r.a = true) :
    lnchBody r s e tg = .trap 0x08 1 0 0 0 := by
  simp only [Reg.numberPair] at hb
  simp only [lnchBody, hb, hp, Bool.false_eq_true, if_false, if_true]

theorem lnchBody_of_misaligned (hb : s.me.scalarsBusy ([r.a, r.a + 1] ++ r.numberPair) = false) (hp : s.me.spairPois r.a = false)
    (ha : (s.me.spair r.a).toNat % 64 ≠ 0) : lnchBody r s e tg = .trap 0x09 1 0 (s.me.spair r.a) 0 := by
  simp only [Reg.numberPair] at hb
  simp only [lnchBody, hb, hp, ha, Bool.false_eq_true, if_false, ne_eq, not_false_eq_true, if_true]

theorem lnchBody_of_too_deep (hb : s.me.scalarsBusy ([r.a, r.a + 1] ++ r.numberPair) = false) (hp : s.me.spairPois r.a = false)
    (ha : (s.me.spair r.a).toNat % 64 = 0) (hd : s.myGrid.depth = 10) : lnchBody r s e tg = .trap 0x0D s.grp 0 0 0 := by
  simp only [Reg.numberPair] at hb
  simp only [lnchBody, hb, hp, ha, hd, Bool.false_eq_true, if_false, ne_eq, not_true_eq_false, if_true]

/-- LNCH has come past the checks of its pair, of its depth and of its flags, its team's accesses have performed, and it has read its
record and the kernel descriptor that the record names (R272). -/
structure HasRead (s : State) (r : Reg) (s1 s2 : State) (card desc : List Byte) : Prop where
  free : s.me.scalarsBusy ([r.a, r.a + 1] ++ r.numberPair) = false
  clean : s.me.spairPois r.a = false
  aligned : (s.me.spair r.a).toNat % 64 = 0
  shallow : s.myGrid.depth ≠ 10
  room : s.flagsRoom r.fsel = true
  idle : ((s.me.entries.drop s.me.suspended).all (fun x => x.dropped || !x.work.accesses)) = true
  record : s.engRead (engOf s.me s.me.priv) 5 .global (s.me.spair r.a).toNat 64 = .ok (s1, card)
  kernel : s1.engRead (engOf s.me s.me.priv) 5 .global (fieldAt card 0 8) 128 = .ok (s2, desc)

/-- The record and the kernel obey the rules of R271, and the pool and the die hold a cluster of the kernel (R408, R437). -/
def State.childAllowed (s : State) (card : List Byte) (k : KDesc) : Bool :=
  recordOk card && decide (fieldAt card 0 8 % 128 = 0) && extentsOk k (fieldAt card 8 4) (fieldAt card 0xC 2) (fieldAt card 0xE 2) &&
    decide (k.cx * k.cy * k.cz * poolBytes k ≤ (s.handlerEntry s.me.die s.me.core s.me.proc).2.2) && s.clusterFits s.me.die k

theorem HasRead.work (h : HasRead s r s1 s2 card desc) : s2.work = s.work := (engRead_work h.kernel).trans (engRead_work h.record)

theorem HasRead.body (h : HasRead s r s1 s2 card desc) :
    lnchBody r s e tg = match parseKDesc desc with
      | none => .trap 0x01 s.grp 0 0 0
      | some k => if s.childAllowed card k then .go (s2.lnchGo r k card) else .trap 0x01 s.grp 0 0 0 := by
  have hb := h.free
  have hi : (s.me.entries.drop s.me.suspended).any (fun x => !x.dropped && x.work.accesses) = false := by
    rw [← Bool.not_eq_true', List.not_any_eq_all_not]
    simpa only [Bool.not_and, Bool.not_not] using h.idle
  simp only [Reg.numberPair] at hb
  simp only [lnchBody, hb, h.clean, h.aligned, h.shallow, h.room, hi, h.record, h.kernel, Bool.false_eq_true, if_false, ne_eq,
    not_true_eq_false, Bool.not_true, Bool.or_self]
  cases parseKDesc desc with
  | none => rfl
  | some k =>
    have hx : (!recordOk card || decide (¬ fieldAt card 0 8 % 128 = 0) ||
        !extentsOk k (fieldAt card 8 4) (fieldAt card 0xC 2) (fieldAt card 0xE 2) || !s.poolHolds s.me.die s.me.core s.me.proc k ||
        !s.clusterFits s.me.die k) = !s.childAllowed card k := by
      simp only [State.childAllowed, State.poolHolds, Bool.not_and, decide_not]
    simp only [hx]
    cases s.childAllowed card k <;> rfl

end Body

/-! ## What an accepted LNCH leaves -/

theorem sreg_setSpair (t : Team) (d n : Nat) (v : DWord) (hn : n < 24) :
    (t.setSpair d v false).sreg n = (pairOf d v n).getD (t.sreg n) := by
  simp only [Team.setSpair, Team.setSreg, Team.sreg, putAt_getD, if_pos hn, pairOf]
  by_cases h1 : n = d + 1
  · rw [if_pos h1, if_neg (by omega), if_pos h1, Option.getD_some]
  · rw [if_neg h1, if_neg h1]
    split <;> rfl

theorem onward_of_direct {s : State} {r : Reg} (hi : r.inds = []) (l : Nat) :
    s.onward r l = if s.grp.getLsbD l then { s.me.thread l with pc := s.ctx.npc, hdr := s.ctx.nhdr } else s.me.thread l := by
  simp only [State.onward, hi, List.any_nil, Bool.false_and, Bool.false_eq_true, if_false]

/-- The team of an accepted LNCH: the child's number in the result pair, and no other register changed. -/
structure TookNumber (s : State) (r : Reg) (t : Team) : Prop where
  width : t.width = s.me.width
  entries : t.entries = s.me.entries
  vregs : t.vregs = s.me.vregs
  mregs : t.mregs = s.me.mregs
  threads : t.threads = s.me.threads
  sreg : ∀ n, n < 24 → t.sreg n = if r.d = 31 then s.me.sreg n else (pairOf r.d (BitVec.ofNat 64 s.nextLseq) n).getD (s.me.sreg n)

theorem numbered_tookNumber (s : State) (r : Reg) : TookNumber s r (s.numbered r) := by
  unfold State.numbered
  by_cases hd : r.d = 31
  · rw [if_pos hd]
    exact ⟨rfl, rfl, rfl, rfl, rfl, fun n _ => by rw [if_pos hd]⟩
  · rw [if_neg hd]
    exact ⟨rfl, rfl, rfl, rfl, rfl, fun n hn => by rw [if_neg hd, sreg_setSpair _ _ _ _ hn]⟩

theorem parent_tookNumber (s : State) (r : Reg) : TookNumber s r (s.parent r) := by
  obtain ⟨hw, he, hv, hm, ht, hs⟩ := numbered_tookNumber s r
  exact ⟨hw, he, hv, hm, ht, hs⟩

theorem numbered_flags (s : State) (r : Reg) : (s.numbered r).flags = s.me.flags := by
  unfold State.numbered
  split <;> rfl

theorem numbered_kids (s : State) (r : Reg) : (s.numbered r).kids = s.me.kids := by
  unfold State.numbered
  split <;> rfl

theorem incFlags_flags_congr {t u : Team} (h : t.flags = u.flags) (a b : Nat) : (t.incFlags a b).flags = (u.incFlags a b).flags := by
  simp only [Team.incFlags, h]

/-- The group behind the LNCH: its registers as the launch left them, its lanes at the next instruction. -/
theorem advance_tookNumber {s u : State} {r : Reg} (hi : r.inds = []) (hg : u.grp = s.grp) (hc : u.ctx = s.ctx) (hu : TookNumber s r u.me) :
    u.advance.me.entries = s.me.entries ∧ u.advance.me.vregs = s.me.vregs ∧ u.advance.me.mregs = s.me.mregs ∧
    (∀ n, n < 24 → u.advance.me.sreg n =
      if r.d = 31 then s.me.sreg n else (pairOf r.d (BitVec.ofNat 64 s.nextLseq) n).getD (s.me.sreg n)) ∧
    (∀ l, l < s.me.width → u.advance.me.thread l = s.onward r l) := by
  refine ⟨hu.entries, hu.vregs, hu.mregs, hu.sreg, fun l hl => ?_⟩
  have ht : u.me.thread l = s.me.thread l := congrArg (·.getD l Thread.gone) hu.threads
  rw [onward_of_direct hi, ← hg, ← hc, ← ht]
  exact thread_mapThreads _ _ _ _ (hu.width.symm ▸ hl)

/-- The states of the same work number their children, and the teams that wait for them, alike. -/
theorem child_of_work {s s2 : State} (h : s2.work = s.work) (r : Reg) (k : KDesc) (card : List Byte) :
    s2.numbered r = s.numbered r ∧ s2.parent r = s.parent r ∧ s2.child r k card = s.child r k card ∧ s2.nextLseq = s.nextLseq ∧
    s2.grids = s.grids ∧ s2.grp = s.grp ∧ s2.ctx = s.ctx := by
  have hgrid := myGrid_of_work h
  obtain ⟨hme, hgrp, hctx, _, _, hgrids, hseq, _⟩ := work_inj h
  simp only [State.numbered, State.parent, State.child, hgrid, hme, hgrp, hctx, hgrids, hseq, and_self]

theorem issueLnch_accepted {s s1 s2 : State} {r : Reg} {card desc : List Byte} {k : KDesc} (h : s.runs (formLnch r) r = true)
    (hl : s.grp.getLsbD 0 = true) (hr : HasRead s r s1 s2 card desc) (hk : parseKDesc desc = some k) (hc : s.childAllowed card k = true) :
    s.issueLnch r = .next (s2.lnchGo r k card).advance := by
  rw [issueLnch_of_leader h hl, hr.body, hk]
  simp only [hc, if_true, State.close]

theorem issueLnch_broken {s s1 s2 : State} {r : Reg} {card desc : List Byte} (h : s.runs (formLnch r) r = true)
    (hl : s.grp.getLsbD 0 = true) (hr : HasRead s r s1 s2 card desc) (hc : ∀ k, parseKDesc desc = some k → s.childAllowed card k = false) :
    s.issueLnch r = .next (s.trapNow 0x01 s.grp 0 0 0) := by
  rw [issueLnch_of_leader h hl, hr.body]
  cases hk : parseKDesc desc with
  | none => rfl
  | some k => simp only [hc k hk, Bool.false_eq_true, if_false, State.close]

/-- Both lengths of an instruction that `f` executes. -/
theorem both_of_exec {short : ShortOps → Instr} {long : LongOps → Instr} {T : Nat} {P : Instr → Reg → Prop} {f : Reg → State → Res}
    (hs : ∀ o s, exec (short o) s = f (Reg.ofShort T o) s) (hl : ∀ o s, exec (long o) s = f (Reg.ofLong o) s)
    (h : ∀ i r, (∀ s, exec i s = f r s) → P i r) : Both short long T P :=
  ⟨fun o => h _ _ (hs o), fun o => h _ _ (hl o)⟩

/-- What an accepted LNCH leaves whatever the child's extents. -/
theorem lnchGo_tookNumber {s s2 : State} (hw : s2.work = s.work) (r : Reg) (k : KDesc) (card : List Byte) :
    (s2.lnchGo r k card).advance.nextLseq = s.nextLseq + 1 ∧
    (s2.lnchGo r k card).grp = s.grp ∧ (s2.lnchGo r k card).ctx = s.ctx ∧ TookNumber s r (s2.lnchGo r k card).me := by
  obtain ⟨hn, hp, _, hseq, _, hgrp, hctx⟩ := child_of_work hw r k card
  by_cases hz : fieldAt card 8 4 = 0 ∨ fieldAt card 0xC 2 = 0 ∨ fieldAt card 0xE 2 = 0
  · obtain ⟨hme, hg, hc, _, _, _, hs, _⟩ := work_inj (lnchGo_work_of_empty (s := s2) (r := r) (k := k) hz)
    exact ⟨hs.trans (congrArg (· + 1) hseq), hg.trans hgrp, hc.trans hctx, hme ▸ hn ▸ numbered_tookNumber s r⟩
  · obtain ⟨hme, hg, hc, _, _, _, hs, _⟩ := work_inj (lnchGo_work_of_blocks (s := s2) (r := r) (k := k) hz)
    exact ⟨hs.trans (congrArg (· + 1) hseq), hg.trans hgrp, hc.trans hctx, hme ▸ hp ▸ parent_tookNumber s r⟩

/-- Settles O34: the checks of R272 in their order, then the child that `lnchGo` starts. -/
theorem launchesStartChildren : Obligations.LaunchesStartChildren := by
  unfold Obligations.LaunchesStartChildren
  refine both_of_exec (f := fun r s => s.issueLnch r) (fun _ _ => rfl) (fun _ _ => rfl) (fun i r hx s => ?_)
  intro F ds a hruns
  refine ⟨fun hl => (hx s).trans (issueLnch_outside_leader hruns hl), fun hl hb => ⟨fun hp => ?_, fun hp ha => ?_, fun hp ha hd => ?_,
    fun hp ha hd hroom hidle s1 s2 card desc hcard hdesc => ?_⟩⟩
  · rw [hx, issueLnch_of_leader hruns hl, lnchBody_of_poisoned hb hp]; rfl
  · rw [hx, issueLnch_of_leader hruns hl, lnchBody_of_misaligned hb hp ha]; rfl
  · rw [hx, issueLnch_of_leader hruns hl, lnchBody_of_too_deep hb hp ha hd]; rfl
  · have hread : HasRead s r s1 s2 card desc := ⟨hb, hp, ha, hd, hroom, hidle, hcard, hdesc⟩
    intro gx gy gz good
    refine ⟨fun hbad => (hx s).trans (issueLnch_broken hruns hl hread hbad), fun k hk hgood => ?_⟩
    have hi := inds_formLnch (formOk_of_runs hruns)
    obtain ⟨hseq, hg, hc, htook⟩ := lnchGo_tookNumber hread.work r k card
    obtain ⟨he, hv, hm, hs, ht⟩ := advance_tookNumber hi hg hc htook
    obtain ⟨hn, hpar, hch, hsq, hgr, _, _⟩ := child_of_work hread.work r k card
    refine ⟨_, (hx s).trans (issueLnch_accepted hruns hl hread hk hgood), hseq, he, hv, hm, hs, ht, fun hz => ?_, fun hnx hny hnz => ?_⟩
    · obtain ⟨hme, _, _, _, _, hgrids, _⟩ := work_inj (lnchGo_work_of_empty (s := s2) (r := r) (k := k) hz)
      rw [hn] at hme
      exact ⟨hgrids.trans hgr, (congrArg Team.kids hme).trans (numbered_kids s r), (congrArg Team.flags hme).trans (numbered_flags s r)⟩
    · obtain ⟨hme, _, _, _, _, hgrids, _⟩ := work_inj (lnchGo_work_of_blocks (s := s2) (r := r) (k := k)
        (fun h => h.elim hnx (fun h => h.elim hny hnz)))
      rw [hpar] at hme
      rw [hch, hgr] at hgrids
      refine ⟨(congrArg Team.kids hme).trans ?_, (congrArg Team.flags hme).trans (incFlags_flags_congr (numbered_flags s r) _ _), _, hgrids,
        rfl, rfl, rfl, rfl, rfl, rfl, rfl, rfl, ?_⟩
      · rw [State.parent, numbered_kids]
      · refine units_cluster (g := s.child r k card) ?_ hnx hny hnz
        simp only [good, Bool.and_eq_true] at hgood
        obtain ⟨⟨⟨_, hext⟩, _⟩, _⟩ := hgood
        exact hext

end Sys2Proof.Machine
end

section
/-! A device's write to a compressed block performs the write of a team that waits there (R105, R306): it changes that team. -/

namespace Sys2Proof.Machine

/-! ## The controller of a block -/

theorem ctlOf_of_work {s t : State} (h : t.work = s.work) (pa : Nat) : t.ctlOf pa = s.ctlOf pa := by
  obtain ⟨_, _, _, _, _, _, _, hpres, hcfg, hup⟩ := work_inj h
  unfold State.ctlOf State.target State.hasDie State.memOf
  rw [hpres, hcfg, hup]

theorem team_of_work {s t : State} (h : t.work = s.work) (i : Nat) : t.team i = s.team i := by
  obtain ⟨hme, _, _, hteams, _⟩ := work_inj h
  unfold State.team
  rw [hme, hteams]

theorem getD_setAt {α : Type} (d : α) (l : List α) (n : Nat) (x : α) (h : n < l.length) : (setAt l n x).getD n d = x := by
  induction l generalizing n with
  | nil => cases h
  | cons a l ih =>
    cases n with
    | zero => rfl
    | succ n => exact ih n (Nat.lt_of_succ_lt_succ h)

/-- A controller whose LOW is up raises no event when it is replaced (R407). -/
theorem ctl_setCtl_of_low {s : State} {d k : Nat} (hd : tabWf s.dies = true) (hk : k < (s.die d).ctls.length) (hl : (s.ctl d k).low = true)
    (c : Ctl) : ∃ low, (s.setCtl d k c).ctl d k = { c with low := low } := by
  have hl' : ((s.die d).ctls.getD k Ctl.reset).low = true := hl
  refine ⟨decide (c.free < ((s.die d).reg 0x21E).toNat ∨ c.reserve < 2048), ?_⟩
  unfold State.setCtl
  extract_lets x low was t
  have hw : (low && !was) = false := by simp only [was, x, hl', Bool.not_true, Bool.and_false]
  rw [hw, if_neg Bool.false_ne_true]
  have hx : t.die d = { x with ctls := setAt x.ctls k { c with low := low } } := by
    simp only [t, State.die, State.setDie, defGet_defSet Die.reset hd, if_pos]
  rw [State.ctl, hx]
  exact getD_setAt _ _ _ _ hk

/-- A controller with eight chunks free stores any block (R305, R307). -/
theorem store_of_room {c : Ctl} {blk need : Nat} (hc : 8 ≤ c.free) (hn : need ≤ 8) : ∃ c', c.store blk need = some c' := by
  unfold Ctl.store
  extract_lets have_ cs back r want
  split
  · exact ⟨_, rfl⟩
  · rw [if_pos (show want ≤ c.free by omega)]
    exact ⟨_, rfl⟩

/-! ## A write performed -/

/-- A held write of the device itself belongs to no team. -/
theorem heldDone_of_device {s : State} {x : HeldWrite} (hi : x.irq = none) (hc : x.core = none) (ht : x.team = 0) : s.heldDone x = s := by
  unfold State.heldDone
  simp only [hi, hc, ht, State.team, if_true]

/-- A write of a team waits at the controller of the block that holds the byte at `pa`, alone, with LOW up there and chunks for any block. -/
structure WriteWaits (s : State) (pa : Nat) (x : HeldWrite) (t : Team) (e : Entry) : Prop where
  dies : tabWf s.dies = true
  home : s.ctlOf (pa / 512 * 512) = s.ctlOf pa
  ctl : (s.ctlOf pa).2 < (s.die (s.ctlOf pa).1).ctls.length
  held : (s.ctl (s.ctlOf pa).1 (s.ctlOf pa).2).held = [x]
  low : (s.ctl (s.ctlOf pa).1 (s.ctlOf pa).2).low = true
  room : 8 ≤ (s.ctl (s.ctlOf pa).1 (s.ctlOf pa).2).free
  block : x.pa / 512 = pa / 512
  team : s.team x.team = some t
  entry : t.entries.find? (fun e => decide (e.order = x.entry)) = some e
  work : ∀ n, e.work ≠ .rflush n

/-- The write that waits, performed, takes its lane off its entry. -/
theorem WriteWaits.heldDone {s T : State} {pa : Nat} {x : HeldWrite} {t : Team} {e : Entry} (h : WriteWaits s pa x t e) (hT : T.work = s.work) :
    ∃ U : State, U.work = s.work ∧ T.heldDone x = U.setTeam (t.heldLane e x.lane) := by
  unfold State.heldDone
  extract_lets A U
  have hA : A.work = T.work := by
    simp only [A]
    split <;> rfl
  have hU : U.work = s.work := by
    refine Eq.trans ?_ (hA.trans hT)
    simp only [U]
    split
    · exact A.dropBlock_work _ _ _
    · rfl
  have ht : U.team x.team = some t := (team_of_work hU _).trans h.team
  refine ⟨U, hU, ?_⟩
  simp only [ht, h.entry]
  split
  next n hw => exact absurd hw (h.work n)
  · rfl

/-- A write of the device put to the controller stands there behind the write that waits. -/
theorem WriteWaits.hold {s : State} {x y : HeldWrite} {t : Team} {e : Entry} (h : WriteWaits s y.pa x t e) (hc : y.core = none) :
    ((s.hold y).ctl (s.ctlOf y.pa).1 (s.ctlOf y.pa).2).held = [x, y] ∧ 8 ≤ ((s.hold y).ctl (s.ctlOf y.pa).1 (s.ctlOf y.pa).2).free := by
  have hh : s.hold y = s.setCtl (s.ctlOf y.pa).1 (s.ctlOf y.pa).2 { s.ctl (s.ctlOf y.pa).1 (s.ctlOf y.pa).2 with held := [x, y] } := by
    simp only [State.hold, hc, h.held, List.cons_append, List.nil_append]
  obtain ⟨low, hl⟩ := ctl_setCtl_of_low h.dies h.ctl h.low { s.ctl (s.ctlOf y.pa).1 (s.ctlOf y.pa).2 with held := [x, y] }
  rw [hh, hl]
  exact ⟨rfl, h.room⟩

/-- The device's write and the one that waits are merged into their block, and performed (R105, R306). -/
theorem WriteWaits.mergeHeld {s : State} {x y : HeldWrite} {t : Team} {e : Entry} (h : WriteWaits s y.pa x t e) (hi : y.irq = none)
    (hc : y.core = none) (ht : y.team = 0) :
    ∃ U : State, U.work = s.work ∧
      (s.hold y).mergeHeld (s.ctlOf y.pa).1 (s.ctlOf y.pa).2 (y.pa / 512) = some (U.setTeam (t.heldLane e x.lane)) := by
  obtain ⟨hheld, hfree⟩ := h.hold hc
  have hw := s.hold_work y
  have hctl : (s.hold y).ctlOf (y.pa / 512 * 512) = s.ctlOf y.pa := (ctlOf_of_work hw _).trans h.home
  have hmerge : ∃ m, (s.hold y).mergeBlock [x, y] (y.pa / 512) = some m := by
    simp only [State.mergeBlock, hctl]
    generalize hch : chunksFor _ = need
    obtain ⟨c, hst⟩ := store_of_room (blk := y.pa / 512) (need := need) hfree (by rw [← hch, chunksFor]; omega)
    rw [hst]
    exact ⟨_, rfl⟩
  obtain ⟨m, hm⟩ := hmerge
  have hmine : ([x, y] : List HeldWrite).filter (fun z => decide (z.pa / 512 = y.pa / 512)) = [x, y] := by
    simp only [List.filter_cons, h.block, decide_true, if_true, List.filter_nil]
  let c := m.ctl (s.ctlOf y.pa).1 (s.ctlOf y.pa).2
  let T := m.setCtl (s.ctlOf y.pa).1 (s.ctlOf y.pa).2
    { c with held := c.held.filter (fun z => decide (z.pa / 512 ≠ y.pa / 512)), stall := false }
  have hT : T.work = s.work := (State.setCtl_work m _ _ _).trans ((State.mergeBlock_work hm).trans hw)
  obtain ⟨U, hU, hdone⟩ := h.heldDone hT
  refine ⟨U, hU, ?_⟩
  rw [← hdone, ← heldDone_of_device (s := T.heldDone x) hi hc ht]
  unfold State.mergeHeld
  rw [hheld, hmine]
  dsimp only
  rw [hm]
  rfl

/-- Bytes that lie in one 512-byte block are one part. -/
theorem blockParts_of_one_block {pa : Nat} {bs : List Byte} (h0 : 0 < bs.length) (h : pa % 512 + bs.length ≤ 512) :
    blockParts pa bs = [(0, bs)] := by
  have hn : (pa + bs.length - 1) / 512 - pa / 512 + 1 = 1 := by omega
  have hl : bs.length ≤ (pa / 512 + 0 + 1) * 512 - pa := by omega
  rw [blockParts, if_neg (Nat.ne_of_gt h0), hn]
  simp only [List.range_one, List.map_cons, List.map_nil, if_true, Nat.sub_self, List.drop_zero, List.take_of_length_le hl]

/-- What the device writes to one block where a team's write waits performs that write, and changes its team. -/
theorem WriteWaits.writeBlocks {s : State} {proc va pa : Nat} {bs : List Byte} {x : HeldWrite} {t : Team} {e : Entry} (h : WriteWaits s pa x t e)
    (h0 : 0 < bs.length) (hb : pa % 512 + bs.length ≤ 512) :
    ∃ T : State, T.work = s.work ∧ s.writeBlocks proc va pa bs = T.setTeam (t.heldLane e x.lane) := by
  let y : HeldWrite :=
    { team := 0, entry := 0, lane := 0, grid := 0, proc := proc, core := none, va := va + 0, pa := pa + 0, data := bs, irq := none }
  have h' : WriteWaits s y.pa x t e := h
  obtain ⟨T, hT, hm⟩ := h'.mergeHeld rfl rfl rfl
  obtain ⟨hheld, _⟩ := h'.hold rfl
  have hctl : (s.hold y).ctlOf y.pa = s.ctlOf y.pa := ctlOf_of_work (s.hold_work y) _
  have hin : (s.hold y).blockHeld y.pa = true := by
    unfold State.blockHeld Ctl.table
    rw [hctl, hheld]
    simp only [List.map_cons, List.map_nil, h'.block]
    simp [List.eraseDups_cons]
  refine ⟨T, hT, ?_⟩
  have hone : s.writeBlocks proc va pa bs =
      if (s.hold y).blockHeld y.pa then
        ((s.hold y).mergeHeld ((s.hold y).ctlOf y.pa).1 ((s.hold y).ctlOf y.pa).2 (y.pa / 512)).getD (s.hold y) else s.hold y := by
    rw [State.writeBlocks, blockParts_of_one_block h0 hb]
    rfl
  rw [hone, if_pos hin, hctl, hm, Option.getD_some]

/-! ## Through the process's tables -/

/-- Bytes that lie in one page are one piece, where the page's translation puts it. -/
theorem spanPa_of_one_page {s : State} {d c p kind va n pa : Nat} {prv cmp : Bool} (h0 : n ≠ 0) (hp : va % 65536 + n ≤ 65536)
    (ht : s.translate d c p prv kind (BitVec.ofNat 64 va) = .ok pa cmp) (hg : s.target (pa + n - 1) ≠ .none) :
    s.spanPa d c p prv kind va n = .ok [(pa, n, cmp)] := by
  have hpages : pageOf (va + n - 1) - pageOf va + 1 = 1 := by unfold pageOf; omega
  have hhi : min (va + n) ((pageOf va + 0 + 1) * 65536) - va = n := by unfold pageOf; omega
  unfold State.spanPa
  rw [if_neg h0, hpages]
  simp only [List.range_one, List.foldl_cons, List.foldl_nil, if_true, ht, hhi, hg, if_false, List.nil_append]

theorem writeVirt_of_compressed_page {s : State} {d c p va pa : Nat} {prv : Bool} {bs : List Byte}
    (h : s.spanPa d c p prv kindWrite va bs.length = .ok [(pa, bs.length, true)]) :
    s.writeVirt d c p prv va bs = .ok (s.writeBlocks p va pa bs) := by
  unfold State.writeVirt
  rw [h]
  simp only [List.foldl_cons, List.foldl_nil, List.take_length, if_true]

theorem writeVirt_of_plain_page {s : State} {d c p va pa : Nat} {prv : Bool} {bs : List Byte}
    (h : s.spanPa d c p prv kindWrite va bs.length = .ok [(pa, bs.length, false)]) :
    s.writeVirt d c p prv va bs = .ok (s.homeWrite pa bs) := by
  unfold State.writeVirt
  rw [h]
  simp only [List.foldl_cons, List.foldl_nil, List.take_length, Bool.false_eq_true, if_false]

/-! ## A team whose store waits -/

/-- A compressed page that a process writes at its own physical address. -/
def compressedPage (at_ : Nat) : TlbEntry :=
  { proc := 1, va := at_, log2 := 16, pa := at_, w := true, x := false, prv := false, cmp := true }

/-- The entry of a 32-bit store of lane 0, issued and not yet performed. -/
def laneStore (at_ : Nat) : Entry :=
  { State.reset.entry 0 1 []
      (.store { space := .global, scope := 5, acq := false, rel := false, esz := 4, cnt := 1, ty := 0, fmt := false, nf := false }) with
    addr := [BitVec.ofNat 64 at_], data := [[1]] }

/-- The store of a team's lane 0 to an address, as it waits at the controller (R306). -/
def laneWrite (team at_ : Nat) : HeldWrite :=
  { team := team, entry := 0, lane := 0, grid := 1, proc := 1, core := some (0, 0), va := at_, pa := at_, data := leBytes 4 1, irq := none }

/-- A die with one write waiting at its first controller, where the chunks are low but not out. -/
def dieHolding (x : HeldWrite) : Die :=
  { Die.reset with
    ctls := [{ Ctl.reset with free := 100, low := true, held := [x], chunks := [(x.pa / 512, 8)] }, Ctl.reset, Ctl.reset, Ctl.reset] }

/-- A team of eight lanes whose store waits at the controller. -/
def storingTeam (at_ : Nat) : Team := { fetchTeam with entries := [laneStore at_], nextOrder := 1 }

end Sys2Proof.Machine
end

section
/-! MXAL whose save-area header lies in a compressed block where a store of its own team waits (R105, R306, R420). -/

namespace Sys2Proof.Machine

/-- The block of a team, with no tile yet. -/
def savedBlock : Block := { Block.none with id := 1, grid := 1, nteams := 1, accMax := 4, bsave := 0x10000 }

/-- The team about to issue an MXAL.alloc of one tile. -/
def beforeMxal : State :=
  { State.reset with
    me := storingTeam 0x10080
    grp := 0xFF
    ctx := { Ctx.reset with cls := 4 }
    blocks := [savedBlock]
    cores := [(0, { Core.reset with tlb := [compressedPage 0x10000] })]
    dies := [(0, dieHolding (laneWrite 1 0x10080))] }

/-- The machine as MXAL writes the new count of tiles into the save area. -/
def withTile : State := beforeMxal.setBlock { savedBlock with acc := [AccTile.zero] }

theorem withTile_waits : WriteWaits withTile 0x10014 (laneWrite 1 0x10080) (storingTeam 0x10080) (laneStore 0x10080) where
  dies := by decide +kernel
  home := by decide +kernel
  ctl := by decide +kernel
  held := by decide +kernel
  low := by decide +kernel
  room := by decide +kernel
  block := by decide +kernel
  team := by decide +kernel
  entry := by decide +kernel
  work := fun n h => by cases h

theorem withTile_spanPa : withTile.spanPa 0 0 1 true kindWrite 0x10014 4 = .ok [(0x10014, 4, true)] :=
  spanPa_of_one_page (by decide) (by decide) (by decide +kernel) (by decide +kernel)

/-- The write of the count performs the team's own store. -/
theorem withTile_writePieces : ∃ u, withTile.writePieces (storingTeam 0x10080) 0x10000 [(0x14, leBytes 4 1)] = .ok u ∧ u.me.entries = [] := by
  obtain ⟨T, hT, hw⟩ := withTile_waits.writeBlocks (proc := 1) (va := 0x10014) (bs := leBytes 4 1) (by decide) (by decide)
  refine ⟨T.setTeam ((storingTeam 0x10080).heldLane (laneStore 0x10080) 0), ?_, ?_⟩
  · exact (writeVirt_of_compressed_page (bs := leBytes 4 1) withTile_spanPa).trans (congrArg Acc.ok hw)
  · obtain ⟨hme, _⟩ := work_inj hT
    unfold State.setTeam
    rw [hme, if_pos (by decide +kernel)]
    change ((storingTeam 0x10080).heldLane (laneStore 0x10080) 0).entries = []
    decide +kernel

/-- Refutes O36: the count that MXAL.alloc writes into the save area's header merges into a compressed block, and what waits there with it: a store
of the team itself is performed, so the write does not leave the team as it was. -/
theorem not_accumulatorsAllocated : ¬ Obligations.AccumulatorsAllocated := by
  unfold Obligations.AccumulatorsAllocated
  intro h
  obtain ⟨⟨alloc, _⟩, _⟩ := h
  obtain ⟨_, grows⟩ := alloc ⟨31, 0, 1⟩ beforeMxal savedBlock (by decide +kernel) (by decide +kernel) (by decide +kernel)
  obtain ⟨stored, _⟩ := grows (by decide +kernel)
  obtain ⟨u, hu, he⟩ := withTile_writePieces
  obtain ⟨t, _, hme, _⟩ := stored u hu (by decide +kernel)
  rw [hme] at he
  cases he

end Sys2Proof.Machine
end

section
/-! A team that retires while its image's page is compressed and a store of another team waits in a block of it (R46, R105, R306). -/

namespace Sys2Proof.Machine

/-! ## A write home that no cache has a record of -/

/-- A byte written home where no core and no die holds a written byte changes memory alone. -/
theorem putHome_of_quiet {s : State} (hc : ∀ p ∈ s.cores, p.2.dirty = []) (hd : ∀ p ∈ s.dies, p.2.dirty = []) (pa : Nat) (b : Byte) :
    s.putHome pa b = { s with mem := defSet emptyByte s.mem pa b } := by
  have hcores : s.cores.map (fun p => if true = true then (p.1, { p.2 with dirty := tabDel p.2.dirty pa }) else p) = s.cores := by
    refine (List.map_congr_left (fun p hp => ?_)).trans (List.map_id s.cores)
    rw [if_pos rfl, hc p hp, tabDel, ← hc p hp]
    rfl
  have hdies : s.dies.map (fun p => (p.1, { p.2 with dirty := tabDel p.2.dirty pa })) = s.dies := by
    refine (List.map_congr_left (fun p hp => ?_)).trans (List.map_id s.dies)
    rw [hd p hp, tabDel, ← hd p hp]
    rfl
  unfold State.putHome State.dropL1 State.dropDie
  dsimp only
  rw [hcores, hdies]

/-- A machine with other contents of memory, and other lines poisoned there. -/
def State.withMemory (s : State) (mem : List (Nat × Byte)) (bad : List (Nat × Bool)) : State := { s with mem := mem, bad := bad }

theorem homeWrite_of_quiet {s : State} (hc : ∀ p ∈ s.cores, p.2.dirty = []) (hd : ∀ p ∈ s.dies, p.2.dirty = []) (pa : Nat) (bs : List Byte) :
    ∃ mem bad, s.homeWrite pa bs = s.withMemory mem bad := by
  have written : ∀ (l : List (Nat × Byte)) (m : List (Nat × Byte)), ∃ mem,
      l.foldl (fun (s : State) ib => s.putByte .home (pa + ib.1) ib.2) { s with mem := m } = { s with mem := mem } := by
    intro l
    induction l with
    | nil => exact fun m => ⟨m, rfl⟩
    | cons x l ih =>
      intro m
      rw [List.foldl_cons, State.putByte, putHome_of_quiet (s := { s with mem := m }) hc hd]
      exact ih _
  obtain ⟨mem, hm⟩ := written (mapIx (fun i b => (i, b)) bs) s.mem
  refine ⟨mem, s.bad.filter (fun p => !lineCovered [(pa, bs.length)] p.1), ?_⟩
  rw [State.homeWrite, State.putBytes]
  exact congrArg (fun s : State => s.cleanLines [(pa, bs.length)]) hm

/-- A write that waits does so whatever memory holds. -/
theorem WriteWaits.of_memory {s : State} {pa : Nat} {x : HeldWrite} {t : Team} {e : Entry} (h : WriteWaits s pa x t e) (mem : List (Nat × Byte))
    (bad : List (Nat × Bool)) : WriteWaits (s.withMemory mem bad) pa x t e :=
  ⟨h.dies, h.home, h.ctl, h.held, h.low, h.room, h.block, h.team, h.entry, h.work⟩

/-- The device's writes through a page that the TLB holds go where its entry says. -/
theorem spanPa_of_tlb {s : State} {d c p va pa n : Nat} {e : TlbEntry} (h0 : n ≠ 0) (hp : va % 65536 + n ≤ 65536) (hv : va < 2 ^ 57)
    (hf : s.tlbFind d c p va = some e) (hw : e.w = true) (hpa : e.pa + va % 2 ^ e.log2 = pa) (hl : s.target pa ≠ .none)
    (hg : s.target (pa + n - 1) ≠ .none) : s.spanPa d c p true kindWrite va n = .ok [(pa, n, e.cmp)] := by
  refine spanPa_of_one_page h0 hp ?_ hg
  have hn : (BitVec.ofNat 64 va).toNat = va := by
    rw [BitVec.toNat_ofNat, Nat.mod_eq_of_lt (Nat.lt_trans hv (by decide))]
  have hbits : bitsN (BitVec.ofNat 64 va) 57 7 = 0 := by
    rw [bitsN, hn, Nat.div_eq_of_lt hv, Nat.zero_mod]
  unfold State.translate State.leaf
  rw [if_neg (fun h => h hbits), hn, hf]
  dsimp only
  rw [hpa, if_neg hl]
  simp [checkLeaf, hw, hpa, kindWrite, kindFetch]

theorem writePieces_of_two {s s1 s2 : State} {t : Team} {base : Nat} {p q : Nat × List Byte}
    (hp : s.writeVirt t.die t.core t.proc true (base + p.1) p.2 = .ok s1)
    (hq : s1.writeVirt t.die t.core t.proc true (base + q.1) q.2 = .ok s2) : s.writePieces t base [p, q] = .ok s2 := by
  simp only [State.writePieces, List.foldl_cons, List.foldl_nil, hp, hq]

/-- A block of which a team is left stays. -/
theorem retireBlock_of_team {s : State} {id : Nat} {w : Team} (h : w ∈ s.teamsOf id) : s.retireBlock id = s := by
  unfold State.retireBlock
  split
  · rfl
  next b hb =>
    have hid : b.id = id := by
      have := List.find?_some hb
      simpa using this
    have hdone : s.blockDone b = false := by
      have hne : (s.teamsOf b.id).isEmpty = false := by
        rw [hid, List.isEmpty_eq_false_iff]
        exact List.ne_nil_of_mem h
      simp only [State.blockDone, hne, Bool.and_false, Bool.false_and]
    rw [hdone, if_pos Bool.not_false]

/-- A machine without a team, which has left its threads' last phases with its block. -/
def State.withoutTeam (s : State) (id : Nat) (v : Team) : State :=
  { s with
    me := if s.me.id = id then Team.reset else s.me
    grp := if s.me.id = id then 0 else s.grp
    teams := s.teams.filter (fun u => decide (u.id ≠ id))
    blocks := s.blocks.map (fun b => if b.id = v.block then { b with past := b.past ++ [(v.index, v.threads.map (fun th => th.last))] } else b) }

/-- TEAM_RETIRE of a team that may retire and whose image is written (R20, R46). -/
theorem exec_teamRetire {s u : State} {id : Nat} {v : Team} (hv : s.team id = some v) (hm : v.mayRetire = true)
    (hu : s.writeImage v = .ok u) : exec (.teamRetire id) s = .next ((u.withoutTeam id v).retireBlock v.block) := by
  have hx : exec (.teamRetire id) s = execTeamRetire id s := rfl
  rw [hx, execTeamRetire, hv]
  simp only [hm, hu, Bool.not_true, Bool.false_eq_true, if_false]
  rfl

/-! ## The counterexample -/

/-- A team whose lanes have exited, its image's last part on a compressed page. -/
def exitedTeam : Team :=
  { fetchTeam with id := 2, index := 1, image := 0x1FE00, threads := List.replicate 8 { Thread.reset with exited := true } }

/-- A page of the process that is not compressed. -/
def plainPage (at_ : Nat) : TlbEntry := { compressedPage at_ with cmp := false }

/-- A block of two teams: one has exited; a store of the other waits in the block of the first one's thread records. -/
def beforeRetire : State :=
  { State.reset with
    me := storingTeam 0x20080
    teams := [exitedTeam]
    blocks := [{ Block.none with id := 1, grid := 1, nteams := 2 }]
    cores := [(0, { Core.reset with tlb := [plainPage 0x10000, compressedPage 0x20000] })]
    dies := [(0, dieHolding (laneWrite 1 0x20080))] }

theorem beforeRetire_waits : WriteWaits beforeRetire 0x20000 (laneWrite 1 0x20080) (storingTeam 0x20080) (laneStore 0x20080) where
  dies := by decide +kernel
  home := by decide +kernel
  ctl := by decide +kernel
  held := by decide +kernel
  low := by decide +kernel
  room := by decide +kernel
  block := by decide +kernel
  team := by decide +kernel
  entry := by decide +kernel
  work := fun n h => by cases h

/-- The head of the exited team's image. -/
def exitedHead : List Byte := imageHead exitedTeam 0

/-- Its thread records. -/
def exitedThreads : List Byte := exitedTeam.threads.flatMap threadBytes

/-- The other team, its store performed. -/
def performedTeam : Team := (storingTeam 0x20080).heldLane (laneStore 0x20080) 0

theorem beforeRetire_imagePieces :
    imagePieces exitedTeam (beforeRetire.depthOf exitedTeam) = [(0, exitedHead), (0x200, exitedThreads)] := by decide +kernel

/-- The image's head lies on the plain page. -/
theorem beforeRetire_writeHead : beforeRetire.writeVirt 0 0 1 true 0x1FE00 exitedHead = .ok (beforeRetire.homeWrite 0x1FE00 exitedHead) :=
  writeVirt_of_plain_page (spanPa_of_tlb (e := plainPage 0x10000) (by decide +kernel) (by decide +kernel) (by decide) (by decide +kernel)
    (by decide +kernel) (by decide +kernel) (by decide +kernel) (by decide +kernel))

/-- The thread records lie on the compressed one, whatever memory holds: the other team's store is performed with them. -/
theorem beforeRetire_writeThreads (mem : List (Nat × Byte)) (bad : List (Nat × Bool)) :
    ∃ T : State, T.work = beforeRetire.work ∧
      (beforeRetire.withMemory mem bad).writeVirt 0 0 1 true 0x20000 exitedThreads = .ok (T.setTeam performedTeam) := by
  obtain ⟨T, hT, hw⟩ := (beforeRetire_waits.of_memory mem bad).writeBlocks (proc := 1) (va := 0x20000) (bs := exitedThreads)
    (by decide +kernel) (by decide +kernel)
  have hfind : beforeRetire.tlbFind 0 0 1 0x20000 = some (compressedPage 0x20000) := by decide +kernel
  have hfirst : beforeRetire.target 0x20000 ≠ .none := by decide +kernel
  have hlast : beforeRetire.target (0x20000 + exitedThreads.length - 1) ≠ .none := by decide +kernel
  refine ⟨T, hT, ?_⟩
  refine Eq.trans (b := Acc.ok ((beforeRetire.withMemory mem bad).writeBlocks 1 0x20000 0x20000 exitedThreads)) ?_ (congrArg Acc.ok hw)
  exact writeVirt_of_compressed_page (spanPa_of_tlb (e := compressedPage 0x20000) (by decide +kernel) (by decide +kernel) (by decide) hfind
    rfl (by decide +kernel) hfirst hlast)

/-- The image of the exited team is written, and the other team's store is performed with it. -/
theorem beforeRetire_writeImage :
    ∃ u, beforeRetire.writeImage exitedTeam = .ok u ∧ u.me = performedTeam ∧ u.teams = [exitedTeam] ∧ u.blocks = beforeRetire.blocks := by
  obtain ⟨mem, bad, hs⟩ := homeWrite_of_quiet (s := beforeRetire) (by decide +kernel) (by decide +kernel) 0x1FE00 exitedHead
  obtain ⟨T, hT, hw⟩ := beforeRetire_writeThreads mem bad
  obtain ⟨hme, _, _, hteams, hblocks, _⟩ := work_inj hT
  have hset : T.setTeam performedTeam = { T with me := performedTeam } := by
    unfold State.setTeam
    rw [hme, if_pos (by decide +kernel)]
  refine ⟨T.setTeam performedTeam, ?_, ?_⟩
  · have himage : exitedTeam.image.toNat = 0x1FE00 := by decide +kernel
    rw [State.writeImage, beforeRetire_imagePieces, himage]
    exact writePieces_of_two (beforeRetire_writeHead.trans (congrArg Acc.ok hs)) hw
  · rw [hset]
    exact ⟨rfl, hteams, hblocks⟩

/-- The team that is left is not the one that stood there: its entry is gone. -/
theorem performedTeam_ne : storingTeam 0x20080 ≠ performedTeam := by
  intro h
  have he : performedTeam.entries = [] := by decide +kernel
  rw [← h] at he
  cases he

theorem performedTeam_left :
    (if (if performedTeam.id = 2 then Team.reset else performedTeam).id = 0 then [exitedTeam].filter (fun u => decide (u.id ≠ 2))
      else (if performedTeam.id = 2 then Team.reset else performedTeam) :: [exitedTeam].filter (fun u => decide (u.id ≠ 2))) =
      [performedTeam] := by decide +kernel

/-- Refutes O50: TEAM_RETIRE writes the team's image, part of it to a compressed block where a store of another team waits. The store is performed
with it, so the other team is not left as it was. -/
theorem not_schedulingAndAdmissionEvents : ¬ Obligations.SchedulingAndAdmissionEvents := by
  unfold Obligations.SchedulingAndAdmissionEvents
  intro h
  obtain ⟨_, _, retires, _⟩ := h
  obtain ⟨u, hu, hme, hteams, hblocks⟩ := beforeRetire_writeImage
  obtain ⟨stays, _⟩ := retires beforeRetire u 2 exitedTeam { Block.none with id := 1, grid := 1, nteams := 2 } (by decide +kernel)
    (by decide +kernel) hu (by decide +kernel)
  have hleft : (u.withoutTeam 2 exitedTeam).allTeams = [performedTeam] := by
    unfold State.withoutTeam State.allTeams
    dsimp only
    rw [hme, hteams]
    exact performedTeam_left
  have hmember : performedTeam ∈ (u.withoutTeam 2 exitedTeam).teamsOf 1 := by
    rw [State.teamsOf, hleft]
    decide +kernel
  have hexec : exec (.teamRetire 2) beforeRetire = .next (u.withoutTeam 2 exitedTeam) := by
    rw [exec_teamRetire (v := exitedTeam) (by decide +kernel) (by decide +kernel) hu]
    exact congrArg Host.Outcome.next (retireBlock_of_team hmember)
  obtain ⟨t, ht, _, _, _, hall⟩ := stays ⟨storingTeam 0x20080, by decide +kernel, by decide, by decide, by decide⟩
  have hstay : storingTeam 0x20080 ∈ t.allTeams := (hall _).2 ⟨by decide +kernel, by decide⟩
  rw [← Host.Outcome.next.inj (hexec.symm.trans ht), hleft] at hstay
  exact performedTeam_ne (List.mem_singleton.1 hstay)

end Sys2Proof.Machine
end

section
/-! The scalar pipe: what an instruction that issues leaves, the values of SOP and SSYS, and the entry of SLD and SST (09_isa_scalar_index.md). -/

namespace Sys2Proof.Machine

/-! ## A scalar-pipe instruction that issues -/

/-- Past the checks of R123, convergence and the scoreboard, the instruction does what its own part answers (R165). -/
theorem issueScalar_runs {s : State} {cls : Nat} {ok : Bool} {regs : List Nat} (body : State → Out) (h : s.runsScalar cls ok regs = true) :
    s.issueScalar cls ok regs body = s.close (body s) := by
  simp only [State.runsScalar, Bool.and_eq_true, decide_eq_true_eq, Bool.not_eq_true'] at h
  obtain ⟨⟨hr, hc⟩, hb⟩ := h
  simp only [State.issueScalar, hr, hc, hb, Bool.not_true, Bool.false_eq_true, if_false]

theorem sreg_setSreg (t : Team) (n k : Nat) (e : Elem) (hk : k < 24) :
    (t.setSreg n e).sreg k = (if k = n then some e else none).getD (t.sreg k) := by
  simp only [Team.setSreg, Team.sreg, putAt_getD, if_pos hk]
  split <;> rfl

/-- The group behind an instruction without a guard or an operand in the vector registers (R107). -/
theorem thread_advance_plain {s : State} {t : Team} (hw : t.width = s.me.width) (ht : t.threads = s.me.threads) (l : Nat) (hl : l < s.me.width) :
    ({ s with me := t } : State).advance.me.thread l = s.onward plainReg l := by
  have hth : t.thread l = s.me.thread l := congrArg (·.getD l Thread.gone) ht
  rw [onward_of_direct (r := plainReg) rfl, ← hth]
  exact thread_mapThreads t s.grp _ l (hw.symm ▸ hl)

/-- The file of scalar registers written, and the group moved on. -/
theorem scalarLeft_advance {s : State} {rs : List Elem} {w : Nat → Option Elem}
    (hw : ∀ k, k < 24 → rs.getD k Elem.zero = (w k).getD (s.me.sreg k)) :
    ScalarLeft s ({ s with me := { s.me with sregs := rs } } : State).advance plainReg w 0 where
  machine := rfl
  team := by rw [show s.me.sticky ||| 0 = s.me.sticky from BitVec.or_zero]; rfl
  scalar := hw
  thread := thread_advance_plain rfl rfl

/-- An instruction whose part writes scalar registers. -/
theorem scalarEffect_of_go {i : Instr} {s : State} {cls : Nat} {ok : Bool} {regs : List Nat} {body : State → Out} {rs : List Elem}
    {w : Nat → Option Elem} (h : s.runsScalar cls ok regs = true) (hx : exec i s = s.issueScalar cls ok regs body)
    (hb : body s = .go { s with me := { s.me with sregs := rs } }) (hw : ∀ k, k < 24 → rs.getD k Elem.zero = (w k).getD (s.me.sreg k)) :
    ScalarEffect i s plainReg w 0 :=
  ⟨_, by rw [hx, issueScalar_runs body h, hb]; rfl, scalarLeft_advance hw⟩

/-- An instruction whose part writes one scalar register. -/
theorem scalarResult_of_go {i : Instr} {s : State} {cls : Nat} {ok : Bool} {regs : List Nat} {body : State → Out} {n : Nat} {e : Elem}
    (h : s.runsScalar cls ok regs = true) (hx : exec i s = s.issueScalar cls ok regs body) (hb : body s = .go (s.setScalar n e)) :
    ScalarResult i s n e :=
  scalarEffect_of_go h hx hb (fun k hk => sreg_setSreg s.me n k e hk)

/-! ## The values of R167 -/

theorem sop_eval_shl (a b : Word) : Sop.shl.eval a b = BitVec.ofNat 32 (a.toNat * 2 ^ b.toNat) := by
  by_cases hb : 32 ≤ b.toNat
  · have hz : a.toNat * 2 ^ b.toNat % 2 ^ 32 = 0 := Nat.mod_eq_zero_of_dvd (Nat.dvd_mul_left_of_dvd (Nat.pow_dvd_pow 2 hb) _)
    rw [Sop.eval, if_pos hb]
    exact BitVec.eq_of_toNat_eq (by rw [BitVec.toNat_ofNat, hz]; rfl)
  · rw [Sop.eval, if_neg hb]
    exact BitVec.eq_of_toNat_eq (by rw [BitVec.toNat_shiftLeft, BitVec.toNat_ofNat, Nat.shiftLeft_eq])

theorem sop_eval_shr (a b : Word) : Sop.shr.eval a b = BitVec.ofNat 32 (a.toNat / 2 ^ b.toNat) := by
  by_cases hb : 32 ≤ b.toNat
  · have hz : a.toNat / 2 ^ b.toNat = 0 := Nat.div_eq_of_lt (Nat.lt_of_lt_of_le a.isLt (Nat.pow_le_pow_right Nat.two_pos hb))
    rw [Sop.eval, if_pos hb, hz]
    rfl
  · rw [Sop.eval, if_neg hb, ← Nat.shiftRight_eq_div_pow, ← BitVec.toNat_ushiftRight, BitVec.ofNat_toNat, BitVec.setWidth_eq]

/-- A word divided, rounding down, by 2^32 or more is its sign. -/
theorem toInt_div_two_pow_large (a : Word) (n : Nat) (hn : 32 ≤ n) : a.toInt / 2 ^ n = if a.toInt < 0 then -1 else 0 := by
  have hp : (2 : Int) ^ 32 ≤ 2 ^ n := by exact_mod_cast Nat.pow_le_pow_right Nat.two_pos hn
  have hlo := BitVec.le_toInt a
  have hhi := BitVec.toInt_lt (x := a)
  split
  case isTrue hneg => exact Int.ediv_eq_neg_one_of_neg_of_le hneg (by omega)
  case isFalse hpos => exact Int.ediv_eq_zero_of_lt (by omega) (by omega)

theorem sop_eval_sar (a b : Word) : Sop.sar.eval a b = BitVec.ofInt 32 (a.toInt / 2 ^ b.toNat) := by
  have hmin : a.toInt / 2 ^ (Nat.min b.toNat 32) = a.toInt / 2 ^ b.toNat := by
    by_cases hb : 32 ≤ b.toNat
    · rw [show Nat.min b.toNat 32 = 32 from Nat.min_eq_right hb, toInt_div_two_pow_large a 32 (Nat.le_refl 32), toInt_div_two_pow_large a _ hb]
    · rw [show Nat.min b.toNat 32 = b.toNat from Nat.min_eq_left (by omega)]
  rw [← hmin]
  calc Sop.sar.eval a b
      = BitVec.ofInt 32 (a.sshiftRight (Nat.min b.toNat 32)).toInt := (BitVec.ofInt_toInt).symm
    _ = BitVec.ofInt 32 (a.toInt / 2 ^ (Nat.min b.toNat 32)) := by rw [BitVec.toInt_sshiftRight, Int.shiftRight_eq_div_pow]; norm_cast

theorem sop_eval_min (a b : Word) : Sop.min.eval a b = BitVec.ofInt 32 (min a.toInt b.toInt) := by
  rw [Sop.eval, Int.min_def]
  split <;> exact BitVec.ofInt_toInt.symm

theorem sop_eval_max (a b : Word) : Sop.max.eval a b = BitVec.ofInt 32 (max a.toInt b.toInt) := by
  rw [Sop.eval, Int.max_def]
  split <;> exact BitVec.ofInt_toInt.symm

/-- Both lengths of a scalar operation of two sources (R167, R169). -/
theorem scalarPair_of_sop {short : SOps → Instr} {long : SOps → Word → Instr} {f : Word → Word → Word} (k : Sop)
    (hs : ∀ o s, exec (short o) s = s.sop k o) (hl : ∀ o w1 s, exec (long o w1) s = s.sopLong k o w1) (hf : ∀ a b, k.eval a b = f a b) :
    ScalarPair short long f := by
  refine ⟨fun o s h => ?_, fun o w1 s h => ?_⟩
  · simp only [← hf]
    have hx := hs o s
    unfold State.sop at hx
    exact scalarResult_of_go h hx rfl
  · simp only [← hf]
    have hx := hl o w1 s
    unfold State.sopLong at hx
    exact scalarResult_of_go h hx rfl

/-- Settles O6: the part of every scalar operation writes its one register; the shifts, SSAR, SMIN and SMAX agree with R167 by arithmetic. -/
theorem scalarArithmetic : Obligations.ScalarArithmetic := by
  unfold Obligations.ScalarArithmetic
  refine ⟨scalarPair_of_sop .add (fun _ _ => rfl) (fun _ _ _ => rfl) (fun _ _ => rfl),
    scalarPair_of_sop .sub (fun _ _ => rfl) (fun _ _ _ => rfl) (fun _ _ => rfl),
    scalarPair_of_sop .mul (fun _ _ => rfl) (fun _ _ _ => rfl) (fun _ _ => rfl),
    scalarPair_of_sop .and (fun _ _ => rfl) (fun _ _ _ => rfl) (fun _ _ => rfl),
    scalarPair_of_sop .or (fun _ _ => rfl) (fun _ _ _ => rfl) (fun _ _ => rfl),
    scalarPair_of_sop .xor (fun _ _ => rfl) (fun _ _ _ => rfl) (fun _ _ => rfl),
    scalarPair_of_sop .shl (fun _ _ => rfl) (fun _ _ _ => rfl) sop_eval_shl,
    scalarPair_of_sop .shr (fun _ _ => rfl) (fun _ _ _ => rfl) sop_eval_shr,
    scalarPair_of_sop .sar (fun _ _ => rfl) (fun _ _ _ => rfl) sop_eval_sar,
    scalarPair_of_sop .min (fun _ _ => rfl) (fun _ _ _ => rfl) sop_eval_min,
    scalarPair_of_sop .max (fun _ _ => rfl) (fun _ _ _ => rfl) sop_eval_max,
    fun o s h => ?_, fun o s h => ?_, fun o s h => ?_, fun sd z imm s h => ?_, fun sd z w1 s h => ?_⟩
  · exact scalarResult_of_go h (show _ = execSmov o s from rfl) rfl
  · exact scalarResult_of_go h (show _ = execScmp o s from rfl) rfl
  · exact scalarResult_of_go h (show _ = execSsel o s from rfl) rfl
  · exact scalarResult_of_go h (show _ = execSmovi sd z imm s from rfl) rfl
  · exact scalarResult_of_go h (show _ = execSmoviLong sd z w1 s from rfl) rfl

/-! ## The system values of R171 -/

theorem exec_ssys_of_word {sd sa sb sel : BitVec 5} {z : BitVec 4} {s : State} (hn : ssysWide sel = false) :
    exec (.ssys sd sa sb sel z) s = s.issueScalar 0 (ssysOk sd sa sb sel z) [sd.toNat] (fun s =>
      .go (s.setScalar sd.toNat (Elem.ofWord (bits (s.sysValue sel.toNat) 0 32)))) := by
  change execSsys sd sa sb sel z s = _
  simp only [execSsys, hn, Bool.false_eq_true, if_false]

theorem exec_ssys_of_pair {sd sa sb sel : BitVec 5} {z : BitVec 4} {s : State} (hw : ssysWide sel = true) :
    exec (.ssys sd sa sb sel z) s = s.issueScalar 0 (ssysOk sd sa sb sel z) [sd.toNat, sd.toNat + 1] (fun s =>
      .go { s with me := s.me.setSpair sd.toNat (s.sysValue sel.toNat) false }) := by
  change execSsys sd sa sb sel z s = _
  simp only [execSsys, hw, if_true]

/-- A block's linear number splits into its coordinates (R12). -/
theorem coordinates_of_linear {x y z gx gy : Nat} (hx : x < gx) (hy : y < gy) :
    (x + gx * (y + gy * z)) % gx = x ∧ (x + gx * (y + gy * z)) / gx % gy = y ∧ (x + gx * (y + gy * z)) / gx / gy = z := by
  have hrow : (x + gx * (y + gy * z)) / gx = y + gy * z := by
    rw [Nat.add_mul_div_left _ _ (Nat.zero_lt_of_lt hx), Nat.div_eq_of_lt hx, Nat.zero_add]
  refine ⟨by rw [Nat.add_mul_mod_self_left, Nat.mod_eq_of_lt hx], ?_, ?_⟩
  · rw [hrow, Nat.add_mul_mod_self_left, Nat.mod_eq_of_lt hy]
  · rw [hrow, Nat.add_mul_div_left _ _ (Nat.zero_lt_of_lt hy), Nat.div_eq_of_lt hy, Nat.zero_add]

/-- Settles O7: SSYS writes one register or a pair, and the block's coordinates are the digits of its linear number. -/
theorem systemValues : Obligations.SystemValues := by
  unfold Obligations.SystemValues
  refine ⟨fun sd sa sb sel z s hn h => scalarResult_of_go h (exec_ssys_of_word hn) rfl,
    fun sd sa sb sel z s hw h => scalarEffect_of_go h (exec_ssys_of_pair hw) rfl (fun k hk => sreg_setSpair s.me sd.toNat k _ hk),
    fun s => ⟨rfl, rfl, rfl, rfl, rfl, rfl, rfl, rfl, rfl, fun x y z hx hy hlin => ?_⟩⟩
  obtain ⟨hbx, hby, hbz⟩ := coordinates_of_linear (z := z) hx hy
  refine ⟨?_, ?_, ?_⟩ <;> simp only [State.sysValue, hlin, hbx, hby, hbz]

/-! ## SLD and SST at issue (R173, R174) -/

/-- The data registers of a scalar load or store: one, or a pair under .b64. -/
def scalarRegs (store : Bool) (o : MemSOps) : List Nat :=
  let reg := if store then o.sb.toNat else o.sd.toNat
  if o.size then [reg, reg + 1] else [reg]

/-- The address of R174. -/
def State.scalarAddr (s : State) (o : MemSOps) (off : Int) : DWord := s.me.spair o.sa.toNat + BitVec.ofInt 64 off

/-- A poisoned base, or a poisoned datum of a store. -/
def State.scalarPois (s : State) (store : Bool) (o : MemSOps) : Bool :=
  s.me.spairPois o.sa.toNat || (store && (scalarRegs store o).any (fun k => (s.me.sreg k).pois))

/-- What the entry of a scalar load or store is to do. -/
def scalarWork (store : Bool) (o : MemSOps) : Work :=
  if store then .sstore o.size o.scope.toNat o.ord else .sload (if store then o.sb.toNat else o.sd.toNat) o.size o.scope.toNat o.ord

/-- The entry of a scalar load or store: one access by the lowest live lane, counted on flag A (R113, R173). -/
def State.scalarEntry (s : State) (store : Bool) (o : MemSOps) (off : Int) : Entry :=
  let data := (scalarRegs store o).map (fun k => (s.me.sreg k).val)
  { s.entry 1 (maskPut 0 (lowLane s.me.live) true) [] (scalarWork store o) with
    sbusy := if store then [] else scalarRegs store o
    addr := List.replicate s.me.width (s.scalarAddr o off)
    data := if store then List.replicate s.me.width data else []
    cap := leBytes 8 (s.scalarAddr o off).toNat ++ leBytes 8 (if store then ofLeBytes (w32Bytes data) else 0) }

/-- An entry joins the queue, and the group moves on. -/
theorem queued_pushEntry_advance (s : State) (e : Entry) : Queued s (s.pushEntry e).advance plainReg e 0 where
  machine := rfl
  team := by rw [show s.me.sticky ||| 0 = s.me.sticky from BitVec.or_zero]; rfl
  thread := thread_advance_plain (t := (s.pushEntry e).me) rfl rfl

section ScalarMem
variable {s : State} {store ok : Bool} {o : MemSOps} {off : Int}
  (h : s.runsScalar 3 (ok && scalarMemOk store o) ([o.sa.toNat, o.sa.toNat + 1] ++ scalarRegs store o) = true) (hq : s.queueRoom 1 = true)
include h hq

/-- A scalar load or store that issues with room: the poison, then the alignment, then the entry. -/
theorem scalarMem_runs : s.scalarMem store o ok off =
    s.close (if s.scalarPois store o then .trap 0x08 s.grp 0 0 0
      else if (s.scalarAddr o off).toNat % (if o.size then 8 else 4) ≠ 0 then .trap 0x09 s.grp 0 (s.scalarAddr o off) 0
      else .go (s.pushEntry (s.scalarEntry store o off))) := by
  unfold State.scalarMem
  refine (issueScalar_runs _ h).trans (congrArg s.close ?_)
  simp only [hq, Bool.not_true, Bool.false_eq_true, if_false]
  cases store <;> rfl

theorem scalarMem_of_poisoned (hp : s.scalarPois store o = true) : s.scalarMem store o ok off = .next (s.trapNow 0x08 s.grp 0 0 0) := by
  rw [scalarMem_runs h hq, if_pos hp]
  rfl

theorem scalarMem_of_misaligned (hp : s.scalarPois store o = false) (ha : (s.scalarAddr o off).toNat % (if o.size then 8 else 4) ≠ 0) :
    s.scalarMem store o ok off = .next (s.trapNow 0x09 s.grp 0 (s.scalarAddr o off) 0) := by
  rw [scalarMem_runs h hq, hp, if_neg Bool.false_ne_true, if_pos ha]
  rfl

theorem scalarMem_of_aligned (hp : s.scalarPois store o = false) (ha : (s.scalarAddr o off).toNat % (if o.size then 8 else 4) = 0) :
    s.scalarMem store o ok off = .next (s.pushEntry (s.scalarEntry store o off)).advance := by
  rw [scalarMem_runs h hq, hp, if_neg Bool.false_ne_true, if_neg (not_not_intro ha)]
  rfl

end ScalarMem

theorem scalarEntry_addr (s : State) (store : Bool) (o : MemSOps) (off : Int) (l : Nat) (hl : l < s.me.width) :
    (s.scalarEntry store o off).addr.getD l 0 = s.scalarAddr o off := by
  simp only [State.scalarEntry, List.getD_eq_getElem?_getD, List.getElem?_replicate, if_pos hl, Option.getD_some]

theorem scalarEntry_data (s : State) (o : MemSOps) (off : Int) (l : Nat) (hl : l < s.me.width) :
    (s.scalarEntry true o off).data.getD l [] = (scalarRegs true o).map (fun k => (s.me.sreg k).val) := by
  simp only [State.scalarEntry, if_true, List.getD_eq_getElem?_getD, List.getElem?_replicate, if_pos hl, Option.getD_some]

/-- Settles O8: SLD and SST are one access in both lengths, which differ in the offset; it is queued where it is clean and aligned. -/
theorem scalarMemoryIssues : Obligations.ScalarMemoryIssues := by
  unfold Obligations.ScalarMemoryIssues
  intro part
  have access : ∀ (i : Instr) (o : MemSOps) (store ok : Bool) (off : Int), (∀ s, exec i s = s.scalarMem store o ok off) → part i o store ok off := by
    intro i o store ok off hx s n reg regs bad addr hrun hroom
    refine ⟨fun hp ha => ⟨_, s.scalarEntry store o off, (hx s).trans (scalarMem_of_aligned hrun hroom hp ha), queued_pushEntry_advance s _,
        rfl, rfl, rfl, rfl, rfl, rfl, rfl, fun l hl => scalarEntry_addr s store o off l hl, fun hs l hl => ?_, ?_⟩,
      fun hp => (hx s).trans (scalarMem_of_poisoned hrun hroom hp), fun hp ha => (hx s).trans (scalarMem_of_misaligned hrun hroom hp ha)⟩
    · subst hs
      exact scalarEntry_data s o off l hl
    · cases store <;> rfl
  exact ⟨fun o => access _ o _ _ _ (fun _ => rfl), fun o w1 => access _ o _ _ _ (fun _ => rfl), fun o => access _ o _ _ _ (fun _ => rfl),
    fun o w1 => access _ o _ _ _ (fun _ => rfl)⟩

end Sys2Proof.Machine
end
